-- ==== Sys2Proof/Word.lean ====
section
/-! DEFINITION. The word types of the AKX-2408 and the index types of its units (rules R4, R5, R9). -/

namespace Sys2Proof

/-- One byte; byte order is little-endian throughout (R4). -/
abbrev Byte := BitVec 8
/-- A 16-bit word. -/
abbrev Half := BitVec 16
/-- A 32-bit word: the width of every register (R28). -/
abbrev Word := BitVec 32
/-- A 64-bit word. -/
abbrev DWord := BitVec 64
/-- A 48-bit device-local physical address (R9, R23). -/
abbrev Addr := BitVec 48
/-- A tower index, T0 to T7 (R9). -/
abbrev Tower := Fin 8
/-- A context number, 0 to 15; context 15 is the lantern slice (R9). -/
abbrev CtxId := Fin 16
/-- A mailbox number, 0 to 63 (R9). -/
abbrev MboxId := Fin 64
/-- A fabric port by its port code: T+, T−, S+, S−, D+, D− (R384). -/
abbrev PortCode := Fin 6

end Sys2Proof
end

