-- ==== Sys2Proof/Machine/Messages.lean ====
section
/-! DEFINITION. What the block's commands carry: instruction fields, mailbox commands, tokens, packets and
datagrams (R36, R203, R204, R442, R453 and the message tables of chapters 12 to 14). -/

namespace Sys2Proof.Machine

/-- The shared status codes (R454). -/
inductive Status where
  | ok | lengthRange | badDescriptor | badFormat | accSpace | epochMismatch | groupAborted | pageStarved
  | kvPageAbsent | kvOrder | staleView | transferPartial | reducePartial | pathLost | addressFault | malformed
  | badCommand | badArgument | notPermitted | notFound | wrongState | timedOut | authFailed | rollback | mediaError
deriving DecidableEq, Repr, Inhabited

/-- The 16-bit code of a status (R454). -/
def Status.code (s : Status) : Nat :=
  match s with
  | .ok => 0x00 | .lengthRange => 0x01 | .badDescriptor => 0x02 | .badFormat => 0x03 | .accSpace => 0x04
  | .epochMismatch => 0x05 | .groupAborted => 0x06 | .pageStarved => 0x07 | .kvPageAbsent => 0x08
  | .kvOrder => 0x09 | .staleView => 0x0A | .transferPartial => 0x0B | .reducePartial => 0x0C
  | .pathLost => 0x0D | .addressFault => 0x0E | .malformed => 0x0F | .badCommand => 0x10 | .badArgument => 0x11
  | .notPermitted => 0x12 | .notFound => 0x13 | .wrongState => 0x14 | .timedOut => 0x15 | .authFailed => 0x16
  | .rollback => 0x17 | .mediaError => 0x18

/-- The operand fields of a vector-core instruction: bits [31:8] of its low word and its whole upper word (R203, R204). -/
structure Fields where
  d : BitVec 5
  a : BitVec 5
  b : BitVec 5
  c : BitVec 5
  mask : BitVec 3
  mu : Bool
  up : Word
deriving DecidableEq, Repr, Inhabited

/-- `z` of the register and memory forms (R204). -/
def Fields.z (f : Fields) : Bool := f.up.getLsbD 0
/-- `fn` of the register form (R204). -/
def Fields.fn (f : Fields) : Nat := (f.up.extractLsb' 1 7).toNat
/-- `imm` of the immediate form, sign-extended to 64 bits (R204). -/
def Fields.imm (f : Fields) : DWord := f.up.signExtend 64
/-- `ord` of the memory form: 1 acquire, 2 release, 3 both (R204). -/
def Fields.ord (f : Fields) : Nat := (f.up.extractLsb' 1 2).toNat
/-- `sz` of the memory form (R204). -/
def Fields.sz (f : Fields) : Nat := (f.up.extractLsb' 3 2).toNat
/-- `sgn` of the memory form (R204). -/
def Fields.sgn (f : Fields) : Bool := f.up.getLsbD 5
/-- `off` of the memory form, sign-extended to 64 bits (R204). -/
def Fields.off (f : Fields) : DWord := (f.up.extractLsb' 6 26).signExtend 64

/-- A barrier token of the commit tree (R36). -/
structure Token where
  commit : Bool
  vote : Bool
  tag : Byte
  epoch : Half
  step : Word
deriving DecidableEq, Repr, Inhabited

/-- The header of a mailbox command with the mailbox it came to (R442). -/
structure CmdHdr where
  mb : MboxId
  tag : Half
  deadline : Word
deriving DecidableEq, Repr

/-- A mailbox command with its arguments, as R453 lists them. -/
inductive MbCmd where
  | mboxOpen (mbox flags : Byte) (slots : Half) (base : DWord)
  | mboxClose (mbox : Byte)
  | devInfo
  | devReset (kind : Byte)
  | regRead (count : Half) (addr : DWord)
  | eventMask (first count : Half) (masked : Byte)
  | telemetryRead
  | sscSet (depth rate : Byte)
  | ctxCreate (ctx slotb slots : Byte) (thrBase thrCount : Half)
  | ctxDestroy (ctx : Byte)
  | ctxQueueSet (ctx kind tower : Byte) (ringSize cqSize : Half) (ring cq : DWord)
  | ctxSpawn (ctx tower : Byte) (count : Word) (pc arg : DWord)
  | ctxSchedSet (ctx prio reserved : Byte) (allowed : List DWord)
  | lanternSet (cores windows : Byte) (base size : DWord)
  | ctxFaultRead (ctx : Byte)
  | kvTimeoutSet (ctx mask : Byte) (ticks : Word)
  | stepGroupCreate (tag n : Byte) (members flags parent epoch : Half) (firstStep : Word) (seed : DWord)
      (children : List Half)
  | stepGroupDissolve
  | epochSet (epoch : Half)
  | bankTableSet (first count : Byte) (entries : List Word)
  | stepTimeoutSet (ticks : Word)
  | phaseTableRead (back count : Byte)
  | biasLoad (table mask : Byte) (count : Half) (src : DWord)
  | codecMaint (on : Byte)
  | memLocalSet (gib : Byte)
  | memCalSet (interval : Half) (margin hours : Byte)
  | memStatsSet (entry enable : Byte) (base limit : DWord)
  | memStatsRead (entry clear : Byte)
  | mirrorTableSet (first count : Byte) (entries : List Word)
  | snapshotListSet (count : Byte) (words : List Word)
  | snapshotScheduleSet (mode : Byte) (interval : Half) (cost : Word)
  | repairListGet (first count : Half)
  | repairListPut (count : Half) (rows : List DWord)
  | redGroupSet (group : Byte) (epoch : Half) (entry : List Word)
  | redBucketsSet (group : Byte) (epoch : Half) (first count : Word) (src : DWord)
  | redScaleSet (group : Byte) (epoch bucket sOpen : Half)
  | redGroupRead (group : Byte) (epoch : Half)
  | fabPortsRead
  | fabAddrSet (tSize sSize dSize dateline enable : Byte) (addr : Half)
  | fabRouteSet (axis first : Byte) (count : Half) (entries : List Byte)
  | fabPortCtl (port action : Byte)
  | fabCfgSet (rotInterval reqTimeout : Word) (violWindow : Half) (violLimit minMargin : Byte)
  | hostAddrSet (which clear : Byte) (addr : List Byte)
  | hostPortSet (udp vlan : Half) (roce belpel pfc : Byte)
  | hostNeighSet (first count : Byte) (entries : List Byte)
  | qpSet (qp : Half) (mtu tclass ackTimeout retry : Byte) (remoteQpn sqPsn rqPsn rkey : Word) (ip : List Byte)
      (va len : DWord)
  | qpReset (qp : Half)
  | qpQuery (qp : Half)
  | windowSet (win perms : Byte) (rkey : Word) (base : DWord) (size : Word)
  | allowSet (count : Byte) (entries : List Byte)
  | eventEndpointSet (port : Half) (ip : List Byte)
  | fwStage (len : Word) (src : DWord)
  | fwActivate
  | attest (nonce : List Byte) (cap : Word) (dst : DWord)
  | identityRead (cap : Word) (dst : DWord)
  | failureReport (failures hours : Word)
  | mirrorRefill (entry : Byte) (src : Half)
deriving DecidableEq, Repr

/-! ### Fabric packets and messages (R397, R403, R404) -/

/-- The packet kinds (R404). -/
inductive PktKind where
  | write | read | readData | writeAck | nack | token | reduce | snapClose | mgmt
deriving DecidableEq, Repr, Inhabited

/-- The code of a packet kind (R404). -/
def PktKind.code (k : PktKind) : Nat :=
  match k with
  | .write => 0 | .read => 1 | .readData => 2 | .writeAck => 3 | .nack => 4 | .token => 5 | .reduce => 6
  | .snapClose => 7 | .mgmt => 8

/-- The packet kind of a code; none where it is reserved (R404). -/
def PktKind.ofCode (n : Nat) : Option PktKind :=
  match n with
  | 0 => some .write | 1 => some .read | 2 => some .readData | 3 => some .writeAck | 4 => some .nack
  | 5 => some .token | 6 => some .reduce | 7 => some .snapClose | 8 => some .mgmt
  | _ => none

/-- A fabric packet: its header fields (R403) and its payload. -/
structure Packet where
  dst : Nat
  src : Nat
  kind : PktKind
  cls : Nat
  sub : Nat
  detour : Bool
  resent : Bool
  length : Nat
  tag : Nat
  addr : Nat
  payload : List Byte
deriving DecidableEq, Repr, Inhabited

/-- A response (R404): it answers a request and gets no answer itself. -/
def PktKind.response (k : PktKind) : Bool := k == .readData || k == .writeAck || k == .nack

/-- A link control message (R397). -/
inductive LinkMsg where
  | ident (serial : DWord) (index port addr : Nat) (valid : Bool)
  | laneDown (tx : Bool) (lane : Nat)
  | rotReady (lane : Nat)
  | rotSwitch (lane codeword : Nat)
  | rotDone (lane margin : Nat)
  | halfWidth (lanes : List Nat) (codeword : Nat)
  | quarantine (cause : Nat)
deriving DecidableEq, Repr, Inhabited

/-- What a message between Lumdom instances says (R404, kind 0x8; log entry 31). -/
inductive Mgmt where
  /-- the step group is aborted (R40, R471) -/
  | stepAborted (tag : Byte)
  /-- members below the sender, up the commit tree (R481) -/
  | members (n : Nat)
  /-- the number of member devices, down the commit tree (R481) -/
  | groupSize (n : Nat)
  /-- a new snapshot interval (R482) -/
  | interval (n : Nat)
  /-- send the contents of entry `entry` XOR 32 to the sender's entry, which lies at `base` and has `size` pages (R490) -/
  | refill (entry base size : Nat)
  /-- the refill of the receiver's entry failed at its source (R492) -/
  | refillFailed (entry : Nat)
  /-- a snapshot of the sender supersedes its refill of the receiver's entry (R492) -/
  | refillSuperseded (entry : Nat)
  /-- base and size of a mirror entry of the sender, for the device whose snapshots fill it (R343) -/
  | mirrorEntry (entry base size : Nat)
deriving DecidableEq, Repr, Inhabited

/-- What a unit reports with a context fault (R476). -/
structure FaultInfo where
  cause : Byte
  tower : Tower
  unit : BitVec 4
  remote : Bool
  thread : Nat
  pc : Addr
  addr : DWord
  jobTag : Half
  descIndex : Half
deriving DecidableEq, Repr, Inhabited

/-- The ECC outcome of a read: clean, corrected at the addresses of a list, one for each protected word that needed it, or
uncorrectable at an address (R318, R319, R321). -/
inductive Ecc where
  | clean | corrected (l : List Nat) | bad (addr : Nat)
deriving DecidableEq, Repr, Inhabited

/-- The number of the job, or of the tile of a job, that reads, with the ECC outcome of what it reads. -/
structure ReadBy where
  num : Nat
  ecc : Ecc
deriving DecidableEq, Repr, Inhabited

/-- Who is named to be served, and the request that has waited 4,096 cycles where there is one, which goes first (R467). -/
structure Turn (α : Type) where
  who : α
  aged : Option Nat
deriving DecidableEq, Repr, Inhabited

/-- A stack-local address of an HBM stack (R315). -/
structure StackPlace where
  stack : Fin 24
  addr : Addr
deriving DecidableEq, Repr, Inhabited

/-- The lanes a direction keeps at half width, and the codeword from which it does (R394). -/
structure HalfLanes where
  lanes : List Nat
  codeword : Nat
deriving DecidableEq, Repr, Inhabited

/-- The corrections a read of [a, a + n) met. -/
def Ecc.fixed (e : Ecc) (a n : Nat) : List Nat :=
  match e with
  | .corrected l => l.filter fun b => a ≤ b && b < a + n
  | _ => []

/-- The kinds of descriptor queue. -/
inductive QKind where
  | matrix | sleeve | mover | reduction | decode | encode
deriving DecidableEq, Repr, Inhabited

/-- A source of contributions: a draining route 1 tile of a matrix job, or a contribute descriptor (R356). -/
inductive RedSource where
  | tile (job tile : Nat) | desc (job : Nat)
deriving DecidableEq, Repr, Inhabited

/-- What power-up meets: the judgment of the two crystals, and whether mailbox 0 opens before the boot watchdog (R523,
R539). -/
structure BootInfo where
  xa : Bool
  xb : Bool
  opens : Bool
deriving DecidableEq, Repr, Inhabited

/-- The payload of an Ethernet frame, as far as the port tells payloads apart (R422): an ARP request for an address; an IPv4
or IPv6 packet; anything else. -/
inductive IpBody where
  | udp (srcPort dstPort : Nat) (sumOk sumZero : Bool) (bytes : List Byte)
  | echoRequest (bytes : List Byte)
  | solicit (target : List Byte)
  | other
deriving DecidableEq, Repr, Inhabited

inductive FrameBody where
  | arpRequest (target : List Byte)
  | ipv4 (src dst : List Byte) (sumOk options fragment : Bool) (body : IpBody)
  | ipv6 (src dst : List Byte) (extension fragment : Bool) (body : IpBody)
  | other
deriving DecidableEq, Repr, Inhabited

/-- A received Ethernet frame: whether its FCS holds, its length with the FCS, its destination address, the VLAN ids of its
tags, and its payload (R422, R423). -/
structure Frame where
  fcsOk : Bool
  length : Nat
  dst : List Byte
  tags : List Nat
  body : FrameBody
deriving DecidableEq, Repr, Inhabited

/-- A UDP datagram between the host and the Belpel port: the host's address (R571) and port, and the payload. -/
structure Datagram where
  ip : List Byte
  port : Nat
  bytes : List Byte
deriving DecidableEq, Repr, Inhabited

/-- A received WRITE packet, and whether its sender's snapshot or refill traffic brought it (R347; log entry 87). -/
structure WriteIn where
  pkt : Packet
  snap : Bool
deriving DecidableEq, Repr, Inhabited

/-- The queue pair number a received RoCEv2 packet is for, and whether its ICRC holds (R425). -/
structure RoceDest where
  qpn : BitVec 24
  icrcOk : Bool
deriving DecidableEq, Repr, Inhabited

/-- What the headers of a received RoCEv2 packet say: where it is for, and whether it is marked CE (R425, R429). -/
structure RoceHdr extends RoceDest where
  ce : Bool
deriving DecidableEq, Repr, Inhabited

/-- Where a codec descriptor comes from: the queue of a context, or Lumdom in maintenance mode (R276, R307). -/
inductive CdcSrc where
  | queue (c : CtxId) | lumdom (words : List Word)
deriving DecidableEq, Repr, Inhabited

/-- A codec engine: eight decode engines, two encode engines. -/
inductive CdcEng where
  | dec (e : Fin 8) | enc (e : Fin 2)
deriving DecidableEq, Repr, Inhabited

/-- What a sequence header announces: profile (general_profile_idc or seq_profile), ten times the level, luma size, bit
depth, chroma_format_idc or 0 for 4:0:0, whether it needs no tool that the table rules out, matrix_coefficients (2 where it has
none) and the full-range flag where it has one (R273, R289). -/
structure SeqHdr where
  profile : Nat
  level10 : Nat
  w : Nat
  h : Nat
  bd : Nat
  chroma : Nat
  toolsOk : Bool
  coeffs : Nat
  full : Option Bool
deriving DecidableEq, Repr, Inhabited

/-- Stream errors that only the decoding of a payload shows: rows 1, 2 and 4 of the table of R295. -/
inductive StreamErr where
  | syntaxErr | length | unsupported
deriving DecidableEq, Repr, Inhabited

/-- What the decoding of a record's payload finds: the sequence header it holds, the errors met, whether it holds a picture, and
the numbers of the pictures that the stream's reference management no longer keeps (R287, R295). -/
structure RecFound where
  hdr : Option SeqHdr
  errs : List StreamErr
  picture : Bool
  drops : List Nat
deriving DecidableEq, Repr, Inhabited

/-- A 16 × 16 block in decoding order: its index in raster order, whether an error of R295 conceals it, and the blocks whose
samples predict it: of the same picture, or of the picture decoded as number `n` of the stream (R298). A picture before the
random access point where decoding began has a number below that point's (R285). -/
structure PicBlock where
  pos : Nat
  failed : Bool
  preds : List (Option Int × Nat)
deriving DecidableEq, Repr, Inhabited

/-- A decoded picture as it is output: size in luma samples, bit depth, whether it is 4:0:0, matrix_coefficients, the
full-range flag where the stream has one, the sample planes in raster order, and the value of a sample no plane lists. -/
structure Pic where
  w : Nat
  h : Nat
  bd : Nat
  mono : Bool
  coeffs : Nat
  full : Option Bool
  y : List Nat
  cb : List Nat
  cr : List Nat
  fill : Nat
deriving DecidableEq, Repr, Inhabited

end Sys2Proof.Machine
end

