-- ==== Sys2Proof/Syntax.lean ====
section
/-! DEFINITION. The commands of the block: one constructor per row of the opcode table, with the row's operands. -/

namespace Sys2Proof

open Machine

/-- A command. -/
inductive Instr where
  /-- CROSSING_ENTRY_ARRIVE (R19). An entry sent over a handshake crossing arrives at the destination island after the crossing
  latency. -/
  | crossingEntryArrive (src dst : Fin 33) (entry : DWord)
  /-- CROSSING_CREDIT_RETURN (R17). A credit returns to a crossing sender and releases a stalled entry. -/
  | crossingCreditReturn (src dst : Fin 33)
  /-- ISLAND_READY_LOSS (R21). An island's ready bit falls while the device runs; ISLAND_LOST is raised and entries toward the
  island stay held. -/
  | islandReadyLoss (b : Fin 32)
  /-- REGISTER_WRITE (R7). A write to a register that has no row of its own stores RW fields and ignores RO fields. -/
  | registerWrite (a : Addr) (v : Word)
  /-- W1C_FIELD_WRITE (R494). A write of 1 to a W1C field clears it unless a hardware set occurs in the same cycle. -/
  | w1cFieldWrite (a : Addr) (v sets : Word)
  /-- RC_FIELD_READ (R495). A read of an RC field returns its value and clears it, keeping events set in the same cycle. -/
  | rcFieldRead (a : Addr) (added : List Nat)
  /-- STORE_PERFORMED (R194). A store is performed at its destination drum or unit. -/
  | storePerformed (t : Tower) (i n : Nat) (ecc : Ecc)
  /-- LOAD_COMPLETE (R172). Load data returns and is written into the thread's destination register. -/
  | loadComplete (t : Tower) (i n : Nat) (ecc : Ecc)
  /-- LOCAL_ARRIVAL (R35). Every member context has arrived, so the device copies open shadow state to staged. -/
  | localArrival
  /-- ARRIVE_TOKEN_RECEIVE (R37). An ARRIVE barrier token from a child is received and checked. -/
  | arriveTokenReceive (p : Packet)
  /-- COMMIT_TOKEN_RECEIVE (R39). A non-root member receives COMMIT for step n, commits and forwards it to its children. -/
  | commitTokenReceive (p : Packet)
  /-- STEP_TIMEOUT (R46). CTL_STEP_TIMEOUT ticks pass at local arrival without a COMMIT, so timeout is set and STEP_TIMEOUT is
  raised. -/
  | stepTimeout
  /-- BANK_STORE_RELEASE (R52). A store held behind an outstanding lantern access is released when that access completes. -/
  | bankStoreRelease (t : Tower) (i n : Nat) (ecc : Ecc)
  /-- QUEUE_TAIL_WRITE (R87). A write to a queue tail register makes descriptors available, or is ignored if the value is not
  below the ring size. -/
  | queueTailWrite (k : QKind) (t : Tower) (c : CtxId) (v : Word)
  /-- QUEUE_CQ_HEAD_WRITE (R122). Software writes a completion ring head to consume records, or the write is ignored if out of
  range. -/
  | queueCqHeadWrite (k : QKind) (t : Tower) (c : CtxId) (v : Word)
  /-- QUEUE_BASE_WRITE (R122). A queue base or size write is stored only while the queue is empty; otherwise cfg_write_ignored
  is set. -/
  | queueBaseWrite (k : QKind) (t : Tower) (c : CtxId) (which : Fin 4) (v : Word)
  /-- TILE_JOB_ISSUE (R127). The sequencer fetches the loop descriptor, resolves bounds, checks, samples settings and begins
  tile jobs. -/
  | tileJobIssue (t : Tower) (c : CtxId)
  /-- SLOT_CLAIM (R98). A waiting tile job claims its accumulator slot once it is FREE or HELD. -/
  | slotClaim (job tile : Nat)
  /-- CHUNK_ISSUE (R465). The matrix array grants its next chunk by lantern window, priority, round-robin and aging. -/
  | chunkIssue (t : Tower) (window : Nat) (aged : Option Nat)
  /-- STAGE_CHUNK_ARRIVE (R132). The A and B chunks of a tile group arrive in the stage area. -/
  | stageChunkArrive (job tgroup : Nat) (ecc : Ecc)
  /-- CHUNK_FOLD (R72). A chunk completes, and its sum is folded into the slot with stochastic rounding. -/
  | chunkFold (t : Tower) (ecc : Ecc)
  /-- SLOT_DRAIN_COMPLETE (R567). The last element leaves a draining slot, and the slot becomes FREE. -/
  | slotDrainComplete (t : Tower) (slot : BitVec 5) (ecc : Ecc)
  /-- TILE_COPY (R112). An omitted tile's rows are copied from their reference rows once those rows are complete. -/
  | tileCopy (job : Nat) (tile : ReadBy)
  /-- SPILL_PARTIAL (R146). A 1 MiB partial is written to its spill slot, and the slot becomes FREE. -/
  | spillPartial (job : Nat) (tile : ReadBy)
  /-- RELOAD_PARTIAL (R146). A spilled partial is reloaded into a claimed slot. -/
  | reloadPartial (job : Nat) (tile : ReadBy)
  /-- DESCRIPTOR_COMPLETE (R88). All tile jobs of a descriptor complete with their stores performed. -/
  | descriptorComplete (job : Nat)
  /-- COMPLETION_RECORD_WRITE (R88). A completion record is written once the completion ring has room. -/
  | completionRecordWrite (k : QKind) (t : Tower) (c : CtxId)
  /-- SLEEVE_ISSUE (R161). A sleeve descriptor is checked and issued. -/
  | sleeveIssue (t : Tower) (c : CtxId)
  /-- SLEEVE_PASS_COMPLETE (R150). A sleeve engine pass completes and its outputs are written. -/
  | sleevePassComplete (t : Tower) (aged : Option Nat) (ecc : Ecc)
  /-- SLEEVE_TAIL_HANDOFF (R164). After its stores are performed, a tail_en sleeve descriptor writes mtx_tail to MTX_Q_TAIL. -/
  | sleeveTailHandoff (job : Nat)
  /-- THREAD_DISPATCH (R464). The tower dispatcher places the next READY thread on the lowest qualifying core. -/
  | threadDispatch (x : Turn Tower)
  /-- THREAD_RESUME (R180). A thread record reaches its seat, wake_value is written and the thread continues. -/
  | threadResume (t : Tower) (i : Nat)
  /-- WAIT_DEADLINE (R227). A WAIT deadline expires, and the thread wakes with wake_value 1. -/
  | waitDeadline (t : Tower) (i : Nat)
  /-- THREAD_INDEX_FREE (R184). An exited thread's index returns to FREE once its stores have been performed. -/
  | threadIndexFree (t : Tower) (i : Nat)
  /-- SADD (R210). Scalar add. -/
  | sadd (t : Tower) (i : Nat) (f : Fields)
  /-- SSUB (R210). Scalar subtract. -/
  | ssub (t : Tower) (i : Nat) (f : Fields)
  /-- SMUL (R210). Scalar multiply, keeping the low 64 bits. -/
  | smul (t : Tower) (i : Nat) (f : Fields)
  /-- SAND (R210). Scalar AND. -/
  | sand (t : Tower) (i : Nat) (f : Fields)
  /-- SOR (R210). Scalar OR. -/
  | sor (t : Tower) (i : Nat) (f : Fields)
  /-- SXOR (R210). Scalar XOR. -/
  | sxor (t : Tower) (i : Nat) (f : Fields)
  /-- SSHL (R210). Scalar left shift. -/
  | sshl (t : Tower) (i : Nat) (f : Fields)
  /-- SSHR (R210). Scalar logical right shift. -/
  | sshr (t : Tower) (i : Nat) (f : Fields)
  /-- SSRA (R210). Scalar arithmetic right shift. -/
  | ssra (t : Tower) (i : Nat) (f : Fields)
  /-- SCMP (R210). Scalar compare by predicate. -/
  | scmp (t : Tower) (i : Nat) (f : Fields)
  /-- SADDI (R210). Scalar add immediate. -/
  | saddi (t : Tower) (i : Nat) (f : Fields)
  /-- SLI (R210). Scalar load immediate. -/
  | sli (t : Tower) (i : Nat) (f : Fields)
  /-- SLIH (R210). Scalar load immediate into the high half. -/
  | slih (t : Tower) (i : Nat) (f : Fields)
  /-- SRD (R211). Read a special value. -/
  | srd (t : Tower) (i : Nat) (f : Fields)
  /-- SWRF (R210). Write the thread flags. -/
  | swrf (t : Tower) (i : Nat) (f : Fields)
  /-- B (R210). Unconditional relative branch. -/
  | branch (t : Tower) (i : Nat) (f : Fields)
  /-- BEQ (R210). Branch if equal. -/
  | beq (t : Tower) (i : Nat) (f : Fields)
  /-- BNE (R210). Branch if not equal. -/
  | bne (t : Tower) (i : Nat) (f : Fields)
  /-- BLT (R210). Branch if less than, signed. -/
  | blt (t : Tower) (i : Nat) (f : Fields)
  /-- BGE (R210). Branch if greater or equal, signed. -/
  | bge (t : Tower) (i : Nat) (f : Fields)
  /-- BLTU (R210). Branch if less than, unsigned. -/
  | bltu (t : Tower) (i : Nat) (f : Fields)
  /-- BGEU (R210). Branch if greater or equal, unsigned. -/
  | bgeu (t : Tower) (i : Nat) (f : Fields)
  /-- JAL (R210). Jump and link. -/
  | jal (t : Tower) (i : Nat) (f : Fields)
  /-- JR (R210). Jump to a register address and link. -/
  | jr (t : Tower) (i : Nat) (f : Fields)
  /-- SETVL (R189). Set vl and vtype. -/
  | setvl (t : Tower) (i : Nat) (f : Fields)
  /-- VFADD (R212). Vector floating-point add. -/
  | vfadd (t : Tower) (i : Nat) (f : Fields)
  /-- VFSUB (R212). Vector floating-point subtract. -/
  | vfsub (t : Tower) (i : Nat) (f : Fields)
  /-- VFMUL (R212). Vector floating-point multiply. -/
  | vfmul (t : Tower) (i : Nat) (f : Fields)
  /-- VFMA (R212). Vector fused multiply-add. -/
  | vfma (t : Tower) (i : Nat) (f : Fields)
  /-- VFNMA (R212). Vector negated fused multiply-add. -/
  | vfnma (t : Tower) (i : Nat) (f : Fields)
  /-- VFMIN (R213). Vector floating-point minimum. -/
  | vfmin (t : Tower) (i : Nat) (f : Fields)
  /-- VFMAX (R213). Vector floating-point maximum. -/
  | vfmax (t : Tower) (i : Nat) (f : Fields)
  /-- VFCMP (R213). Vector floating-point compare into a mask. -/
  | vfcmp (t : Tower) (i : Nat) (f : Fields)
  /-- VFDIV (R213). Vector floating-point divide. -/
  | vfdiv (t : Tower) (i : Nat) (f : Fields)
  /-- VFSQRT (R213). Vector floating-point square root. -/
  | vfsqrt (t : Tower) (i : Nat) (f : Fields)
  /-- VFEXP2 (R213). Vector base-2 exponential. -/
  | vfexp2 (t : Tower) (i : Nat) (f : Fields)
  /-- VFLOG2 (R213). Vector base-2 logarithm. -/
  | vflog2 (t : Tower) (i : Nat) (f : Fields)
  /-- VFREDSUM (R214). Fixed-tree floating-point sum reduction. -/
  | vfredsum (t : Tower) (i : Nat) (f : Fields)
  /-- VFREDMAX (R214). Floating-point maximum reduction. -/
  | vfredmax (t : Tower) (i : Nat) (f : Fields)
  /-- VADD (R215). Vector integer add. -/
  | vadd (t : Tower) (i : Nat) (f : Fields)
  /-- VSUB (R215). Vector integer subtract. -/
  | vsub (t : Tower) (i : Nat) (f : Fields)
  /-- VMUL (R215). Vector integer multiply, low half. -/
  | vmul (t : Tower) (i : Nat) (f : Fields)
  /-- VMULH (R215). Vector integer multiply, high half. -/
  | vmulh (t : Tower) (i : Nat) (f : Fields)
  /-- VMAC (R215). Vector integer multiply-accumulate. -/
  | vmac (t : Tower) (i : Nat) (f : Fields)
  /-- VMIN (R215). Vector integer minimum. -/
  | vmin (t : Tower) (i : Nat) (f : Fields)
  /-- VMAX (R215). Vector integer maximum. -/
  | vmax (t : Tower) (i : Nat) (f : Fields)
  /-- VCMP (R215). Vector integer compare into a mask. -/
  | vcmp (t : Tower) (i : Nat) (f : Fields)
  /-- VIREDSUM (R215). Wrapping integer sum reduction. -/
  | viredsum (t : Tower) (i : Nat) (f : Fields)
  /-- VCVT (R216). Vector format conversion. -/
  | vcvt (t : Tower) (i : Nat) (f : Fields)
  /-- VCVTS (R216). Vector conversion with a power-of-two scale. -/
  | vcvts (t : Tower) (i : Nat) (f : Fields)
  /-- VCVTMX (R217). Conversion to MX elements with derived block scales. -/
  | vcvtmx (t : Tower) (i : Nat) (f : Fields)
  /-- VCVTFMX (R217). Conversion from MX elements using their scale bytes. -/
  | vcvtfmx (t : Tower) (i : Nat) (f : Fields)
  /-- VQADD (R219). Saturating add. -/
  | vqadd (t : Tower) (i : Nat) (f : Fields)
  /-- VQSUB (R219). Saturating subtract. -/
  | vqsub (t : Tower) (i : Nat) (f : Fields)
  /-- VQMUL (R219). Saturating multiply. -/
  | vqmul (t : Tower) (i : Nat) (f : Fields)
  /-- VQMAC (R219). Saturating multiply-accumulate. -/
  | vqmac (t : Tower) (i : Nat) (f : Fields)
  /-- VQMULSHR (R219). Saturating multiply with a rounded right shift. -/
  | vqmulshr (t : Tower) (i : Nat) (f : Fields)
  /-- VQSHL (R219). Saturating left shift. -/
  | vqshl (t : Tower) (i : Nat) (f : Fields)
  /-- VQABS (R219). Saturating absolute value. -/
  | vqabs (t : Tower) (i : Nat) (f : Fields)
  /-- VQNEG (R219). Saturating negate. -/
  | vqneg (t : Tower) (i : Nat) (f : Fields)
  /-- VAND (R220). Vector AND. -/
  | vand (t : Tower) (i : Nat) (f : Fields)
  /-- VOR (R220). Vector OR. -/
  | vor (t : Tower) (i : Nat) (f : Fields)
  /-- VXOR (R220). Vector XOR. -/
  | vxor (t : Tower) (i : Nat) (f : Fields)
  /-- VSHL (R220). Vector left shift. -/
  | vshl (t : Tower) (i : Nat) (f : Fields)
  /-- VSHR (R220). Vector right shift. -/
  | vshr (t : Tower) (i : Nat) (f : Fields)
  /-- VSHLI (R220). Vector left shift by an immediate. -/
  | vshli (t : Tower) (i : Nat) (f : Fields)
  /-- VPERM (R220). Vector permute. -/
  | vperm (t : Tower) (i : Nat) (f : Fields)
  /-- VBCAST (R220). Broadcast a scalar to vector elements. -/
  | vbcast (t : Tower) (i : Nat) (f : Fields)
  /-- VEXT (R220). Extract one element to a scalar. -/
  | vext (t : Tower) (i : Nat) (f : Fields)
  /-- VINS (R220). Insert a scalar into one element. -/
  | vins (t : Tower) (i : Nat) (f : Fields)
  /-- VSLUP (R220). Slide elements up. -/
  | vslup (t : Tower) (i : Nat) (f : Fields)
  /-- VSLDN (R220). Slide elements down. -/
  | vsldn (t : Tower) (i : Nat) (f : Fields)
  /-- VMERGE (R220). Merge two vectors by a mask. -/
  | vmerge (t : Tower) (i : Nat) (f : Fields)
  /-- VFSGN (R220). Floating-point sign operation. -/
  | vfsgn (t : Tower) (i : Nat) (f : Fields)
  /-- VMOV (R220). Vector move. -/
  | vmov (t : Tower) (i : Nat) (f : Fields)
  /-- MAND (R221). Mask AND. -/
  | mand (t : Tower) (i : Nat) (f : Fields)
  /-- MOR (R221). Mask OR. -/
  | mor (t : Tower) (i : Nat) (f : Fields)
  /-- MXOR (R221). Mask XOR. -/
  | mxor (t : Tower) (i : Nat) (f : Fields)
  /-- MANDN (R221). Mask AND NOT. -/
  | mandn (t : Tower) (i : Nat) (f : Fields)
  /-- MNOT (R221). Mask NOT. -/
  | mnot (t : Tower) (i : Nat) (f : Fields)
  /-- MSET (R221). Set a mask to all ones. -/
  | mset (t : Tower) (i : Nat) (f : Fields)
  /-- MCLR (R221). Clear a mask to all zeros. -/
  | mclr (t : Tower) (i : Nat) (f : Fields)
  /-- MPOPC (R221). Mask population count. -/
  | mpopc (t : Tower) (i : Nat) (f : Fields)
  /-- MFIRST (R221). Index of the first set mask bit. -/
  | mfirst (t : Tower) (i : Nat) (f : Fields)
  /-- MFROMS (R221). Write a mask word from a scalar. -/
  | mfroms (t : Tower) (i : Nat) (f : Fields)
  /-- MTOS (R221). Read a mask word into a scalar. -/
  | mtos (t : Tower) (i : Nat) (f : Fields)
  /-- VCOMPRESS (R221). Compress selected elements. -/
  | vcompress (t : Tower) (i : Nat) (f : Fields)
  /-- VEXPAND (R221). Expand elements to selected positions. -/
  | vexpand (t : Tower) (i : Nat) (f : Fields)
  /-- LDS (R223). Scalar load. -/
  | lds (t : Tower) (i : Nat) (f : Fields) (tag : Word)
  /-- VLD (R223). Vector unit-stride load. -/
  | vld (t : Tower) (i : Nat) (f : Fields) (tag : Word)
  /-- VLDS (R223). Vector strided load. -/
  | vlds (t : Tower) (i : Nat) (f : Fields) (tag : Word)
  /-- VGATHER (R224). Vector gather. -/
  | vgather (t : Tower) (i : Nat) (f : Fields) (tag : Word)
  /-- STS (R223). Scalar store. -/
  | sts (t : Tower) (i : Nat) (f : Fields)
  /-- VST (R223). Vector unit-stride store. -/
  | vst (t : Tower) (i : Nat) (f : Fields)
  /-- VSTS (R223). Vector strided store. -/
  | vsts (t : Tower) (i : Nat) (f : Fields)
  /-- VSCATTER (R224). Vector scatter. -/
  | vscatter (t : Tower) (i : Nat) (f : Fields)
  /-- AMOADD (R223). Atomic add. -/
  | amoadd (t : Tower) (i : Nat) (f : Fields)
  /-- AMOMIN (R223). Atomic minimum. -/
  | amomin (t : Tower) (i : Nat) (f : Fields)
  /-- AMOMAX (R223). Atomic maximum. -/
  | amomax (t : Tower) (i : Nat) (f : Fields)
  /-- AMOSWAP (R223). Atomic swap. -/
  | amoswap (t : Tower) (i : Nat) (f : Fields)
  /-- AMOCAS (R223). Atomic compare and swap. -/
  | amocas (t : Tower) (i : Nat) (f : Fields)
  /-- AMOAND (R223). Atomic AND. -/
  | amoand (t : Tower) (i : Nat) (f : Fields)
  /-- AMOOR (R223). Atomic OR. -/
  | amoor (t : Tower) (i : Nat) (f : Fields)
  /-- AMOFADD (R223). Atomic FP32 add. -/
  | amofadd (t : Tower) (i : Nat) (f : Fields)
  /-- VAMOADD (R224). Vector atomic add. -/
  | vamoadd (t : Tower) (i : Nat) (f : Fields)
  /-- WAIT (R181). Install a watch on a word, and park while it equals the value. -/
  | wait (t : Tower) (i : Nat) (f : Fields)
  /-- YIELD (R182). Park and become READY behind the context's READY threads. -/
  | yield (t : Tower) (i : Nat) (f : Fields)
  /-- BARINIT (R185). Set the expected count of a barrier. -/
  | barinit (t : Tower) (i : Nat) (f : Fields)
  /-- BAR (R186). Arrive at a barrier, completing it or parking. -/
  | bar (t : Tower) (i : Nat) (f : Fields)
  /-- BAR_EOS (R187). Park at the end-of-step barrier. -/
  | barEos (t : Tower) (i : Nat) (f : Fields)
  /-- SPAWN (R183). Create threads in the spawner's context and tower. -/
  | spawn (t : Tower) (i : Nat) (f : Fields)
  /-- EXIT (R184). End the thread. -/
  | exit (t : Tower) (i : Nat) (f : Fields)
  /-- FENCE (R195). Stall until earlier accesses are performed. -/
  | fence (t : Tower) (i : Nat) (f : Fields)
  /-- PHASE (R229). Set the thread's phase id and enable. -/
  | phase (t : Tower) (i : Nat) (f : Fields)
  /-- EVENT (R230). Raise the context's software event. -/
  | event (t : Tower) (i : Nat) (f : Fields)
  /-- KVAPP (R263). Append one token to a paged KV sequence. -/
  | kvapp (t : Tower) (i : Nat) (f : Fields)
  /-- NOP (R226). No operation. -/
  | nop (t : Tower) (i : Nat) (f : Fields)
  /-- ATTENTION_JOB_ISSUE (R244). A route 2 tile-job descriptor and its attention descriptor are checked and issued. -/
  | attentionJobIssue (t : Tower) (c : CtxId)
  /-- SCORE_TILE_DRAIN (R250). The attention engine drains a score slot, applying the pattern, bias and softmax statistics. -/
  | scoreTileDrain (job tile : Nat) (ecc : Ecc)
  /-- ATTENTION_FINALISE (R252). After the last key tile, output rows and row statistics are stored. -/
  | attentionFinalise (job : ReadBy)
  /-- ATN_POOL_TAIL_WRITE (R266). Software adds pages to a page pool by advancing its tail. -/
  | atnPoolTailWrite (t : Tower) (c : CtxId) (v : Word)
  /-- ATN_POOL_BASE_WRITE (R272). A pool base write is stored only while the pool is empty and nothing is starved. -/
  | atnPoolBaseWrite (t : Tower) (c : CtxId) (hi : Bool) (v : Word)
  /-- KV_PAGE_TIMEOUT (R267). A starved append waits past ATN_PAGE_TIMEOUT, raises KV_PAGE_TIMEOUT and faults its context. -/
  | kvPageTimeout (t : Tower) (i : Nat)
  /-- DECODE_JOB_ISSUE (R283). A decode descriptor is checked and issued. -/
  | decodeJobIssue (x : CdcSrc)
  /-- ENCODE_JOB_ISSUE (R301). An encode descriptor is checked and issued. -/
  | encodeJobIssue (x : CdcSrc)
  /-- CODEC_ENGINE_GRANT (R276). An issued codec descriptor is granted its engine when the engine becomes free. -/
  | codecEngineGrant (e : CdcEng) (aged : Option Nat)
  /-- RING_RECORD_CONSUME (R284). A decode engine consumes a bitstream record and advances cons. -/
  | ringRecordConsume (e : Fin 8) (found : RecFound) (ecc : Ecc)
  /-- RING_RECORD_TIMEOUT (R284). A decode ring stays empty for timeout ticks, so the wanted frames are missing. -/
  | ringRecordTimeout (e : Fin 8)
  /-- PICTURE_DECODED (R284). A decoded wanted picture is written to the tensor together with its maps and weights. -/
  | pictureDecoded (e : Fin 8) (p : Pic) (blocks : List PicBlock) (hashBad : Bool) (ecc : Ecc)
  /-- DECODE_JOB_COMPLETE (R286). All output frames of a decode job are written, and the job completes. -/
  | decodeJobComplete (e : Fin 8)
  /-- PICTURE_CODED (R305). An encode engine finishes coding a picture and emits its record in clip or gradual refresh class. -/
  | pictureCoded (e : Fin 2) (ecc : Ecc)
  /-- SLICE_CODED (R305). A slice-emission engine finishes a slice and emits it as its own record. -/
  | sliceCoded (e : Fin 2) (ecc : Ecc)
  /-- ENCODE_OUTPUT_ROOM (R277). A stalled encode engine resumes when its output ring gains room. -/
  | encodeOutputRoom (e : Fin 2)
  /-- ENCODE_JOB_COMPLETE (R309). All frames of an encode job are coded, and its completion record is produced. -/
  | encodeJobComplete (e : Fin 2)
  /-- MAINT_MODE_CHANGE (R307). Maintenance mode is entered or left once every codec queue is empty. -/
  | maintModeChange
  /-- HBM_REFRESH (R313). An all-bank refresh of a pseudo-channel is due at its temperature-set interval. -/
  | hbmRefresh (k : Fin 24) (pc : Fin 64)
  /-- SCRUB_READ (R320). The patrol scrub reads a word and writes back corrections. -/
  | scrubRead (a : StackPlace) (row : Addr) (ecc : Ecc) (last : Bool)
  /-- CAL_WINDOW_OPEN (R322). Every cal_interval a controller holds a pseudo-channel and starts its calibration window. -/
  | calWindowOpen (k : Fin 24)
  /-- CAL_WINDOW_CLOSE (R322). The sweeps end, settings are applied or kept, and held requests are released. -/
  | calWindowClose (k : Fin 24) (rd wr : Nat)
  /-- CAL_WINDOW_ABORT (R323). A window reaches the 3,200 hclk limit, so settings are restored and the abort is counted. -/
  | calWindowAbort (k : Fin 24)
  /-- MOVER_ISSUE (R337). A mover descriptor is checked and issued. -/
  | moverIssue (t : Tower) (c : CtxId)
  /-- MOVER_PART_START (R338). A free mover starts the next unstarted part of a transfer. -/
  | moverPartStart (job : Turn Nat)
  /-- MOVER_PART_COMPLETE (R338). A mover part finishes copying its rows. -/
  | moverPartComplete (job part : Nat) (ecc : Ecc)
  /-- MOVER_PART_FAIL (R338). A part fails, so parts not yet started are abandoned. -/
  | moverPartFail (job part addr : Nat)
  /-- MOVER_TRANSFER_COMPLETE (R339). All parts end, and the transfer completes with OK or TRANSFER_PARTIAL. -/
  | moverTransferComplete (job : Nat)
  /-- SNAP_CLOSE_SEND (R343). After every store of an entry is performed, the sender sends its close. -/
  | snapCloseSend (e : Fin 64)
  /-- SNAPSHOT_HELD_STORE_RELEASE (R345). A store held on a snapshotted page is released after the snapshot reads the page. -/
  | snapshotHeldStoreRelease (t : Tower) (i n : Nat) (ecc : Ecc)
  /-- CONTRIBUTE_ISSUE (R359). A contribute descriptor is checked and issued. -/
  | contributeIssue (t : Tower) (c : CtxId)
  /-- BUCKET_OPEN (R361). A contribution waiting for one of the 64 locally open buckets proceeds when a bucket frees. -/
  | bucketOpen
  /-- CONTRIBUTION_ACCEPT (R356). The home slice converts a contribution to integer and adds it to its segment. -/
  | contributionAccept (src : RedSource) (ecc : Ecc)
  /-- PARTIAL_RECEIVE (R367). A received partial is added into the work area. -/
  | partialReceive (p : Packet) (ecc : Ecc)
  /-- SUMMARY_RECEIVE (R370). A shard summary is received and forwarded. -/
  | summaryReceive (p : Packet)
  /-- BUCKET_COMPLETE (R372). A bucket completes, and its completion record is written. -/
  | bucketComplete (g : Byte) (e b : Half) (differs : Option Nat)
  /-- ABORT_NOTICE_RECEIVE (R380). A reduction abort notice is received and forwarded once. -/
  | abortNoticeReceive (p : Packet)
  /-- RED_GRP_BASE_WRITE (R383). A group table base write is stored, or ignored while any group entry is valid. -/
  | redGrpBaseWrite (hi : Bool) (v : Word)
  /-- LINK_TRAINING_COMPLETE (R389). Initial training of a port direction ends with a chosen width, or fails. -/
  | linkTrainingComplete (p : PortCode) (tx : Bool) (margins : List Nat)
  /-- LINK_TRAINING_RETRY (R388). A new training attempt starts 10 ms after a failure. -/
  | linkTrainingRetry (p : PortCode)
  /-- GUSSET_ROTATION_START (R390). At the rotation interval, lane p starts being copied onto the gusset lane. -/
  | gussetRotationStart (p : PortCode) (tx : Bool)
  /-- ROT_READY (R390). The receiver reports that the gusset lane matches; the transmitter sends ROT_SWITCH. -/
  | rotReady (p : PortCode) (lane now : Nat)
  /-- ROT_SWITCH (R390). The switch codeword is named to the receiver. -/
  | rotSwitch (p : PortCode) (lane codeword : Nat)
  /-- SWITCH_CODEWORD_REACHED (R390). At the named codeword the gusset lane takes p's logical lane, and p starts training. -/
  | switchCodewordReached (p : PortCode) (tx : Bool)
  /-- LANE_RETRAIN_COMPLETE (R390). Lane p ends its 10 µs retraining, and ROT_DONE is sent. -/
  | laneRetrainComplete (p : PortCode) (margin : Nat)
  /-- ROT_DONE (R390). A margin report makes p the spare, or marks it failed. -/
  | rotDone (p : PortCode) (lane margin : Nat)
  /-- LANE_FAULT (R392). A lane loses lock or exceeds its correction limit, so LANE_DOWN is sent. -/
  | laneFault (p : PortCode) (lane : Nat)
  /-- LANE_DOWN (R392). The transmitter moves the faulted lane onto the gusset lane, or the direction drops to half width. -/
  | laneDown (p : PortCode) (lane now : Nat)
  /-- HALF_WIDTH (R394). Both ends re-stripe over half the lanes at an agreed codeword. -/
  | halfWidth (p : PortCode) (keep : HalfLanes)
  /-- QUARANTINE (R409). A received QUARANTINE quarantines the own port with cause PARTNER. -/
  | quarantine (p : PortCode)
  /-- IDENT (R416). A partner's IDENT is recorded, coordinates are checked, and the port may become UP. -/
  | ident (p : PortCode) (serial : DWord) (index code : Nat) (addr : Half) (valid : Bool)
  /-- FLIT_RECEIVE (R398). A flit is checked for CRC, sequence, acks, credits and violations and is accepted or discarded. -/
  | flitReceive (p : PortCode) (ws : List Word)
  /-- REPLAY_REQUEST (R398). The sender replays flits from the requested seq. -/
  | replayRequest (p : PortCode) (seq : Nat)
  /-- WRITE_PACKET_RECEIVE (R404). A WRITE is performed at its destination and a WRITE_ACK is returned. -/
  | writePacketReceive (p : WriteIn)
  /-- READ_PACKET_RECEIVE (R404). A READ is served and READ_DATA is returned. -/
  | readPacketReceive (p : Packet) (ecc : Ecc)
  /-- READ_DATA (R404). Read data is received by the requesting source. -/
  | readData (p : Packet)
  /-- WRITE_ACK (R404). A write acknowledgment is received by its source. -/
  | writeAck (p : Packet)
  /-- NACK (R406). A NACK fails a mover part, faults a context, or aborts a group. -/
  | nack (p : Packet)
  /-- SNAP_CLOSE (R344). A received close sets the mirror entry valid and writes its step. -/
  | snapClose (p : Packet)
  /-- MGMT (R404). A message between Lumdom instances is received. -/
  | mgmt (p : Packet) (m : Mgmt)
  /-- REQUEST_TIMEOUT (R405). A request without a response within PLYN_REQ_TIMEOUT completes as PATH_LOST. -/
  | requestTimeout (tag : Half)
  /-- SEAM_FRAME_SEND (R413). A module holding an index sends a seam frame every 1,024 bit times. -/
  | seamFrameSend
  /-- SEAM_FRAME_RECEIVE (R413). A seam frame is checked and may give an index. -/
  | seamFrameReceive (w0 w1 : Word)
  /-- SEAM_HEAD_DETECT (R414). SEAM_IN stays high for 64 bit times, so the module takes index 0. -/
  | seamHeadDetect
  /-- SEAM_LOST (R415). Four frame periods pass without a valid frame, so lost is set. -/
  | seamLost
  /-- ETHERNET_FRAME_RECEIVE (R422). A host frame is checked and handled, answered (ARP, ICMP) or discarded. -/
  | ethernetFrameReceive (f : Frame) (pfc : Option (Fin 8 × Bool))
  /-- PFC_PAUSE_RECEIVE (R430). A received pause stops or resumes sending on a priority. -/
  | pfcPauseReceive (p : Fin 8) (pause : Bool)
  /-- HOST_LINK_UP (R424). The host link aligns and locks. -/
  | hostLinkUp
  /-- RDMA_WRITE_RECEIVE (R428). A host RDMA WRITE is served through a device window in PSN order. -/
  | rdmaWriteReceive (q : RoceDest) (psn : BitVec 24) (va : DWord) (rkey : Word) (data : List Byte) (ce : Bool)
  /-- RDMA_READ_RECEIVE (R427). A host RDMA READ is served through a device window, or NAKed. -/
  | rdmaReadReceive (q : RoceDest) (psn : BitVec 24) (va : DWord) (rkey len : Word) (ce : Bool) (ecc : Ecc)
  /-- ROCE_ACK_RECEIVE (R425). An ACK or NAK from the host advances or errors a queue pair. -/
  | roceAckReceive (h : RoceHdr) (psn : BitVec 24) (nak : Option (Fin 4))
  /-- ROCE_RETRY_TIMEOUT (R425). An ack time-out causes a retransmission or exhausts the retries. -/
  | roceRetryTimeout (q : Fin 4096)
  /-- CNP_RECEIVE (R429). A received congestion notification halves the queue pair's send rate. -/
  | cnpReceive (h : RoceHdr)
  /-- RATE_RECOVERY (R429). After 55 µs without a notification, the rate rises by 1/16. -/
  | rateRecovery (q : Fin 4096)
  /-- DOORBELL (R435). A doorbell sets a mailbox tail unless it is stale. -/
  | doorbell (d : Datagram)
  /-- INLINE_CMD (R436). An inline command is executed once, or its reply is resent. -/
  | inlineCmd (d : Datagram)
  /-- EVENT_ACK (R437). Acknowledged event records are freed and their sources completed. -/
  | eventAck (d : Datagram)
  /-- ECHO_REQ (R432). An echo request is answered with ECHO_REPLY. -/
  | echoReq (d : Datagram)
  /-- EVENT_DATAGRAM_SEND (R437). Unsent event records are sent to the endpoint in EVENT datagrams. -/
  | eventDatagramSend
  /-- EVENT_RETRY (R437). Records unacknowledged for HOST_EVT_RETRY ticks are sent again. -/
  | eventRetry
  /-- MAILBOX_COMMAND_TAKE (R445). A free control core takes the next accepted command of a mailbox in round-robin. -/
  | mailboxCommandTake (ecc : Ecc)
  /-- MAILBOX_COMMAND_RESUME (R450). A waiting command's condition is met, and it is taken again. -/
  | mailboxCommandResume
  /-- MAILBOX_COMMAND_TIMEOUT (R450). A waiting command passes its deadline and ends with TIMED_OUT. -/
  | mailboxCommandTimeout
  /-- MBOX_OPEN (R439). Open a mailbox with its ring. -/
  | mboxOpen (h : CmdHdr) (mbox flags : Byte) (slots : Half) (base : DWord)
  /-- MBOX_CLOSE (R452). Close a mailbox and discard commands not yet taken. -/
  | mboxClose (h : CmdHdr) (mbox : Byte)
  /-- DEV_INFO (R453). Return the device identity and status. -/
  | devInfo (h : CmdHdr)
  /-- DEV_RESET (R526). Reply, then reset the device with cause 2. -/
  | devReset (h : CmdHdr) (kind : Byte)
  /-- REG_READ (R453). Read registers, clearing RC fields. -/
  | regRead (h : CmdHdr) (count : Half) (addr : DWord)
  /-- EVENT_MASK (R504). Write host_mask of a range of sources. -/
  | eventMask (h : CmdHdr) (first count : Half) (masked : Byte)
  /-- TELEMETRY_READ (R531). Return the last telemetry sample. -/
  | telemetryRead (h : CmdHdr)
  /-- SSC_SET (R520). Write the open spread-spectrum setting. -/
  | sscSet (h : CmdHdr) (depth rate : Byte)
  /-- CTX_CREATE (R570). Create a context with slots, thread range and defaults. -/
  | ctxCreate (h : CmdHdr) (ctx slotb slots : Byte) (thrBase thrCount : Half)
  /-- CTX_DESTROY (R473). Tear down a context and return it to NONE. -/
  | ctxDestroy (h : CmdHdr) (ctx : Byte)
  /-- CTX_QUEUE_SET (R453). Configure one queue of a context and zero its pointers. -/
  | ctxQueueSet (h : CmdHdr) (ctx kind tower : Byte) (ringSize cqSize : Half) (ring cq : DWord)
  /-- CTX_SPAWN (R183). Spawn threads in a context and tower. -/
  | ctxSpawn (h : CmdHdr) (ctx tower : Byte) (count : Word) (pc arg : DWord)
  /-- CTX_SCHED_SET (R463). Write the open priority, reservation and allowed cores of a context. -/
  | ctxSchedSet (h : CmdHdr) (ctx prio reserved : Byte) (allowed : List DWord)
  /-- LANTERN_SET (R461). Write the open lantern cores, windows and region. -/
  | lanternSet (h : CmdHdr) (cores windows : Byte) (base size : DWord)
  /-- CTX_FAULT_READ (R476). Return a context fault record. -/
  | ctxFaultRead (h : CmdHdr) (ctx : Byte)
  /-- KV_TIMEOUT_SET (R267). Set ATN_PAGE_TIMEOUT of a context in the chosen towers. -/
  | kvTimeoutSet (h : CmdHdr) (ctx mask : Byte) (ticks : Word)
  /-- STEP_GROUP_CREATE (R460). Create the step group, write the seed, and copy the open shadow state to staged and active. -/
  | stepGroupCreate (h : CmdHdr) (tag n : Byte) (members flags parent epoch : Half) (firstStep : Word) (seed : DWord) (children : List Half)
  /-- STEP_GROUP_DISSOLVE (R475). Dissolve the step group, aborting it first if needed, and release BAR.EOS threads. -/
  | stepGroupDissolve (h : CmdHdr)
  /-- EPOCH_SET (R53). Write the open layout epoch. -/
  | epochSet (h : CmdHdr) (epoch : Half)
  /-- BANK_TABLE_SET (R50). Write open bank pair entries. -/
  | bankTableSet (h : CmdHdr) (first count : Byte) (entries : List Word)
  /-- STEP_TIMEOUT_SET (R46). Write CTL_STEP_TIMEOUT. -/
  | stepTimeoutSet (h : CmdHdr) (ticks : Word)
  /-- PHASE_TABLE_READ (R55). Return phase table entries. -/
  | phaseTableRead (h : CmdHdr) (back count : Byte)
  /-- BIAS_LOAD (R249). Load a bias table into the chosen towers. -/
  | biasLoad (h : CmdHdr) (table mask : Byte) (count : Half) (src : DWord)
  /-- CODEC_MAINT_ON (R307). Request entry into codec maintenance mode. -/
  | codecMaintOn (h : CmdHdr)
  /-- CODEC_MAINT_OFF (R307). Request exit from codec maintenance mode. -/
  | codecMaintOff (h : CmdHdr)
  /-- MEM_LOCAL_SET (R317). Set the tower-local HBM size L in every drum. -/
  | memLocalSet (h : CmdHdr) (gib : Byte)
  /-- MEM_CAL_SET (R322). Set the calibration interval, margin and scrub period. -/
  | memCalSet (h : CmdHdr) (interval : Half) (margin hours : Byte)
  /-- MEM_STATS_SET (R335). Set a mantle statistics entry. -/
  | memStatsSet (h : CmdHdr) (entry enable : Byte) (base limit : DWord)
  /-- MEM_STATS_READ (R335). Return a statistics entry summed over the drums, optionally clearing it. -/
  | memStatsRead (h : CmdHdr) (entry clear : Byte)
  /-- MIRROR_TABLE_SET (R342). Write mirror table entries. -/
  | mirrorTableSet (h : CmdHdr) (first count : Byte) (entries : List Word)
  /-- SNAPSHOT_LIST_SET (R343). Write the snapshot list. -/
  | snapshotListSet (h : CmdHdr) (count : Byte) (words : List Word)
  /-- SNAPSHOT_SCHEDULE_SET (R480). Write the open snapshot schedule. -/
  | snapshotScheduleSet (h : CmdHdr) (mode : Byte) (interval : Half) (cost : Word)
  /-- REPAIR_LIST_GET (R320). Return repair list rows. -/
  | repairListGet (h : CmdHdr) (first count : Half)
  /-- REPAIR_LIST_PUT (R524). Supply the repair list before HBM training. -/
  | repairListPut (h : CmdHdr) (count : Half) (rows : List DWord)
  /-- RED_GROUP_SET (R351). Write a reduction group entry for an epoch. -/
  | redGroupSet (h : CmdHdr) (group : Byte) (epoch : Half) (entry : List Word)
  /-- RED_BUCKETS_SET (R353). Write bucket table entries. -/
  | redBucketsSet (h : CmdHdr) (group : Byte) (epoch : Half) (first count : Word) (src : DWord)
  /-- RED_SCALE_SET (R354). Write a bucket's open scale. -/
  | redScaleSet (h : CmdHdr) (group : Byte) (epoch bucket sOpen : Half)
  /-- RED_GROUP_READ (R350). Return a group entry. -/
  | redGroupRead (h : CmdHdr) (group : Byte) (epoch : Half)
  /-- FAB_PORTS_READ (R453). Return the state and partner identity of every port. -/
  | fabPortsRead (h : CmdHdr)
  /-- FAB_ADDR_SET (R416). Set the axis sizes, address, datelines and port enables. -/
  | fabAddrSet (h : CmdHdr) (tSize sSize dSize dateline enable : Byte) (addr : Half)
  /-- FAB_ROUTE_SET (R419). Write routing table entries. -/
  | fabRouteSet (h : CmdHdr) (axis first : Byte) (count : Half) (entries : List Byte)
  /-- FAB_PORT_RETRAIN (R412). Retrain a port from TRAINING. -/
  | fabPortRetrain (h : CmdHdr) (port : Byte)
  /-- FAB_PORT_QUARANTINE (R409). Quarantine a port with cause COMMAND. -/
  | fabPortQuarantine (h : CmdHdr) (port : Byte)
  /-- FAB_ROT_EN_SET (R390). Enable gusset rotation on a port. -/
  | fabRotEnSet (h : CmdHdr) (port : Byte)
  /-- FAB_ROT_EN_CLEAR (R390). Disable gusset rotation on a port. -/
  | fabRotEnClear (h : CmdHdr) (port : Byte)
  /-- FAB_CFG_SET (R453). Set the rotation interval, request time-out, violation limits and margin. -/
  | fabCfgSet (h : CmdHdr) (rotInterval reqTimeout : Word) (violWindow : Half) (violLimit minMargin : Byte)
  /-- HOST_ADDR_SET (R424). Set or clear the IPv4 or global IPv6 address. -/
  | hostAddrSet (h : CmdHdr) (which clear : Byte) (addr : List Byte)
  /-- HOST_PORT_SET (R453). Set the Belpel port, VLAN and priorities. -/
  | hostPortSet (h : CmdHdr) (udp vlan : Half) (roce belpel pfc : Byte)
  /-- HOST_NEIGH_SET (R422). Write neighbour table entries. -/
  | hostNeighSet (h : CmdHdr) (first count : Byte) (entries : List Byte)
  /-- QP_SET (R425). Configure a queue pair and move it to RTS. -/
  | qpSet (h : CmdHdr) (qp : Half) (mtu tclass ackTimeout retry : Byte) (remoteQpn sqPsn rqPsn rkey : Word) (ip : List Byte) (va len : DWord)
  /-- QP_RESET (R426). Reset a queue pair, failing mover parts that use it. -/
  | qpReset (h : CmdHdr) (qp : Half)
  /-- QP_QUERY (R568). Return a queue pair's state, cause and PSNs. -/
  | qpQuery (h : CmdHdr) (qp : Half)
  /-- WINDOW_SET (R427). Set a device window. -/
  | windowSet (h : CmdHdr) (win perms : Byte) (rkey : Word) (base : DWord) (size : Word)
  /-- ALLOW_SET (R433). Set the Belpel allow list. -/
  | allowSet (h : CmdHdr) (count : Byte) (entries : List Byte)
  /-- EVENT_ENDPOINT_SET (R437). Set the event endpoint. -/
  | eventEndpointSet (h : CmdHdr) (port : Half) (ip : List Byte)
  /-- FW_STAGE (R541). Verify an image and write it to the other slot. -/
  | fwStage (h : CmdHdr) (len : Word) (src : DWord)
  /-- FW_ACTIVATE (R542). Write the boot record for the staged slot and reset with cause 3. -/
  | fwActivate (h : CmdHdr)
  /-- ATTEST (R546). Produce a signed attestation report. -/
  | attest (h : CmdHdr) (nonce : List Byte) (cap : Word) (dst : DWord)
  /-- IDENTITY_READ (R544). Write the identity certificate chain. -/
  | identityRead (h : CmdHdr) (cap : Word) (dst : DWord)
  /-- FAILURE_REPORT (R483). Store fleet failure figures and recompute the snapshot interval at the root. -/
  | failureReport (h : CmdHdr) (failures hours : Word)
  /-- MIRROR_REFILL (R490). Start refilling a mirror entry from a neighbour. -/
  | mirrorRefill (h : CmdHdr) (entry : Byte) (src : Half)
  /-- REFILL_COMPLETE (R492). A refill closes, fails or is superseded, and MEM_REFILL_DONE is raised. -/
  | refillComplete
  /-- CONTEXT_FAULT (R471). A context faults, teardown starts, and the step group aborts for a member. -/
  | contextFault (c : CtxId) (f : FaultInfo)
  /-- TEARDOWN_COMPLETE (R473). Teardown ends, the fault record is written and CTX_FAULT is raised. -/
  | teardownComplete (c : CtxId)
  /-- NO_GROUP_PERIOD_TICK (R468). While no step group exists, each second counts as a boundary for promotion and interference
  latching. -/
  | noGroupPeriodTick
  /-- IRQ_CLAIM (R500). A read of IRQ_CLAIM delivers the lowest deliverable source of a core. -/
  | irqClaim (k : Fin 4)
  /-- IRQ_COMPLETE (R501). A write of IRQ_COMPLETE completes a source, or is counted as spurious. -/
  | irqComplete (k : Fin 4) (n : Fin 1024)
  /-- HOST_EVENT_RECORD_APPEND (R500). A pending host-targeted source is appended to the event queue when there is room. -/
  | hostEventRecordAppend (n : Fin 1024)
  /-- FORWARDED_RECORD_APPEND (R503). Lumdom forwards a handled source as a host record. -/
  | forwardedRecordAppend (n : Fin 1024)
  /-- IRQ_SRC_CFG_WRITE (R504). A source mask or configuration write takes effect, with at most one further delivery. -/
  | irqSrcCfgWrite (n : Fin 1024) (v : Word) (begun : Bool)
  /-- IRQ_LOCK_WRITE (R499). Setting lock fixes the source targets, sense, merge and forwarding. -/
  | irqLockWrite (v : Word)
  /-- CRYSTAL_LOST (R513). The selected crystal counts too low, so every loop coasts and CLK_SRC_LOST is raised. -/
  | crystalLost (x : Bool)
  /-- LOOP_LOCK_LOST (R513). A loop loses lock and coasts at its lowest frequency. -/
  | loopLockLost (i : Fin 27)
  /-- CLK_SEL_WRITE (R516). Select a crystal, or refuse an unstable one. -/
  | clkSelWrite (v : Word)
  /-- LOOP_RELOCK (R516). A coasting loop ramps and relocks, and normal refresh and modulation resume. -/
  | loopRelock (i : Fin 27)
  /-- CRYSTAL_STABLE (R517). A crystal is judged stable again after both were lost. -/
  | crystalStable (x opens : Bool)
  /-- POWER_GOOD_RISE (R521). The input stays at 42 V or more for 10 ms, and power-up begins. -/
  | powerGoodRise (b : BootInfo)
  /-- HBM_TRAINING_START (R524). HBM training begins after REPAIR_LIST_PUT or 1 s after mailbox 0 opens. -/
  | hbmTrainingStart
  /-- INPUT_UNDERVOLTAGE (R521). The input stays below 38 V for 10 µs, so power-good falls and the regulators turn off. -/
  | inputUndervoltage
  /-- INPUT_OVERVOLTAGE (R521). The input stays above 62 V, so the regulators turn off. -/
  | inputOvervoltage
  /-- INPUT_OVERVOLTAGE_CLEAR (R521). After 10 ms at or below 60 V the regulators may turn on again. -/
  | inputOvervoltageClear
  /-- RST_N_ASSERT (R550). RST_N held low for 10 µs starts a reset with cause 1. -/
  | rstNAssert
  /-- RST_N_RELEASE (R550). RST_N high for 10 µs lets the reset continue. -/
  | rstNRelease (b : BootInfo)
  /-- RESET_HOLD_EXPIRE (R526). After 500 µs the belfry enters reset and power-up resumes at crystal judgement. -/
  | resetHoldExpire (b : BootInfo)
  /-- THROTTLE_RISE (R529). A tower sensor reaches throttle_c, so the tower rises one level. -/
  | throttleRise (t : Tower) (temp : Int)
  /-- THROTTLE_STEP_TIMER (R529). Each further 100 µs at or above throttle_c raises the level again. -/
  | throttleStepTimer (t : Tower) (temp : Int)
  /-- THROTTLE_FALL (R529). After 1 ms below the hysteresis threshold the tower falls one level. -/
  | throttleFall (t : Tower) (temp : Int)
  /-- THERMAL_TRIP (R530). A sensor at trip_c for 100 µs resets the device with cause 4. -/
  | thermalTrip (temp : Int)
  /-- TRIP_RECOVERY (R530). Every sensor is below trip_c − 10 °C, and power-up continues. -/
  | tripRecovery (temp : Int) (b : BootInfo)
  /-- TELEMETRY_SAMPLE (R531). A telemetry sample is taken every 10,000 refclk ticks. -/
  | telemetrySample (sensors : List Word)
  /-- BOOT_WATCHDOG (R539). Mailbox 0 has not opened 1 s after Lumdom starts, so the device resets with cause 5. -/
  | bootWatchdog
  /-- FLASH_OWN_N_FALL (R553). An external programmer requests the flash bus. -/
  | flashOwnNFall
  /-- FLASH_BUS_RELEASE (R553). After the flash operation in progress completes, the belfry releases the bus. -/
  | flashBusRelease
  /-- FLASH_OWN_N_RISE (R553). The flash bus returns, and a waiting boot ROM continues. -/
  | flashOwnNRise (writes : List (Nat × Byte)) (b : BootInfo)
  /-- EXTEST (R557). Boundary-scan EXTEST takes the pins and enters test mode. -/
  | extest (cells : BitVec 257)
  /-- IDCODE (R555). Select the IDCODE register. -/
  | idcode
  /-- SAMPLE_PRELOAD (R555). Sample or preload the boundary register. -/
  | samplePreload (pins cells : BitVec 257)
  /-- CLAMP (R557). Hold the pins from the boundary register with bypass selected. -/
  | clamp
  /-- HIGHZ (R557). Put the outputs at high impedance. -/
  | highz
  /-- EXTEST_PULSE (R557). IEEE 1149.6 pulse test of the AC-coupled pairs. -/
  | extestPulse (cells : BitVec 257)
  /-- EXTEST_TRAIN (R557). IEEE 1149.6 train test of the AC-coupled pairs. -/
  | extestTrain (cells : BitVec 257)
  /-- BOOT_STAT (R555). Read SEC_BOOT_STAT through the TAP. -/
  | bootStat
  /-- BYPASS (R555). Select the bypass register. -/
  | bypass (code : Byte)
  /-- HBM_TRAINING_COMPLETE (R313). Stack training and repair of an HBM controller group end: hbm_group_ready rises, or a stack
  that failed a required item is reported failed. -/
  | hbmTrainingComplete (g : Tower) (failed : List Nat)
  /-- RDMA_READ_RESPONSE_RECEIVE (R425). A RoCEv2 RDMA READ response from the host arrives for a device-issued read, and its
  data is written to the mover destination. -/
  | rdmaReadResponseReceive (h : RoceHdr) (psn : BitVec 24) (data : List Byte)
  /-- LINK_LOST (R422). The host link loses PCS alignment or FEC lock from the line side, so link_up falls and link_lost is set
  in HOST_ERR. -/
  | linkLost
  /-- VIOLATION_WINDOW_END (R408). A viol_window period of a fabric port ends, and the in_window violation count starts again.
  -/
  | violationWindowEnd (p : PortCode)
  /-- REFRESH_MANAGEMENT_REQUEST (R313). An HBM stack requests refresh management, and its controller issues refresh management
  commands. -/
  | refreshManagementRequest (k : Fin 24) (pc : Fin 64)
  /-- TEST_LOGIC_RESET (R555). The test access port is reset, by TRST_N low or by the TMS sequence into Test-Logic-Reset, and
  holds IDCODE while test mode persists. -/
  | testLogicReset
deriving DecidableEq, Repr

end Sys2Proof
end

