-- ==== Sys2Proof/Decode.lean ====
section
/-! DEFINITION. The command a word of the opcode table spells, and the command a vector-core instruction word spells (R203 to
R206). -/

namespace Sys2Proof

open Machine

/-! ### Vector-core instruction words (R203 to R206) -/

/-- The instruction groups (R206). -/
inductive OpGroup where
  | scalar | branch | floating | integer | conversion | saturating | logic | mask | load | store | control
deriving DecidableEq, Repr

/-- The slots that execute them (R172, R206). -/
inductive Slot where
  | a | b | c | d | e | f | g | h
deriving DecidableEq, Repr

/-- The group of an opcode, by its bits [7:4]; 0xB to 0xF are reserved (R206). -/
def opGroup (op : Nat) : Option OpGroup :=
  match op / 16 with
  | 0x0 => some .scalar | 0x1 => some .branch | 0x2 => some .floating | 0x3 => some .integer | 0x4 => some .conversion
  | 0x5 => some .saturating | 0x6 => some .logic | 0x7 => some .mask | 0x8 => some .load | 0x9 => some .store
  | 0xA => some .control | _ => none

/-- The slot that executes a group (R206). -/
def OpGroup.slot (g : OpGroup) : Slot :=
  match g with
  | .scalar => .g | .branch => .g | .floating => .a | .integer => .a | .conversion => .b | .saturating => .b
  | .logic => .c | .mask => .d | .load => .e | .store => .f | .control => .h

/-- The opcode of an instruction word (R203). -/
def opOf (w : DWord) : Nat := (w.extractLsb' 0 8).toNat

/-- The fields of an instruction word: bits [31:8] of its low word, and its upper word (R203, R204). -/
def fieldsOf (w : DWord) : Fields :=
  { d := w.extractLsb' 8 5, a := w.extractLsb' 13 5, b := w.extractLsb' 18 5, c := w.extractLsb' 23 5,
    mask := w.extractLsb' 28 3, mu := w.getLsbD 31, up := w.extractLsb' 32 32 }

/-- Scalar arithmetic, slot G (R210). -/
def scalarRow (n : Nat) (t : Tower) (i : Nat) (f : Fields) : Option Instr :=
  match n with
  | 0x00 => some (.sadd t i f)
  | 0x01 => some (.ssub t i f)
  | 0x02 => some (.smul t i f)
  | 0x03 => some (.sand t i f)
  | 0x04 => some (.sor t i f)
  | 0x05 => some (.sxor t i f)
  | 0x06 => some (.sshl t i f)
  | 0x07 => some (.sshr t i f)
  | 0x08 => some (.ssra t i f)
  | 0x09 => some (.scmp t i f)
  | 0x0A => some (.saddi t i f)
  | 0x0B => some (.sli t i f)
  | 0x0C => some (.slih t i f)
  | 0x0D => some (.srd t i f)
  | 0x0E => some (.swrf t i f)
  | _ => none

/-- Branch and set-length, slot G (R210). -/
def branchRow (n : Nat) (t : Tower) (i : Nat) (f : Fields) : Option Instr :=
  match n with
  | 0x10 => some (.branch t i f)
  | 0x11 => some (.beq t i f)
  | 0x12 => some (.bne t i f)
  | 0x13 => some (.blt t i f)
  | 0x14 => some (.bge t i f)
  | 0x15 => some (.bltu t i f)
  | 0x16 => some (.bgeu t i f)
  | 0x17 => some (.jal t i f)
  | 0x18 => some (.jr t i f)
  | 0x19 => some (.setvl t i f)
  | _ => none

/-- Floating-point arithmetic, slot A (R212). -/
def fpRow (n : Nat) (t : Tower) (i : Nat) (f : Fields) : Option Instr :=
  match n with
  | 0x20 => some (.vfadd t i f)
  | 0x21 => some (.vfsub t i f)
  | 0x22 => some (.vfmul t i f)
  | 0x23 => some (.vfma t i f)
  | 0x24 => some (.vfnma t i f)
  | 0x25 => some (.vfmin t i f)
  | 0x26 => some (.vfmax t i f)
  | 0x27 => some (.vfcmp t i f)
  | 0x28 => some (.vfdiv t i f)
  | 0x29 => some (.vfsqrt t i f)
  | 0x2A => some (.vfexp2 t i f)
  | 0x2B => some (.vflog2 t i f)
  | 0x2C => some (.vfredsum t i f)
  | 0x2D => some (.vfredmax t i f)
  | _ => none

/-- Integer arithmetic, slot A (R215). -/
def intRow (n : Nat) (t : Tower) (i : Nat) (f : Fields) : Option Instr :=
  match n with
  | 0x30 => some (.vadd t i f)
  | 0x31 => some (.vsub t i f)
  | 0x32 => some (.vmul t i f)
  | 0x33 => some (.vmulh t i f)
  | 0x34 => some (.vmac t i f)
  | 0x35 => some (.vmin t i f)
  | 0x36 => some (.vmax t i f)
  | 0x37 => some (.vcmp t i f)
  | 0x38 => some (.viredsum t i f)
  | _ => none

/-- Conversion, slot B (R216). -/
def convertRow (n : Nat) (t : Tower) (i : Nat) (f : Fields) : Option Instr :=
  match n with
  | 0x40 => some (.vcvt t i f)
  | 0x41 => some (.vcvts t i f)
  | 0x42 => some (.vcvtmx t i f)
  | 0x43 => some (.vcvtfmx t i f)
  | _ => none

/-- Saturating integer, slot B (R219). -/
def saturateRow (n : Nat) (t : Tower) (i : Nat) (f : Fields) : Option Instr :=
  match n with
  | 0x50 => some (.vqadd t i f)
  | 0x51 => some (.vqsub t i f)
  | 0x52 => some (.vqmul t i f)
  | 0x53 => some (.vqmac t i f)
  | 0x54 => some (.vqmulshr t i f)
  | 0x55 => some (.vqshl t i f)
  | 0x56 => some (.vqabs t i f)
  | 0x57 => some (.vqneg t i f)
  | _ => none

/-- Logic, shift and permute, slot C (R220). -/
def logicRow (n : Nat) (t : Tower) (i : Nat) (f : Fields) : Option Instr :=
  match n with
  | 0x60 => some (.vand t i f)
  | 0x61 => some (.vor t i f)
  | 0x62 => some (.vxor t i f)
  | 0x63 => some (.vshl t i f)
  | 0x64 => some (.vshr t i f)
  | 0x65 => some (.vshli t i f)
  | 0x66 => some (.vperm t i f)
  | 0x67 => some (.vbcast t i f)
  | 0x68 => some (.vext t i f)
  | 0x69 => some (.vins t i f)
  | 0x6A => some (.vslup t i f)
  | 0x6B => some (.vsldn t i f)
  | 0x6C => some (.vmerge t i f)
  | 0x6D => some (.vfsgn t i f)
  | 0x6E => some (.vmov t i f)
  | _ => none

/-- Mask, compress and expand, slot D (R221). -/
def maskRow (n : Nat) (t : Tower) (i : Nat) (f : Fields) : Option Instr :=
  match n with
  | 0x70 => some (.mand t i f)
  | 0x71 => some (.mor t i f)
  | 0x72 => some (.mxor t i f)
  | 0x73 => some (.mandn t i f)
  | 0x74 => some (.mnot t i f)
  | 0x75 => some (.mset t i f)
  | 0x76 => some (.mclr t i f)
  | 0x77 => some (.mpopc t i f)
  | 0x78 => some (.mfirst t i f)
  | 0x79 => some (.mfroms t i f)
  | 0x7A => some (.mtos t i f)
  | 0x7B => some (.vcompress t i f)
  | 0x7C => some (.vexpand t i f)
  | _ => none

/-- Load and gather, slot E (R223). -/
def loadRow (n : Nat) (t : Tower) (i : Nat) (f : Fields) (tag : Word) : Option Instr :=
  match n with
  | 0x80 => some (.lds t i f tag)
  | 0x81 => some (.vld t i f tag)
  | 0x82 => some (.vlds t i f tag)
  | 0x83 => some (.vgather t i f tag)
  | _ => none

/-- Store, scatter and atomic, slot F (R223). -/
def storeRow (n : Nat) (t : Tower) (i : Nat) (f : Fields) : Option Instr :=
  match n with
  | 0x90 => some (.sts t i f)
  | 0x91 => some (.vst t i f)
  | 0x92 => some (.vsts t i f)
  | 0x93 => some (.vscatter t i f)
  | 0x94 => some (.amoadd t i f)
  | 0x95 => some (.amomin t i f)
  | 0x96 => some (.amomax t i f)
  | 0x97 => some (.amoswap t i f)
  | 0x98 => some (.amocas t i f)
  | 0x99 => some (.amoand t i f)
  | 0x9A => some (.amoor t i f)
  | 0x9B => some (.amofadd t i f)
  | 0x9C => some (.vamoadd t i f)
  | _ => none

/-- Control, slot H (R226). -/
def controlRow (n : Nat) (t : Tower) (i : Nat) (f : Fields) : Option Instr :=
  match n with
  | 0xA0 => some (.wait t i f)
  | 0xA1 => some (.yield t i f)
  | 0xA2 => some (.barinit t i f)
  | 0xA3 => some (.bar t i f)
  | 0xA4 => some (.barEos t i f)
  | 0xA5 => some (.spawn t i f)
  | 0xA6 => some (.exit t i f)
  | 0xA7 => some (.fence t i f)
  | 0xA8 => some (.phase t i f)
  | 0xA9 => some (.event t i f)
  | 0xAA => some (.kvapp t i f)
  | 0xAB => some (.nop t i f)
  | _ => none

/-- The command that an instruction word spells for thread `i` of tower `t`; a lantern load takes its step tag with it (log entry
17). None where the opcode is reserved: such a word raises ILLEGAL_INSTR (R205, R206; log entry 4). -/
def decodeVec (t : Tower) (i : Nat) (tag : Word) (w : DWord) : Option Instr :=
  let n := opOf w
  let f := fieldsOf w
  match opGroup n with
  | some .scalar => scalarRow n t i f
  | some .branch => branchRow n t i f
  | some .floating => fpRow n t i f
  | some .integer => intRow n t i f
  | some .conversion => convertRow n t i f
  | some .saturating => saturateRow n t i f
  | some .logic => logicRow n t i f
  | some .mask => maskRow n t i f
  | some .load => loadRow n t i f tag
  | some .store => storeRow n t i f
  | some .control => controlRow n t i f
  | none => none

/-! ### Words of the opcode table -/

/-- The opcode table gives no row any bits: every row's "fields" is empty, so no word spells a command. -/
def decodeTableWord (nbits w : Nat) : Option Instr :=
  match nbits, w with
  | _, _ => none

end Sys2Proof
end

