-- ==== Sys2Proof/Config.lean ====
section
/-! DEFINITION. What one device fixes and what the spec leaves open: constants without a body, so that no proof can
see a value of them. A claim that mentions one holds whatever it is. -/

namespace Sys2Proof.Config

/-- The 64-bit device serial in fuses (SEC_SERIAL_LO and SEC_SERIAL_HI: "fused value"). -/
opaque serial : BitVec 64
/-- The free value number `n`: a value the spec calls undefined, or does not state (log entry 3). -/
opaque freeNat (n : Nat) : Nat
/-- Where Lumdom places the reduction group table, in units of 64 bytes (R349 names no place). -/
opaque grpTablePlace : Nat
/-- Where Lumdom places the mantle statistics table of tower `t`, in units of 64 bytes (R335 names no place). -/
opaque mstTablePlace (t : Nat) : Nat
/-- Word `i` of the intermediate (1) or device (2) identity certificate that R543 leaves to the maker: identifiers, keys and
signatures. -/
opaque certWord (kind i : Nat) : BitVec 32
/-- The byte at address `a` of undefined range number `n` (R148). -/
opaque freeByte (n a : Nat) : BitVec 8
/-- The contents of vector register `r` after a may-park instruction or a dispatch, in epoch `n` (R177). -/
opaque freeVec (n r : Nat) : BitVec 1024
/-- The contents of mask register `r` after a may-park instruction or a dispatch, in epoch `n` (R177). -/
opaque freeMask (n r : Nat) : BitVec 256
/-- Which of the results within one unit in the last place VFEXP2 gives for an input code of a format (R213). -/
opaque exp2Pick (fmt code : Nat) : Nat
/-- Which of the results within one unit in the last place VFLOG2 gives for an input code of a format (R213). -/
opaque log2Pick (fmt code : Nat) : Nat
/-- Which of the results within one unit in the last place the attention engine's exp gives (R251). -/
opaque expPick (code : Nat) : Nat

/-- The boot store as it was programmed before: the byte at an offset (R536). -/
opaque flashByte (offset : Nat) : BitVec 8
/-- The 48 bytes of key_hash_k of the fuses (R532). -/
opaque keyHash (k i : Nat) : BitVec 8
/-- The bytes MR0 is extended with: the ROM version and the non-sealed fuses, the fused floor and revocations among them,
whose layout the spec does not give (R538). -/
opaque mr0Data (floor revoked : Nat) : List (BitVec 8)
/-- The bytes MR2 is extended with: booted slot, fallback and reset cause, whose layout the spec does not give (R538). -/
opaque mr2Data (slot : Nat) (fallback : Bool) (cause : Nat) : List (BitVec 8)
/-- SLH-DSA-SHA2-192s verification of FIPS 205 in its pure form with an empty context: public key, signature, message
(R533). -/
opaque slhOk (pub sig msg : List (BitVec 8)) : Bool
/-- The bytes of the signing engine's RSA and SLH-DSA signatures of a report (R546). -/
opaque rsaSign (msg : List (BitVec 8)) (i : Nat) : BitVec 8
opaque slhSign (msg : List (BitVec 8)) (i : Nat) : BitVec 8

/-- What coding one slice of a picture takes in: the picture's number in the stream, whether it is an IDR picture, the first
CTU row and the rows coded, the descriptor's coding fields (rate control: method, bitrate and buffer), the signalled level and
tier, the QP of each quantization group, the converted planes, the latency class and, in the gradual refresh class, the intra
band's first CTU column and width, the CTU columns refreshed so far, inside which the motion vectors of refreshed columns stay,
and the count of the recovery point SEI where a sweep starts (R275, R300 to R305). -/
structure CodeIn where
  count : Nat
  idr : Bool
  row : Nat
  rows : Nat
  profile : Nat
  ctu : Nat
  width : Nat
  height : Nat
  rate : Nat × Nat
  level : Nat × Bool
  bitDepth : Nat
  qps : List Nat
  y : List Nat
  cb : List Nat
  cr : List Nat
  cls : Nat
  rc : Nat × Nat × Nat
  band : Option (Nat × Nat)
  refreshed : Nat
  recovery : Option Nat
deriving DecidableEq, Repr, Inhabited

/-- The payload that codes `x` after `past`: HEVC leaves a coder its choices (R273, R303). -/
opaque coded (past : List CodeIn) (x : CodeIn) : List (BitVec 8)
/-- The rate controller's pick of a frame QP: method, QP, bitrate and buffer of the descriptor, after `past` (R303). -/
opaque frameQp (past : List CodeIn) (rc qp bitrate cpb : Nat) : Nat

end Sys2Proof.Config
end

