-- ==== Sys2Proof/Machine/RegMap.lean ====
section
/-! DEFINITION. The register map: every register of the spec with its block, its offset, its repeats and its fields
with their access types and reset values (rules R7, R8, R28, R29 and the register tables of each chapter). -/

namespace Sys2Proof.Machine

/-- The registers, one name for all of a register's repeats. -/
inductive RegId where
  | ctlIslandReady | ctlStepNumber | ctlStepState | ctlBankCurrent | ctlStepTimeout | ctlStepErr
  | ctlRefclkLo | ctlRefclkHi | ctlSrSeedLo | ctlSrSeedHi | mtxQBaseLo | mtxQBaseHi
  | mtxQTail | mtxQHead | mtxCqBaseLo | mtxCqBaseHi | mtxCqTail | mtxCqHead
  | mtxQErr | mtxEccCorr | seqBnd | seqSpillTotal | seqIssueStat | slvQBaseLo
  | slvQBaseHi | slvQTail | slvQHead | slvCqBaseLo | slvCqBaseHi | slvCqTail
  | slvCqHead | slvQErr | slvBusy | vecCtxCfg | vecThrRange | vecThrLive
  | vecThrRun | vecErr | vecSeatBusy | atnPoolBaseLo | atnPoolBaseHi | atnPoolTail
  | atnPoolHead | atnPageTimeout | atnStarved | atnErr | atnBiasValidLo | atnBiasValidHi
  | atnEmptyRows | cdcDqBaseLo | cdcDqBaseHi | cdcDqTail | cdcDqHead | cdcDcqBaseLo
  | cdcDcqBaseHi | cdcDcqTail | cdcDcqHead | cdcDqErr | cdcEqBaseLo | cdcEqBaseHi
  | cdcEqTail | cdcEqHead | cdcEcqBaseLo | cdcEcqBaseHi | cdcEcqTail | cdcEcqHead
  | cdcEqErr | cdcMode | cdcDropCnt | cdcStreamErrCnt | memMvBaseLo | memMvBaseHi
  | memMvTail | memMvHead | memMvcBaseLo | memMvcBaseHi | memMvcTail | memMvcHead
  | memMvErr | memLocalCfg | memErr | memCalCfg | memCalStat | memEccCe
  | memSramCe | memUeAddrLo | memUeAddrHi | memScrubCfg | memMstBaseLo | memMstBaseHi
  | memMirrorValidLo | memMirrorValidHi | memMirrorFillLo | memMirrorFillHi | memSnapStat | redQBaseLo
  | redQBaseHi | redQTail | redQHead | redCqBaseLo | redCqBaseHi | redCqTail
  | redCqHead | redQErr | redErr | redHeld | redBusy | redSatCnt
  | redGrpBaseLo | redGrpBaseHi | redGrpErr | plynPortCfg | plynPortStat | plynLaneMapTx
  | plynLaneMapRx | plynErr | plynCrcCnt | plynReplayCnt | plynViolLog | plynNbrSerialLo
  | plynNbrSerialHi | plynNbrInfo | plynViolCfg | plynFabAddr | plynAxisSize | plynRotCfg
  | plynReqTimeout | plynUnroutable | plynDupToken | plynRtT | plynRtS | plynRtD
  | ctlSeamStat | hostLinkStat | hostErr | hostUdpPort | hostPfcCfg | hostEvtRetry
  | hostRxBad | hostBelpelBad | hostBelpelStale | hostQpErrCnt | hostBelpelLog | hostBelpelSrc
  | ctlCtxAct | ctlCtxLost | ctlCtxIntf | ctlCtxPromo | ctlCtxState | ctlSnapSched
  | ctlSnapMtbf | ctlRefillStat | ctlMirrorStep | irqSrcCfg | irqSrcStat | irqClaim
  | irqComplete | irqArgLo | irqArgHi | irqLock | clkSrcStat | clkSel
  | clkSsc | clkThermCfg | clkThrottle | clkResetCause | clkLoopStat | secBootStat
  | secFloor | secSerialLo | secSerialHi | secMr | tstTapStat
  deriving DecidableEq, Repr

/-- The access types of R7. -/
inductive Access where
  | ro | rw | w1c | w1s | rc | wo
  deriving DecidableEq, Repr

/-- A register field: its least bit, its width, its access type and its reset value. -/
structure Fld where
  lo : Nat
  width : Nat
  acc : Access
  reset : Nat
  deriving DecidableEq, Repr

/-- The register blocks of R29. -/
inductive Block where
  | cupola | drum | belfry | codec | host
  deriving DecidableEq, Repr

/-- A register: its block, its offset in the block, the stride and count of its repeats, the towers that have it
(bit n for Tn; 1 where the block is not a tower's) and its fields. -/
structure RegDef where
  block : Block
  off : Nat
  stride : Nat
  count : Nat
  towers : Nat
  fields : List Fld
  deriving DecidableEq, Repr

/-- Base address of a block of R29, in tower `t` where the block is a tower's. -/
def blockBase (b : Block) (t : Nat) : Nat :=
  match b with
  | .cupola => 0x030000000000 + t * 0x01000000
  | .drum => 0x030000800000 + t * 0x01000000
  | .belfry => 0x030010000000
  | .codec => 0x030011000000
  | .host => 0x030012000000

/-- `cupola_ready` of CTL_ISLAND_READY (R22). -/
abbrev ctlIslandReady_cupolaReady : Fld := ⟨0, 8, .ro, 0⟩
/-- `drum_ready` of CTL_ISLAND_READY (R22). -/
abbrev ctlIslandReady_drumReady : Fld := ⟨8, 8, .ro, 0⟩
/-- `hbm_group_ready` of CTL_ISLAND_READY (R22). -/
abbrev ctlIslandReady_hbmGroupReady : Fld := ⟨16, 8, .ro, 0⟩
/-- `codec_ready` of CTL_ISLAND_READY (R22). -/
abbrev ctlIslandReady_codecReady : Fld := ⟨24, 1, .ro, 0⟩
/-- `host_serdes_ready` of CTL_ISLAND_READY (R22). -/
abbrev ctlIslandReady_hostSerdesReady : Fld := ⟨25, 1, .ro, 0⟩
/-- `port_ready` of CTL_ISLAND_READY (R22). -/
abbrev ctlIslandReady_portReady : Fld := ⟨26, 6, .ro, 0⟩
/-- `step` of CTL_STEP_NUMBER (R53). -/
abbrev ctlStepNumber_step : Fld := ⟨0, 32, .ro, 0⟩
/-- `state` of CTL_STEP_STATE (R53). -/
abbrev ctlStepState_state : Fld := ⟨0, 2, .ro, 0⟩
/-- `last_skipped` of CTL_STEP_STATE (R53). -/
abbrev ctlStepState_lastSkipped : Fld := ⟨2, 1, .ro, 0⟩
/-- `is_root` of CTL_STEP_STATE (R53). -/
abbrev ctlStepState_isRoot : Fld := ⟨3, 1, .ro, 0⟩
/-- `layout_epoch` of CTL_STEP_STATE (R53). -/
abbrev ctlStepState_layoutEpoch : Fld := ⟨16, 16, .ro, 0⟩
/-- `current_b` of CTL_BANK_CURRENT (R53). -/
abbrev ctlBankCurrent_currentB : Fld := ⟨0, 16, .ro, 0⟩
/-- `ticks` of CTL_STEP_TIMEOUT (R53). -/
abbrev ctlStepTimeout_ticks : Fld := ⟨0, 32, .rw, 0xb2d05e00⟩
/-- `token_mismatch` of CTL_STEP_ERR (R53). -/
abbrev ctlStepErr_tokenMismatch : Fld := ⟨0, 1, .w1c, 0⟩
/-- `epoch_write_rejected` of CTL_STEP_ERR (R53). -/
abbrev ctlStepErr_epochWriteRejected : Fld := ⟨1, 1, .w1c, 0⟩
/-- `timeout` of CTL_STEP_ERR (R53). -/
abbrev ctlStepErr_timeout : Fld := ⟨2, 1, .w1c, 0⟩
/-- `aborted` of CTL_STEP_ERR (R53). -/
abbrev ctlStepErr_aborted : Fld := ⟨3, 1, .w1c, 0⟩
/-- `ticks` of CTL_REFCLK_LO (R53). -/
abbrev ctlRefclkLo_ticks : Fld := ⟨0, 32, .ro, 0⟩
/-- `ticks` of CTL_REFCLK_HI (R53). -/
abbrev ctlRefclkHi_ticks : Fld := ⟨0, 32, .ro, 0⟩
/-- `seed_lo` of CTL_SR_SEED_LO (R81). -/
abbrev ctlSrSeedLo_seedLo : Fld := ⟨0, 32, .ro, 0⟩
/-- `seed_hi` of CTL_SR_SEED_HI (R81). -/
abbrev ctlSrSeedHi_seedHi : Fld := ⟨0, 32, .ro, 0⟩
/-- `base_lo` of MTX_Q_BASE_LO (R121). -/
abbrev mtxQBaseLo_baseLo : Fld := ⟨7, 25, .rw, 0⟩
/-- `base_hi` of MTX_Q_BASE_HI (R121). -/
abbrev mtxQBaseHi_baseHi : Fld := ⟨0, 16, .rw, 0⟩
/-- `size` of MTX_Q_BASE_HI (R121). -/
abbrev mtxQBaseHi_size : Fld := ⟨16, 16, .rw, 0⟩
/-- `tail` of MTX_Q_TAIL (R121). -/
abbrev mtxQTail_tail : Fld := ⟨0, 16, .rw, 0⟩
/-- `head` of MTX_Q_HEAD (R121). -/
abbrev mtxQHead_head : Fld := ⟨0, 16, .ro, 0⟩
/-- `eos_wait` of MTX_Q_HEAD (R121). -/
abbrev mtxQHead_eosWait : Fld := ⟨16, 1, .ro, 0⟩
/-- `halted` of MTX_Q_HEAD (R121). -/
abbrev mtxQHead_halted : Fld := ⟨17, 1, .ro, 0⟩
/-- `base_lo` of MTX_CQ_BASE_LO (R121). -/
abbrev mtxCqBaseLo_baseLo : Fld := ⟨5, 27, .rw, 0⟩
/-- `base_hi` of MTX_CQ_BASE_HI (R121). -/
abbrev mtxCqBaseHi_baseHi : Fld := ⟨0, 16, .rw, 0⟩
/-- `size` of MTX_CQ_BASE_HI (R121). -/
abbrev mtxCqBaseHi_size : Fld := ⟨16, 16, .rw, 0⟩
/-- `tail` of MTX_CQ_TAIL (R121). -/
abbrev mtxCqTail_tail : Fld := ⟨0, 16, .ro, 0⟩
/-- `head` of MTX_CQ_HEAD (R121). -/
abbrev mtxCqHead_head : Fld := ⟨0, 16, .rw, 0⟩
/-- `rejected` of MTX_Q_ERR (R121). -/
abbrev mtxQErr_rejected : Fld := ⟨0, 1, .w1c, 0⟩
/-- `cfg_write_ignored` of MTX_Q_ERR (R121). -/
abbrev mtxQErr_cfgWriteIgnored : Fld := ⟨1, 1, .w1c, 0⟩
/-- `meta_error` of MTX_Q_ERR (R121). -/
abbrev mtxQErr_metaError : Fld := ⟨2, 1, .w1c, 0⟩
/-- `corrected` of MTX_ECC_CORR (R121). -/
abbrev mtxEccCorr_corrected : Fld := ⟨0, 16, .rc, 0⟩
/-- `bound` of SEQ_BND (R148). -/
abbrev seqBnd_bound : Fld := ⟨0, 32, .rw, 0⟩
/-- `spills` of SEQ_SPILL_TOTAL (R148). -/
abbrev seqSpillTotal_spills : Fld := ⟨0, 32, .rc, 0⟩
/-- `last_status` of SEQ_ISSUE_STAT (R148). -/
abbrev seqIssueStat_lastStatus : Fld := ⟨0, 16, .ro, 0⟩
/-- `acc_space_seen` of SEQ_ISSUE_STAT (R148). -/
abbrev seqIssueStat_accSpaceSeen : Fld := ⟨16, 1, .w1c, 0⟩
/-- `spill_seen` of SEQ_ISSUE_STAT (R148). -/
abbrev seqIssueStat_spillSeen : Fld := ⟨17, 1, .w1c, 0⟩
/-- `base_lo` of SLV_Q_BASE_LO (R168). -/
abbrev slvQBaseLo_baseLo : Fld := ⟨7, 25, .rw, 0⟩
/-- `base_hi` of SLV_Q_BASE_HI (R168). -/
abbrev slvQBaseHi_baseHi : Fld := ⟨0, 16, .rw, 0⟩
/-- `size` of SLV_Q_BASE_HI (R168). -/
abbrev slvQBaseHi_size : Fld := ⟨16, 16, .rw, 0⟩
/-- `tail` of SLV_Q_TAIL (R168). -/
abbrev slvQTail_tail : Fld := ⟨0, 16, .rw, 0⟩
/-- `head` of SLV_Q_HEAD (R168). -/
abbrev slvQHead_head : Fld := ⟨0, 16, .ro, 0⟩
/-- `eos_wait` of SLV_Q_HEAD (R168). -/
abbrev slvQHead_eosWait : Fld := ⟨16, 1, .ro, 0⟩
/-- `halted` of SLV_Q_HEAD (R168). -/
abbrev slvQHead_halted : Fld := ⟨17, 1, .ro, 0⟩
/-- `base_lo` of SLV_CQ_BASE_LO (R168). -/
abbrev slvCqBaseLo_baseLo : Fld := ⟨5, 27, .rw, 0⟩
/-- `base_hi` of SLV_CQ_BASE_HI (R168). -/
abbrev slvCqBaseHi_baseHi : Fld := ⟨0, 16, .rw, 0⟩
/-- `size` of SLV_CQ_BASE_HI (R168). -/
abbrev slvCqBaseHi_size : Fld := ⟨16, 16, .rw, 0⟩
/-- `tail` of SLV_CQ_TAIL (R168). -/
abbrev slvCqTail_tail : Fld := ⟨0, 16, .ro, 0⟩
/-- `head` of SLV_CQ_HEAD (R168). -/
abbrev slvCqHead_head : Fld := ⟨0, 16, .rw, 0⟩
/-- `rejected` of SLV_Q_ERR (R168). -/
abbrev slvQErr_rejected : Fld := ⟨0, 1, .w1c, 0⟩
/-- `cfg_write_ignored` of SLV_Q_ERR (R168). -/
abbrev slvQErr_cfgWriteIgnored : Fld := ⟨1, 1, .w1c, 0⟩
/-- `tail_ignored` of SLV_Q_ERR (R168). -/
abbrev slvQErr_tailIgnored : Fld := ⟨2, 1, .w1c, 0⟩
/-- `busy` of SLV_BUSY (R168). -/
abbrev slvBusy_busy : Fld := ⟨0, 32, .rc, 0⟩
/-- `slotb` of VEC_CTX_CFG (R201). -/
abbrev vecCtxCfg_slotb : Fld := ⟨0, 1, .rw, 0⟩
/-- `base_units` of VEC_THR_RANGE (R201). -/
abbrev vecThrRange_baseUnits : Fld := ⟨0, 12, .rw, 0⟩
/-- `count_units` of VEC_THR_RANGE (R201). -/
abbrev vecThrRange_countUnits : Fld := ⟨12, 13, .rw, 0⟩
/-- `live` of VEC_THR_LIVE (R201). -/
abbrev vecThrLive_live : Fld := ⟨0, 19, .ro, 0⟩
/-- `running` of VEC_THR_RUN (R201). -/
abbrev vecThrRun_running : Fld := ⟨0, 11, .ro, 0⟩
/-- `cfg_write_ignored` of VEC_ERR (R201). -/
abbrev vecErr_cfgWriteIgnored : Fld := ⟨0, 1, .w1c, 0⟩
/-- `spawn_refused` of VEC_ERR (R201). -/
abbrev vecErr_spawnRefused : Fld := ⟨1, 1, .w1c, 0⟩
/-- `barinit_refused` of VEC_ERR (R201). -/
abbrev vecErr_barinitRefused : Fld := ⟨2, 1, .w1c, 0⟩
/-- `seat_cycles` of VEC_SEAT_BUSY (R201). -/
abbrev vecSeatBusy_seatCycles : Fld := ⟨0, 32, .rc, 0⟩
/-- `base_lo` of ATN_POOL_BASE_LO (R272). -/
abbrev atnPoolBaseLo_baseLo : Fld := ⟨4, 28, .rw, 0⟩
/-- `base_hi` of ATN_POOL_BASE_HI (R272). -/
abbrev atnPoolBaseHi_baseHi : Fld := ⟨0, 16, .rw, 0⟩
/-- `size` of ATN_POOL_BASE_HI (R272). -/
abbrev atnPoolBaseHi_size : Fld := ⟨16, 16, .rw, 0⟩
/-- `tail` of ATN_POOL_TAIL (R272). -/
abbrev atnPoolTail_tail : Fld := ⟨0, 16, .rw, 0⟩
/-- `head` of ATN_POOL_HEAD (R272). -/
abbrev atnPoolHead_head : Fld := ⟨0, 16, .ro, 0⟩
/-- `ticks` of ATN_PAGE_TIMEOUT (R272). -/
abbrev atnPageTimeout_ticks : Fld := ⟨0, 32, .rw, 0xf4240⟩
/-- `waiting` of ATN_STARVED (R272). -/
abbrev atnStarved_waiting : Fld := ⟨0, 19, .ro, 0⟩
/-- `cfg_write_ignored` of ATN_ERR (R272). -/
abbrev atnErr_cfgWriteIgnored : Fld := ⟨0, 1, .w1c, 0⟩
/-- `starved_seen` of ATN_ERR (R272). -/
abbrev atnErr_starvedSeen : Fld := ⟨1, 1, .w1c, 0⟩
/-- `page_timeout` of ATN_ERR (R272). -/
abbrev atnErr_pageTimeout : Fld := ⟨2, 1, .w1c, 0⟩
/-- `valid` of ATN_BIAS_VALID_LO (R272). -/
abbrev atnBiasValidLo_valid : Fld := ⟨0, 32, .ro, 0⟩
/-- `valid` of ATN_BIAS_VALID_HI (R272). -/
abbrev atnBiasValidHi_valid : Fld := ⟨0, 32, .ro, 0⟩
/-- `empty_rows` of ATN_EMPTY_ROWS (R272). -/
abbrev atnEmptyRows_emptyRows : Fld := ⟨0, 32, .rc, 0⟩
/-- `base_lo` of CDC_DQ_BASE_LO (R312). -/
abbrev cdcDqBaseLo_baseLo : Fld := ⟨7, 25, .rw, 0⟩
/-- `base_hi` of CDC_DQ_BASE_HI (R312). -/
abbrev cdcDqBaseHi_baseHi : Fld := ⟨0, 16, .rw, 0⟩
/-- `size` of CDC_DQ_BASE_HI (R312). -/
abbrev cdcDqBaseHi_size : Fld := ⟨16, 16, .rw, 0⟩
/-- `tail` of CDC_DQ_TAIL (R312). -/
abbrev cdcDqTail_tail : Fld := ⟨0, 16, .rw, 0⟩
/-- `head` of CDC_DQ_HEAD (R312). -/
abbrev cdcDqHead_head : Fld := ⟨0, 16, .ro, 0⟩
/-- `eos_wait` of CDC_DQ_HEAD (R312). -/
abbrev cdcDqHead_eosWait : Fld := ⟨16, 1, .ro, 0⟩
/-- `halted` of CDC_DQ_HEAD (R312). -/
abbrev cdcDqHead_halted : Fld := ⟨17, 1, .ro, 0⟩
/-- `base_lo` of CDC_DCQ_BASE_LO (R312). -/
abbrev cdcDcqBaseLo_baseLo : Fld := ⟨5, 27, .rw, 0⟩
/-- `base_hi` of CDC_DCQ_BASE_HI (R312). -/
abbrev cdcDcqBaseHi_baseHi : Fld := ⟨0, 16, .rw, 0⟩
/-- `size` of CDC_DCQ_BASE_HI (R312). -/
abbrev cdcDcqBaseHi_size : Fld := ⟨16, 16, .rw, 0⟩
/-- `tail` of CDC_DCQ_TAIL (R312). -/
abbrev cdcDcqTail_tail : Fld := ⟨0, 16, .ro, 0⟩
/-- `head` of CDC_DCQ_HEAD (R312). -/
abbrev cdcDcqHead_head : Fld := ⟨0, 16, .rw, 0⟩
/-- `rejected` of CDC_DQ_ERR (R312). -/
abbrev cdcDqErr_rejected : Fld := ⟨0, 1, .w1c, 0⟩
/-- `cfg_write_ignored` of CDC_DQ_ERR (R312). -/
abbrev cdcDqErr_cfgWriteIgnored : Fld := ⟨1, 1, .w1c, 0⟩
/-- `data_seen` of CDC_DQ_ERR (R312). -/
abbrev cdcDqErr_dataSeen : Fld := ⟨2, 1, .w1c, 0⟩
/-- `base_lo` of CDC_EQ_BASE_LO (R312). -/
abbrev cdcEqBaseLo_baseLo : Fld := ⟨7, 25, .rw, 0⟩
/-- `base_hi` of CDC_EQ_BASE_HI (R312). -/
abbrev cdcEqBaseHi_baseHi : Fld := ⟨0, 16, .rw, 0⟩
/-- `size` of CDC_EQ_BASE_HI (R312). -/
abbrev cdcEqBaseHi_size : Fld := ⟨16, 16, .rw, 0⟩
/-- `tail` of CDC_EQ_TAIL (R312). -/
abbrev cdcEqTail_tail : Fld := ⟨0, 16, .rw, 0⟩
/-- `head` of CDC_EQ_HEAD (R312). -/
abbrev cdcEqHead_head : Fld := ⟨0, 16, .ro, 0⟩
/-- `eos_wait` of CDC_EQ_HEAD (R312). -/
abbrev cdcEqHead_eosWait : Fld := ⟨16, 1, .ro, 0⟩
/-- `halted` of CDC_EQ_HEAD (R312). -/
abbrev cdcEqHead_halted : Fld := ⟨17, 1, .ro, 0⟩
/-- `base_lo` of CDC_ECQ_BASE_LO (R312). -/
abbrev cdcEcqBaseLo_baseLo : Fld := ⟨5, 27, .rw, 0⟩
/-- `base_hi` of CDC_ECQ_BASE_HI (R312). -/
abbrev cdcEcqBaseHi_baseHi : Fld := ⟨0, 16, .rw, 0⟩
/-- `size` of CDC_ECQ_BASE_HI (R312). -/
abbrev cdcEcqBaseHi_size : Fld := ⟨16, 16, .rw, 0⟩
/-- `tail` of CDC_ECQ_TAIL (R312). -/
abbrev cdcEcqTail_tail : Fld := ⟨0, 16, .ro, 0⟩
/-- `head` of CDC_ECQ_HEAD (R312). -/
abbrev cdcEcqHead_head : Fld := ⟨0, 16, .rw, 0⟩
/-- `rejected` of CDC_EQ_ERR (R312). -/
abbrev cdcEqErr_rejected : Fld := ⟨0, 1, .w1c, 0⟩
/-- `cfg_write_ignored` of CDC_EQ_ERR (R312). -/
abbrev cdcEqErr_cfgWriteIgnored : Fld := ⟨1, 1, .w1c, 0⟩
/-- `data_seen` of CDC_EQ_ERR (R312). -/
abbrev cdcEqErr_dataSeen : Fld := ⟨2, 1, .w1c, 0⟩
/-- `maint` of CDC_MODE (R312). -/
abbrev cdcMode_maint : Fld := ⟨0, 1, .ro, 0⟩
/-- `maint_pending` of CDC_MODE (R312). -/
abbrev cdcMode_maintPending : Fld := ⟨1, 1, .ro, 0⟩
/-- `dropped` of CDC_DROP_CNT (R312). -/
abbrev cdcDropCnt_dropped : Fld := ⟨0, 32, .rc, 0⟩
/-- `errors` of CDC_STREAM_ERR_CNT (R312). -/
abbrev cdcStreamErrCnt_errors : Fld := ⟨0, 32, .rc, 0⟩
/-- `base_lo` of MEM_MV_BASE_LO (R348). -/
abbrev memMvBaseLo_baseLo : Fld := ⟨7, 25, .rw, 0⟩
/-- `base_hi` of MEM_MV_BASE_HI (R348). -/
abbrev memMvBaseHi_baseHi : Fld := ⟨0, 16, .rw, 0⟩
/-- `size` of MEM_MV_BASE_HI (R348). -/
abbrev memMvBaseHi_size : Fld := ⟨16, 16, .rw, 0⟩
/-- `tail` of MEM_MV_TAIL (R348). -/
abbrev memMvTail_tail : Fld := ⟨0, 16, .rw, 0⟩
/-- `head` of MEM_MV_HEAD (R348). -/
abbrev memMvHead_head : Fld := ⟨0, 16, .ro, 0⟩
/-- `eos_wait` of MEM_MV_HEAD (R348). -/
abbrev memMvHead_eosWait : Fld := ⟨16, 1, .ro, 0⟩
/-- `halted` of MEM_MV_HEAD (R348). -/
abbrev memMvHead_halted : Fld := ⟨17, 1, .ro, 0⟩
/-- `base_lo` of MEM_MVC_BASE_LO (R348). -/
abbrev memMvcBaseLo_baseLo : Fld := ⟨5, 27, .rw, 0⟩
/-- `base_hi` of MEM_MVC_BASE_HI (R348). -/
abbrev memMvcBaseHi_baseHi : Fld := ⟨0, 16, .rw, 0⟩
/-- `size` of MEM_MVC_BASE_HI (R348). -/
abbrev memMvcBaseHi_size : Fld := ⟨16, 16, .rw, 0⟩
/-- `tail` of MEM_MVC_TAIL (R348). -/
abbrev memMvcTail_tail : Fld := ⟨0, 16, .ro, 0⟩
/-- `head` of MEM_MVC_HEAD (R348). -/
abbrev memMvcHead_head : Fld := ⟨0, 16, .rw, 0⟩
/-- `rejected` of MEM_MV_ERR (R348). -/
abbrev memMvErr_rejected : Fld := ⟨0, 1, .w1c, 0⟩
/-- `cfg_write_ignored` of MEM_MV_ERR (R348). -/
abbrev memMvErr_cfgWriteIgnored : Fld := ⟨1, 1, .w1c, 0⟩
/-- `partial` of MEM_MV_ERR (R348). -/
abbrev memMvErr_partial : Fld := ⟨2, 1, .w1c, 0⟩
/-- `local_gib` of MEM_LOCAL_CFG (R348). -/
abbrev memLocalCfg_localGib : Fld := ⟨0, 7, .rw, 0⟩
/-- `cfg_write_ignored` of MEM_ERR (R348). -/
abbrev memErr_cfgWriteIgnored : Fld := ⟨0, 1, .w1c, 0⟩
/-- `cal_interval` of MEM_CAL_CFG (R348). -/
abbrev memCalCfg_calInterval : Fld := ⟨0, 16, .rw, 0x3e8⟩
/-- `cal_min_margin` of MEM_CAL_CFG (R348). -/
abbrev memCalCfg_calMinMargin : Fld := ⟨16, 4, .rw, 4⟩
/-- `next_pc` of MEM_CAL_STAT (R348). -/
abbrev memCalStat_nextPc : Fld := ⟨0, 6, .ro, 0⟩
/-- `aborts` of MEM_CAL_STAT (R348). -/
abbrev memCalStat_aborts : Fld := ⟨8, 8, .rc, 0⟩
/-- `degraded` of MEM_CAL_STAT (R348). -/
abbrev memCalStat_degraded : Fld := ⟨16, 7, .ro, 0⟩
/-- `corrected` of MEM_ECC_CE (R348). -/
abbrev memEccCe_corrected : Fld := ⟨0, 32, .rc, 0⟩
/-- `corrected` of MEM_SRAM_CE (R348). -/
abbrev memSramCe_corrected : Fld := ⟨0, 32, .rc, 0⟩
/-- `addr` of MEM_UE_ADDR_LO (R348). -/
abbrev memUeAddrLo_addr : Fld := ⟨0, 32, .ro, 0⟩
/-- `addr` of MEM_UE_ADDR_HI (R348). -/
abbrev memUeAddrHi_addr : Fld := ⟨0, 32, .ro, 0⟩
/-- `scrub_hours` of MEM_SCRUB_CFG (R348). -/
abbrev memScrubCfg_scrubHours : Fld := ⟨0, 8, .rw, 8⟩
/-- `base` of MEM_MST_BASE_LO (R348). -/
abbrev memMstBaseLo_base : Fld := ⟨0, 32, .rw, 0⟩
/-- `base` of MEM_MST_BASE_HI (R348). -/
abbrev memMstBaseHi_base : Fld := ⟨0, 16, .rw, 0⟩
/-- `entries` of MEM_MIRROR_VALID_LO (R348). -/
abbrev memMirrorValidLo_entries : Fld := ⟨0, 32, .ro, 0⟩
/-- `entries` of MEM_MIRROR_VALID_HI (R348). -/
abbrev memMirrorValidHi_entries : Fld := ⟨0, 32, .ro, 0⟩
/-- `entries` of MEM_MIRROR_FILL_LO (R348). -/
abbrev memMirrorFillLo_entries : Fld := ⟨0, 32, .ro, 0⟩
/-- `entries` of MEM_MIRROR_FILL_HI (R348). -/
abbrev memMirrorFillHi_entries : Fld := ⟨0, 32, .ro, 0⟩
/-- `busy` of MEM_SNAP_STAT (R348). -/
abbrev memSnapStat_busy : Fld := ⟨0, 1, .ro, 0⟩
/-- `failed` of MEM_SNAP_STAT (R348). -/
abbrev memSnapStat_failed : Fld := ⟨1, 1, .w1c, 0⟩
/-- `promoted` of MEM_SNAP_STAT (R348). -/
abbrev memSnapStat_promoted : Fld := ⟨2, 1, .w1c, 0⟩
/-- `last_step` of MEM_SNAP_STAT (R348). -/
abbrev memSnapStat_lastStep : Fld := ⟨8, 24, .ro, 0⟩
/-- `base_lo` of RED_Q_BASE_LO (R383). -/
abbrev redQBaseLo_baseLo : Fld := ⟨7, 25, .rw, 0⟩
/-- `base_hi` of RED_Q_BASE_HI (R383). -/
abbrev redQBaseHi_baseHi : Fld := ⟨0, 16, .rw, 0⟩
/-- `size` of RED_Q_BASE_HI (R383). -/
abbrev redQBaseHi_size : Fld := ⟨16, 16, .rw, 0⟩
/-- `tail` of RED_Q_TAIL (R383). -/
abbrev redQTail_tail : Fld := ⟨0, 16, .rw, 0⟩
/-- `head` of RED_Q_HEAD (R383). -/
abbrev redQHead_head : Fld := ⟨0, 16, .ro, 0⟩
/-- `eos_wait` of RED_Q_HEAD (R383). -/
abbrev redQHead_eosWait : Fld := ⟨16, 1, .ro, 0⟩
/-- `halted` of RED_Q_HEAD (R383). -/
abbrev redQHead_halted : Fld := ⟨17, 1, .ro, 0⟩
/-- `base_lo` of RED_CQ_BASE_LO (R383). -/
abbrev redCqBaseLo_baseLo : Fld := ⟨5, 27, .rw, 0⟩
/-- `base_hi` of RED_CQ_BASE_HI (R383). -/
abbrev redCqBaseHi_baseHi : Fld := ⟨0, 16, .rw, 0⟩
/-- `size` of RED_CQ_BASE_HI (R383). -/
abbrev redCqBaseHi_size : Fld := ⟨16, 16, .rw, 0⟩
/-- `tail` of RED_CQ_TAIL (R383). -/
abbrev redCqTail_tail : Fld := ⟨0, 16, .ro, 0⟩
/-- `head` of RED_CQ_HEAD (R383). -/
abbrev redCqHead_head : Fld := ⟨0, 16, .rw, 0⟩
/-- `rejected` of RED_Q_ERR (R383). -/
abbrev redQErr_rejected : Fld := ⟨0, 1, .w1c, 0⟩
/-- `cfg_write_ignored` of RED_Q_ERR (R383). -/
abbrev redQErr_cfgWriteIgnored : Fld := ⟨1, 1, .w1c, 0⟩
/-- `overrun` of RED_ERR (R383). -/
abbrev redErr_overrun : Fld := ⟨0, 1, .w1c, 0⟩
/-- `epoch_mismatch` of RED_ERR (R383). -/
abbrev redErr_epochMismatch : Fld := ⟨1, 1, .w1c, 0⟩
/-- `poisoned` of RED_ERR (R383). -/
abbrev redErr_poisoned : Fld := ⟨2, 1, .w1c, 0⟩
/-- `abort_seen` of RED_ERR (R383). -/
abbrev redErr_abortSeen : Fld := ⟨3, 1, .w1c, 0⟩
/-- `held` of RED_HELD (R383). -/
abbrev redHeld_held : Fld := ⟨0, 16, .ro, 0⟩
/-- `busy` of RED_BUSY (R383). -/
abbrev redBusy_busy : Fld := ⟨0, 32, .rc, 0⟩
/-- `saturated` of RED_SAT_CNT (R383). -/
abbrev redSatCnt_saturated : Fld := ⟨0, 32, .rc, 0⟩
/-- `base` of RED_GRP_BASE_LO (R383). -/
abbrev redGrpBaseLo_base : Fld := ⟨0, 32, .rw, 0⟩
/-- `base` of RED_GRP_BASE_HI (R383). -/
abbrev redGrpBaseHi_base : Fld := ⟨0, 32, .rw, 0⟩
/-- `cfg_write_ignored` of RED_GRP_ERR (R383). -/
abbrev redGrpErr_cfgWriteIgnored : Fld := ⟨0, 1, .w1c, 0⟩
/-- `enable` of PLYN_PORT_CFG (R421). -/
abbrev plynPortCfg_enable : Fld := ⟨0, 1, .rw, 0⟩
/-- `dateline` of PLYN_PORT_CFG (R421). -/
abbrev plynPortCfg_dateline : Fld := ⟨1, 1, .rw, 0⟩
/-- `rot_en` of PLYN_PORT_CFG (R421). -/
abbrev plynPortCfg_rotEn : Fld := ⟨2, 1, .rw, 1⟩
/-- `state` of PLYN_PORT_STAT (R421). -/
abbrev plynPortStat_state : Fld := ⟨0, 3, .ro, 0⟩
/-- `tx_half` of PLYN_PORT_STAT (R421). -/
abbrev plynPortStat_txHalf : Fld := ⟨3, 1, .ro, 0⟩
/-- `rx_half` of PLYN_PORT_STAT (R421). -/
abbrev plynPortStat_rxHalf : Fld := ⟨4, 1, .ro, 0⟩
/-- `cause` of PLYN_PORT_STAT (R421). -/
abbrev plynPortStat_cause : Fld := ⟨8, 8, .ro, 0⟩
/-- `spare` of PLYN_LANE_MAP_TX (R421). -/
abbrev plynLaneMapTx_spare : Fld := ⟨0, 5, .ro, 0x10⟩
/-- `spare_ready` of PLYN_LANE_MAP_TX (R421). -/
abbrev plynLaneMapTx_spareReady : Fld := ⟨5, 1, .ro, 0⟩
/-- `rotating` of PLYN_LANE_MAP_TX (R421). -/
abbrev plynLaneMapTx_rotating : Fld := ⟨6, 1, .ro, 0⟩
/-- `failed` of PLYN_LANE_MAP_TX (R421). -/
abbrev plynLaneMapTx_failed : Fld := ⟨8, 17, .ro, 0⟩
/-- `spare` of PLYN_LANE_MAP_RX (R421). -/
abbrev plynLaneMapRx_spare : Fld := ⟨0, 5, .ro, 0x10⟩
/-- `spare_ready` of PLYN_LANE_MAP_RX (R421). -/
abbrev plynLaneMapRx_spareReady : Fld := ⟨5, 1, .ro, 0⟩
/-- `rotating` of PLYN_LANE_MAP_RX (R421). -/
abbrev plynLaneMapRx_rotating : Fld := ⟨6, 1, .ro, 0⟩
/-- `failed` of PLYN_LANE_MAP_RX (R421). -/
abbrev plynLaneMapRx_failed : Fld := ⟨8, 17, .ro, 0⟩
/-- `lane_fault` of PLYN_ERR (R421). -/
abbrev plynErr_laneFault : Fld := ⟨0, 1, .w1c, 0⟩
/-- `half_width` of PLYN_ERR (R421). -/
abbrev plynErr_halfWidth : Fld := ⟨1, 1, .w1c, 0⟩
/-- `quarantined` of PLYN_ERR (R421). -/
abbrev plynErr_quarantined : Fld := ⟨2, 1, .w1c, 0⟩
/-- `violation` of PLYN_ERR (R421). -/
abbrev plynErr_violation : Fld := ⟨3, 1, .w1c, 0⟩
/-- `spare_failed` of PLYN_ERR (R421). -/
abbrev plynErr_spareFailed : Fld := ⟨4, 1, .w1c, 0⟩
/-- `rot_abandoned` of PLYN_ERR (R421). -/
abbrev plynErr_rotAbandoned : Fld := ⟨5, 1, .w1c, 0⟩
/-- `count` of PLYN_CRC_CNT (R421). -/
abbrev plynCrcCnt_count : Fld := ⟨0, 32, .rc, 0⟩
/-- `count` of PLYN_REPLAY_CNT (R421). -/
abbrev plynReplayCnt_count : Fld := ⟨0, 32, .rc, 0⟩
/-- `last_code` of PLYN_VIOL_LOG (R421). -/
abbrev plynViolLog_lastCode : Fld := ⟨0, 8, .ro, 0⟩
/-- `in_window` of PLYN_VIOL_LOG (R421). -/
abbrev plynViolLog_inWindow : Fld := ⟨8, 8, .ro, 0⟩
/-- `total` of PLYN_VIOL_LOG (R421). -/
abbrev plynViolLog_total : Fld := ⟨16, 16, .rc, 0⟩
/-- `serial` of PLYN_NBR_SERIAL_LO (R421). -/
abbrev plynNbrSerialLo_serial : Fld := ⟨0, 32, .ro, 0⟩
/-- `serial` of PLYN_NBR_SERIAL_HI (R421). -/
abbrev plynNbrSerialHi_serial : Fld := ⟨0, 32, .ro, 0⟩
/-- `chain_index` of PLYN_NBR_INFO (R421). -/
abbrev plynNbrInfo_chainIndex : Fld := ⟨0, 12, .ro, 0⟩
/-- `port_code` of PLYN_NBR_INFO (R421). -/
abbrev plynNbrInfo_portCode : Fld := ⟨12, 3, .ro, 0⟩
/-- `fab_valid` of PLYN_NBR_INFO (R421). -/
abbrev plynNbrInfo_fabValid : Fld := ⟨15, 1, .ro, 0⟩
/-- `fab_addr` of PLYN_NBR_INFO (R421). -/
abbrev plynNbrInfo_fabAddr : Fld := ⟨16, 16, .ro, 0⟩
/-- `viol_limit` of PLYN_VIOL_CFG (R421). -/
abbrev plynViolCfg_violLimit : Fld := ⟨0, 8, .rw, 8⟩
/-- `viol_window` of PLYN_VIOL_CFG (R421). -/
abbrev plynViolCfg_violWindow : Fld := ⟨8, 16, .rw, 0x64⟩
/-- `addr` of PLYN_FAB_ADDR (R421). -/
abbrev plynFabAddr_addr : Fld := ⟨0, 16, .rw, 0⟩
/-- `valid` of PLYN_FAB_ADDR (R421). -/
abbrev plynFabAddr_valid : Fld := ⟨16, 1, .rw, 0⟩
/-- `t_size` of PLYN_AXIS_SIZE (R421). -/
abbrev plynAxisSize_tSize : Fld := ⟨0, 4, .rw, 1⟩
/-- `s_size` of PLYN_AXIS_SIZE (R421). -/
abbrev plynAxisSize_sSize : Fld := ⟨4, 7, .rw, 1⟩
/-- `d_size` of PLYN_AXIS_SIZE (R421). -/
abbrev plynAxisSize_dSize : Fld := ⟨11, 8, .rw, 1⟩
/-- `interval` of PLYN_ROT_CFG (R421). -/
abbrev plynRotCfg_interval : Fld := ⟨0, 24, .rw, 0x186a0⟩
/-- `min_margin` of PLYN_ROT_CFG (R421). -/
abbrev plynRotCfg_minMargin : Fld := ⟨24, 4, .rw, 4⟩
/-- `ticks` of PLYN_REQ_TIMEOUT (R421). -/
abbrev plynReqTimeout_ticks : Fld := ⟨0, 32, .rw, 0xf4240⟩
/-- `count` of PLYN_UNROUTABLE (R421). -/
abbrev plynUnroutable_count : Fld := ⟨0, 32, .rc, 0⟩
/-- `count` of PLYN_DUP_TOKEN (R421). -/
abbrev plynDupToken_count : Fld := ⟨0, 32, .rc, 0⟩
/-- `entries` of PLYN_RT_T (R421). -/
abbrev plynRtT_entries : Fld := ⟨0, 32, .rw, 0⟩
/-- `entries` of PLYN_RT_S (R421). -/
abbrev plynRtS_entries : Fld := ⟨0, 32, .rw, 0⟩
/-- `entries` of PLYN_RT_D (R421). -/
abbrev plynRtD_entries : Fld := ⟨0, 32, .rw, 0⟩
/-- `index` of CTL_SEAM_STAT (R421). -/
abbrev ctlSeamStat_index : Fld := ⟨0, 12, .ro, 0⟩
/-- `valid` of CTL_SEAM_STAT (R421). -/
abbrev ctlSeamStat_valid : Fld := ⟨12, 1, .ro, 0⟩
/-- `head` of CTL_SEAM_STAT (R421). -/
abbrev ctlSeamStat_head : Fld := ⟨13, 1, .ro, 0⟩
/-- `mismatch` of CTL_SEAM_STAT (R421). -/
abbrev ctlSeamStat_mismatch : Fld := ⟨14, 1, .w1c, 0⟩
/-- `lost` of CTL_SEAM_STAT (R421). -/
abbrev ctlSeamStat_lost : Fld := ⟨15, 1, .w1c, 0⟩
/-- `index_overflow` of CTL_SEAM_STAT (R421). -/
abbrev ctlSeamStat_indexOverflow : Fld := ⟨16, 1, .w1c, 0⟩
/-- `bad_frames` of CTL_SEAM_STAT (R421). -/
abbrev ctlSeamStat_badFrames : Fld := ⟨24, 8, .rc, 0⟩
/-- `link_up` of HOST_LINK_STAT (R438). -/
abbrev hostLinkStat_linkUp : Fld := ⟨0, 1, .ro, 0⟩
/-- `ipv4_set` of HOST_LINK_STAT (R438). -/
abbrev hostLinkStat_ipv4Set : Fld := ⟨1, 1, .ro, 0⟩
/-- `ipv6_set` of HOST_LINK_STAT (R438). -/
abbrev hostLinkStat_ipv6Set : Fld := ⟨2, 1, .ro, 0⟩
/-- `qp_error` of HOST_ERR (R438). -/
abbrev hostErr_qpError : Fld := ⟨0, 1, .w1c, 0⟩
/-- `belpel_bad` of HOST_ERR (R438). -/
abbrev hostErr_belpelBad : Fld := ⟨1, 1, .w1c, 0⟩
/-- `link_lost` of HOST_ERR (R438). -/
abbrev hostErr_linkLost : Fld := ⟨2, 1, .w1c, 0⟩
/-- `port` of HOST_UDP_PORT (R438). -/
abbrev hostUdpPort_port : Fld := ⟨0, 16, .rw, 0xa2e4⟩
/-- `roce_prio` of HOST_PFC_CFG (R438). -/
abbrev hostPfcCfg_rocePrio : Fld := ⟨0, 3, .rw, 3⟩
/-- `belpel_prio` of HOST_PFC_CFG (R438). -/
abbrev hostPfcCfg_belpelPrio : Fld := ⟨3, 3, .rw, 6⟩
/-- `pfc_en` of HOST_PFC_CFG (R438). -/
abbrev hostPfcCfg_pfcEn : Fld := ⟨6, 1, .rw, 1⟩
/-- `vlan_id` of HOST_PFC_CFG (R438). -/
abbrev hostPfcCfg_vlanId : Fld := ⟨8, 12, .rw, 0⟩
/-- `ticks` of HOST_EVT_RETRY (R438). -/
abbrev hostEvtRetry_ticks : Fld := ⟨0, 32, .rw, 0x186a0⟩
/-- `count` of HOST_RX_BAD (R438). -/
abbrev hostRxBad_count : Fld := ⟨0, 32, .rc, 0⟩
/-- `count` of HOST_BELPEL_BAD (R438). -/
abbrev hostBelpelBad_count : Fld := ⟨0, 32, .rc, 0⟩
/-- `count` of HOST_BELPEL_STALE (R438). -/
abbrev hostBelpelStale_count : Fld := ⟨0, 32, .rc, 0⟩
/-- `count` of HOST_QP_ERR_CNT (R438). -/
abbrev hostQpErrCnt_count : Fld := ⟨0, 32, .rc, 0⟩
/-- `reason` of HOST_BELPEL_LOG (R438). -/
abbrev hostBelpelLog_reason : Fld := ⟨0, 8, .ro, 0⟩
/-- `mailbox` of HOST_BELPEL_LOG (R438). -/
abbrev hostBelpelLog_mailbox : Fld := ⟨8, 6, .ro, 0⟩
/-- `addr` of HOST_BELPEL_SRC (R438). -/
abbrev hostBelpelSrc_addr : Fld := ⟨0, 32, .ro, 0⟩
/-- `cycles` of CTL_CTX_ACT (R476). -/
abbrev ctlCtxAct_cycles : Fld := ⟨0, 32, .ro, 0⟩
/-- `cycles` of CTL_CTX_LOST (R476). -/
abbrev ctlCtxLost_cycles : Fld := ⟨0, 32, .ro, 0⟩
/-- `ratio` of CTL_CTX_INTF (R476). -/
abbrev ctlCtxIntf_ratio : Fld := ⟨0, 16, .ro, 0⟩
/-- `promotions` of CTL_CTX_PROMO (R476). -/
abbrev ctlCtxPromo_promotions : Fld := ⟨0, 16, .rc, 0⟩
/-- `state` of CTL_CTX_STATE (R476). -/
abbrev ctlCtxState_state : Fld := ⟨0, 2, .ro, 0⟩
/-- `member` of CTL_CTX_STATE (R476). -/
abbrev ctlCtxState_member : Fld := ⟨2, 1, .ro, 0⟩
/-- `cause` of CTL_CTX_STATE (R476). -/
abbrev ctlCtxState_cause : Fld := ⟨8, 8, .ro, 0⟩
/-- `mode` of CTL_SNAP_SCHED (R493). -/
abbrev ctlSnapSched_mode : Fld := ⟨0, 2, .ro, 0⟩
/-- `interval` of CTL_SNAP_SCHED (R493). -/
abbrev ctlSnapSched_interval : Fld := ⟨2, 8, .ro, 0⟩
/-- `computed` of CTL_SNAP_SCHED (R493). -/
abbrev ctlSnapSched_computed : Fld := ⟨10, 1, .ro, 0⟩
/-- `seconds` of CTL_SNAP_MTBF (R493). -/
abbrev ctlSnapMtbf_seconds : Fld := ⟨0, 32, .ro, 0⟩
/-- `entry` of CTL_REFILL_STAT (R493). -/
abbrev ctlRefillStat_entry : Fld := ⟨0, 6, .ro, 0⟩
/-- `busy` of CTL_REFILL_STAT (R493). -/
abbrev ctlRefillStat_busy : Fld := ⟨6, 1, .ro, 0⟩
/-- `failed` of CTL_REFILL_STAT (R493). -/
abbrev ctlRefillStat_failed : Fld := ⟨7, 1, .w1c, 0⟩
/-- `superseded` of CTL_REFILL_STAT (R493). -/
abbrev ctlRefillStat_superseded : Fld := ⟨8, 1, .w1c, 0⟩
/-- `step` of CTL_MIRROR_STEP (R493). -/
abbrev ctlMirrorStep_step : Fld := ⟨0, 32, .ro, 0⟩
/-- `mask` of IRQ_SRC_CFG (R507). -/
abbrev irqSrcCfg_mask : Fld := ⟨0, 1, .rw, 1⟩
/-- `host_mask` of IRQ_SRC_CFG (R507). -/
abbrev irqSrcCfg_hostMask : Fld := ⟨1, 1, .rw, 1⟩
/-- `sense` of IRQ_SRC_CFG (R507). -/
abbrev irqSrcCfg_sense : Fld := ⟨2, 1, .rw, 0⟩
/-- `target` of IRQ_SRC_CFG (R507). -/
abbrev irqSrcCfg_target : Fld := ⟨3, 3, .rw, 0⟩
/-- `merge` of IRQ_SRC_CFG (R507). -/
abbrev irqSrcCfg_merge : Fld := ⟨6, 2, .rw, 0⟩
/-- `forwarded` of IRQ_SRC_CFG (R507). -/
abbrev irqSrcCfg_forwarded : Fld := ⟨8, 1, .rw, 0⟩
/-- `state` of IRQ_SRC_STAT (R507). -/
abbrev irqSrcStat_state : Fld := ⟨0, 2, .ro, 0⟩
/-- `condition` of IRQ_SRC_STAT (R507). -/
abbrev irqSrcStat_condition : Fld := ⟨2, 1, .ro, 0⟩
/-- `spurious` of IRQ_SRC_STAT (R507). -/
abbrev irqSrcStat_spurious : Fld := ⟨16, 16, .rc, 0⟩
/-- `source` of IRQ_CLAIM (R507). -/
abbrev irqClaim_source : Fld := ⟨0, 10, .ro, 0⟩
/-- `valid` of IRQ_CLAIM (R507). -/
abbrev irqClaim_valid : Fld := ⟨31, 1, .ro, 0⟩
/-- `source` of IRQ_COMPLETE (R507). -/
abbrev irqComplete_source : Fld := ⟨0, 10, .wo, 0⟩
/-- `arg` of IRQ_ARG_LO (R507). -/
abbrev irqArgLo_arg : Fld := ⟨0, 32, .ro, 0⟩
/-- `arg` of IRQ_ARG_HI (R507). -/
abbrev irqArgHi_arg : Fld := ⟨0, 32, .ro, 0⟩
/-- `lock` of IRQ_LOCK (R507). -/
abbrev irqLock_lock : Fld := ⟨0, 1, .w1s, 0⟩
/-- `fast_stable` of CLK_SRC_STAT (R531). -/
abbrev clkSrcStat_fastStable : Fld := ⟨0, 1, .ro, 0⟩
/-- `xa_stable` of CLK_SRC_STAT (R531). -/
abbrev clkSrcStat_xaStable : Fld := ⟨1, 1, .ro, 0⟩
/-- `xb_stable` of CLK_SRC_STAT (R531). -/
abbrev clkSrcStat_xbStable : Fld := ⟨2, 1, .ro, 0⟩
/-- `active_sel` of CLK_SRC_STAT (R531). -/
abbrev clkSrcStat_activeSel : Fld := ⟨3, 1, .ro, 0⟩
/-- `coasting` of CLK_SRC_STAT (R531). -/
abbrev clkSrcStat_coasting : Fld := ⟨4, 1, .ro, 0⟩
/-- `src_lost` of CLK_SRC_STAT (R531). -/
abbrev clkSrcStat_srcLost : Fld := ⟨5, 1, .w1c, 0⟩
/-- `both_lost` of CLK_SRC_STAT (R531). -/
abbrev clkSrcStat_bothLost : Fld := ⟨6, 1, .ro, 0⟩
/-- `sel_refused` of CLK_SRC_STAT (R531). -/
abbrev clkSrcStat_selRefused : Fld := ⟨7, 1, .w1c, 0⟩
/-- `sel` of CLK_SEL (R531). -/
abbrev clkSel_sel : Fld := ⟨0, 1, .rw, 0⟩
/-- `depth` of CLK_SSC (R531). -/
abbrev clkSsc_depth : Fld := ⟨0, 5, .ro, 0⟩
/-- `rate_khz` of CLK_SSC (R531). -/
abbrev clkSsc_rateKhz : Fld := ⟨5, 6, .ro, 0x1e⟩
/-- `throttle_c` of CLK_THERM_CFG (R531). -/
abbrev clkThermCfg_throttleC : Fld := ⟨0, 8, .rw, 0x64⟩
/-- `hyst_c` of CLK_THERM_CFG (R531). -/
abbrev clkThermCfg_hystC : Fld := ⟨8, 4, .rw, 5⟩
/-- `trip_c` of CLK_THERM_CFG (R531). -/
abbrev clkThermCfg_tripC : Fld := ⟨16, 8, .rw, 0x6e⟩
/-- `levels` of CLK_THROTTLE (R531). -/
abbrev clkThrottle_levels : Fld := ⟨0, 16, .ro, 0⟩
/-- `steps` of CLK_THROTTLE (R531). -/
abbrev clkThrottle_steps : Fld := ⟨16, 16, .rc, 0⟩
/-- `cause` of CLK_RESET_CAUSE (R531). -/
abbrev clkResetCause_cause : Fld := ⟨0, 3, .ro, 0⟩
/-- `locked` of CLK_LOOP_STAT (R531). -/
abbrev clkLoopStat_locked : Fld := ⟨0, 1, .ro, 0⟩
/-- `coasting` of CLK_LOOP_STAT (R531). -/
abbrev clkLoopStat_coasting : Fld := ⟨1, 1, .ro, 0⟩
/-- `ref` of CLK_LOOP_STAT (R531). -/
abbrev clkLoopStat_ref : Fld := ⟨2, 1, .ro, 0⟩
/-- `lock_losses` of CLK_LOOP_STAT (R531). -/
abbrev clkLoopStat_lockLosses : Fld := ⟨8, 8, .rc, 0⟩
/-- `slot` of SEC_BOOT_STAT (R546). -/
abbrev secBootStat_slot : Fld := ⟨0, 1, .ro, 0⟩
/-- `fallback` of SEC_BOOT_STAT (R546). -/
abbrev secBootStat_fallback : Fld := ⟨1, 1, .ro, 0⟩
/-- `staged` of SEC_BOOT_STAT (R546). -/
abbrev secBootStat_staged : Fld := ⟨2, 1, .ro, 0⟩
/-- `halted` of SEC_BOOT_STAT (R546). -/
abbrev secBootStat_halted : Fld := ⟨3, 1, .ro, 0⟩
/-- `trial_expired` of SEC_BOOT_STAT (R546). -/
abbrev secBootStat_trialExpired : Fld := ⟨4, 1, .ro, 0⟩
/-- `last_fail` of SEC_BOOT_STAT (R546). -/
abbrev secBootStat_lastFail : Fld := ⟨8, 3, .ro, 0⟩
/-- `floor` of SEC_FLOOR (R546). -/
abbrev secFloor_floor : Fld := ⟨0, 7, .ro, 0⟩
/-- `revoked` of SEC_FLOOR (R546). -/
abbrev secFloor_revoked : Fld := ⟨8, 4, .ro, 0⟩
/-- `serial` of SEC_SERIAL_LO (R546). -/
abbrev secSerialLo_serial : Fld := ⟨0, 32, .ro, 0⟩
/-- `serial` of SEC_SERIAL_HI (R546). -/
abbrev secSerialHi_serial : Fld := ⟨0, 32, .ro, 0⟩
/-- `value` of SEC_MR (R546). -/
abbrev secMr_value : Fld := ⟨0, 32, .ro, 0⟩
/-- `last_ir` of TST_TAP_STAT (R562). -/
abbrev tstTapStat_lastIr : Fld := ⟨0, 8, .ro, 1⟩
/-- `test_mode` of TST_TAP_STAT (R562). -/
abbrev tstTapStat_testMode : Fld := ⟨8, 1, .ro, 0⟩
/-- `flash_external` of TST_TAP_STAT (R562). -/
abbrev tstTapStat_flashExternal : Fld := ⟨9, 1, .ro, 0⟩

/-- The definition of each register. Reserved bits have no field: they read 0 and ignore writes (R8). -/
def regDef (r : RegId) : RegDef :=
  match r with
  | .ctlIslandReady => ⟨.belfry, 0x40, 0, 1, 0x1, [ctlIslandReady_cupolaReady, ctlIslandReady_drumReady, ctlIslandReady_hbmGroupReady, ctlIslandReady_codecReady, ctlIslandReady_hostSerdesReady, ctlIslandReady_portReady]⟩
  | .ctlStepNumber => ⟨.belfry, 0x100, 0, 1, 0x1, [ctlStepNumber_step]⟩
  | .ctlStepState => ⟨.belfry, 0x104, 0, 1, 0x1, [ctlStepState_state, ctlStepState_lastSkipped, ctlStepState_isRoot, ctlStepState_layoutEpoch]⟩
  | .ctlBankCurrent => ⟨.belfry, 0x108, 0, 1, 0x1, [ctlBankCurrent_currentB]⟩
  | .ctlStepTimeout => ⟨.belfry, 0x10C, 0, 1, 0x1, [ctlStepTimeout_ticks]⟩
  | .ctlStepErr => ⟨.belfry, 0x110, 0, 1, 0x1, [ctlStepErr_tokenMismatch, ctlStepErr_epochWriteRejected, ctlStepErr_timeout, ctlStepErr_aborted]⟩
  | .ctlRefclkLo => ⟨.belfry, 0x118, 0, 1, 0x1, [ctlRefclkLo_ticks]⟩
  | .ctlRefclkHi => ⟨.belfry, 0x11C, 0, 1, 0x1, [ctlRefclkHi_ticks]⟩
  | .ctlSrSeedLo => ⟨.belfry, 0x120, 0, 1, 0x1, [ctlSrSeedLo_seedLo]⟩
  | .ctlSrSeedHi => ⟨.belfry, 0x124, 0, 1, 0x1, [ctlSrSeedHi_seedHi]⟩
  | .mtxQBaseLo => ⟨.cupola, 0x10000, 64, 16, 0xFF, [mtxQBaseLo_baseLo]⟩
  | .mtxQBaseHi => ⟨.cupola, 0x10004, 64, 16, 0xFF, [mtxQBaseHi_baseHi, mtxQBaseHi_size]⟩
  | .mtxQTail => ⟨.cupola, 0x10008, 64, 16, 0xFF, [mtxQTail_tail]⟩
  | .mtxQHead => ⟨.cupola, 0x1000C, 64, 16, 0xFF, [mtxQHead_head, mtxQHead_eosWait, mtxQHead_halted]⟩
  | .mtxCqBaseLo => ⟨.cupola, 0x10010, 64, 16, 0xFF, [mtxCqBaseLo_baseLo]⟩
  | .mtxCqBaseHi => ⟨.cupola, 0x10014, 64, 16, 0xFF, [mtxCqBaseHi_baseHi, mtxCqBaseHi_size]⟩
  | .mtxCqTail => ⟨.cupola, 0x10018, 64, 16, 0xFF, [mtxCqTail_tail]⟩
  | .mtxCqHead => ⟨.cupola, 0x1001C, 64, 16, 0xFF, [mtxCqHead_head]⟩
  | .mtxQErr => ⟨.cupola, 0x10020, 64, 16, 0xFF, [mtxQErr_rejected, mtxQErr_cfgWriteIgnored, mtxQErr_metaError]⟩
  | .mtxEccCorr => ⟨.cupola, 0x100, 0, 1, 0xFF, [mtxEccCorr_corrected]⟩
  | .seqBnd => ⟨.cupola, 0x20000, 4, 64, 0xFF, [seqBnd_bound]⟩
  | .seqSpillTotal => ⟨.cupola, 0x200, 0, 1, 0xFF, [seqSpillTotal_spills]⟩
  | .seqIssueStat => ⟨.cupola, 0x20100, 4, 16, 0xFF, [seqIssueStat_lastStatus, seqIssueStat_accSpaceSeen, seqIssueStat_spillSeen]⟩
  | .slvQBaseLo => ⟨.cupola, 0x30000, 64, 16, 0xFF, [slvQBaseLo_baseLo]⟩
  | .slvQBaseHi => ⟨.cupola, 0x30004, 64, 16, 0xFF, [slvQBaseHi_baseHi, slvQBaseHi_size]⟩
  | .slvQTail => ⟨.cupola, 0x30008, 64, 16, 0xFF, [slvQTail_tail]⟩
  | .slvQHead => ⟨.cupola, 0x3000C, 64, 16, 0xFF, [slvQHead_head, slvQHead_eosWait, slvQHead_halted]⟩
  | .slvCqBaseLo => ⟨.cupola, 0x30010, 64, 16, 0xFF, [slvCqBaseLo_baseLo]⟩
  | .slvCqBaseHi => ⟨.cupola, 0x30014, 64, 16, 0xFF, [slvCqBaseHi_baseHi, slvCqBaseHi_size]⟩
  | .slvCqTail => ⟨.cupola, 0x30018, 64, 16, 0xFF, [slvCqTail_tail]⟩
  | .slvCqHead => ⟨.cupola, 0x3001C, 64, 16, 0xFF, [slvCqHead_head]⟩
  | .slvQErr => ⟨.cupola, 0x30020, 64, 16, 0xFF, [slvQErr_rejected, slvQErr_cfgWriteIgnored, slvQErr_tailIgnored]⟩
  | .slvBusy => ⟨.cupola, 0x300, 0, 1, 0xFF, [slvBusy_busy]⟩
  | .vecCtxCfg => ⟨.cupola, 0x40000, 32, 16, 0xFF, [vecCtxCfg_slotb]⟩
  | .vecThrRange => ⟨.cupola, 0x40004, 32, 16, 0xFF, [vecThrRange_baseUnits, vecThrRange_countUnits]⟩
  | .vecThrLive => ⟨.cupola, 0x40008, 32, 16, 0xFF, [vecThrLive_live]⟩
  | .vecThrRun => ⟨.cupola, 0x4000C, 32, 16, 0xFF, [vecThrRun_running]⟩
  | .vecErr => ⟨.cupola, 0x40010, 32, 16, 0xFF, [vecErr_cfgWriteIgnored, vecErr_spawnRefused, vecErr_barinitRefused]⟩
  | .vecSeatBusy => ⟨.cupola, 0x400, 0, 1, 0xFF, [vecSeatBusy_seatCycles]⟩
  | .atnPoolBaseLo => ⟨.cupola, 0x50000, 32, 16, 0xFF, [atnPoolBaseLo_baseLo]⟩
  | .atnPoolBaseHi => ⟨.cupola, 0x50004, 32, 16, 0xFF, [atnPoolBaseHi_baseHi, atnPoolBaseHi_size]⟩
  | .atnPoolTail => ⟨.cupola, 0x50008, 32, 16, 0xFF, [atnPoolTail_tail]⟩
  | .atnPoolHead => ⟨.cupola, 0x5000C, 32, 16, 0xFF, [atnPoolHead_head]⟩
  | .atnPageTimeout => ⟨.cupola, 0x50010, 32, 16, 0xFF, [atnPageTimeout_ticks]⟩
  | .atnStarved => ⟨.cupola, 0x50014, 32, 16, 0xFF, [atnStarved_waiting]⟩
  | .atnErr => ⟨.cupola, 0x50018, 32, 16, 0xFF, [atnErr_cfgWriteIgnored, atnErr_starvedSeen, atnErr_pageTimeout]⟩
  | .atnBiasValidLo => ⟨.cupola, 0x500, 0, 1, 0xFF, [atnBiasValidLo_valid]⟩
  | .atnBiasValidHi => ⟨.cupola, 0x504, 0, 1, 0xFF, [atnBiasValidHi_valid]⟩
  | .atnEmptyRows => ⟨.cupola, 0x508, 0, 1, 0xFF, [atnEmptyRows_emptyRows]⟩
  | .cdcDqBaseLo => ⟨.codec, 0x10000, 64, 16, 0x1, [cdcDqBaseLo_baseLo]⟩
  | .cdcDqBaseHi => ⟨.codec, 0x10004, 64, 16, 0x1, [cdcDqBaseHi_baseHi, cdcDqBaseHi_size]⟩
  | .cdcDqTail => ⟨.codec, 0x10008, 64, 16, 0x1, [cdcDqTail_tail]⟩
  | .cdcDqHead => ⟨.codec, 0x1000C, 64, 16, 0x1, [cdcDqHead_head, cdcDqHead_eosWait, cdcDqHead_halted]⟩
  | .cdcDcqBaseLo => ⟨.codec, 0x10010, 64, 16, 0x1, [cdcDcqBaseLo_baseLo]⟩
  | .cdcDcqBaseHi => ⟨.codec, 0x10014, 64, 16, 0x1, [cdcDcqBaseHi_baseHi, cdcDcqBaseHi_size]⟩
  | .cdcDcqTail => ⟨.codec, 0x10018, 64, 16, 0x1, [cdcDcqTail_tail]⟩
  | .cdcDcqHead => ⟨.codec, 0x1001C, 64, 16, 0x1, [cdcDcqHead_head]⟩
  | .cdcDqErr => ⟨.codec, 0x10020, 64, 16, 0x1, [cdcDqErr_rejected, cdcDqErr_cfgWriteIgnored, cdcDqErr_dataSeen]⟩
  | .cdcEqBaseLo => ⟨.codec, 0x20000, 64, 16, 0x1, [cdcEqBaseLo_baseLo]⟩
  | .cdcEqBaseHi => ⟨.codec, 0x20004, 64, 16, 0x1, [cdcEqBaseHi_baseHi, cdcEqBaseHi_size]⟩
  | .cdcEqTail => ⟨.codec, 0x20008, 64, 16, 0x1, [cdcEqTail_tail]⟩
  | .cdcEqHead => ⟨.codec, 0x2000C, 64, 16, 0x1, [cdcEqHead_head, cdcEqHead_eosWait, cdcEqHead_halted]⟩
  | .cdcEcqBaseLo => ⟨.codec, 0x20010, 64, 16, 0x1, [cdcEcqBaseLo_baseLo]⟩
  | .cdcEcqBaseHi => ⟨.codec, 0x20014, 64, 16, 0x1, [cdcEcqBaseHi_baseHi, cdcEcqBaseHi_size]⟩
  | .cdcEcqTail => ⟨.codec, 0x20018, 64, 16, 0x1, [cdcEcqTail_tail]⟩
  | .cdcEcqHead => ⟨.codec, 0x2001C, 64, 16, 0x1, [cdcEcqHead_head]⟩
  | .cdcEqErr => ⟨.codec, 0x20020, 64, 16, 0x1, [cdcEqErr_rejected, cdcEqErr_cfgWriteIgnored, cdcEqErr_dataSeen]⟩
  | .cdcMode => ⟨.codec, 0x0, 0, 1, 0x1, [cdcMode_maint, cdcMode_maintPending]⟩
  | .cdcDropCnt => ⟨.codec, 0x10, 4, 2, 0x1, [cdcDropCnt_dropped]⟩
  | .cdcStreamErrCnt => ⟨.codec, 0x20, 4, 8, 0x1, [cdcStreamErrCnt_errors]⟩
  | .memMvBaseLo => ⟨.drum, 0x10000, 64, 16, 0xFF, [memMvBaseLo_baseLo]⟩
  | .memMvBaseHi => ⟨.drum, 0x10004, 64, 16, 0xFF, [memMvBaseHi_baseHi, memMvBaseHi_size]⟩
  | .memMvTail => ⟨.drum, 0x10008, 64, 16, 0xFF, [memMvTail_tail]⟩
  | .memMvHead => ⟨.drum, 0x1000C, 64, 16, 0xFF, [memMvHead_head, memMvHead_eosWait, memMvHead_halted]⟩
  | .memMvcBaseLo => ⟨.drum, 0x10010, 64, 16, 0xFF, [memMvcBaseLo_baseLo]⟩
  | .memMvcBaseHi => ⟨.drum, 0x10014, 64, 16, 0xFF, [memMvcBaseHi_baseHi, memMvcBaseHi_size]⟩
  | .memMvcTail => ⟨.drum, 0x10018, 64, 16, 0xFF, [memMvcTail_tail]⟩
  | .memMvcHead => ⟨.drum, 0x1001C, 64, 16, 0xFF, [memMvcHead_head]⟩
  | .memMvErr => ⟨.drum, 0x10020, 64, 16, 0xFF, [memMvErr_rejected, memMvErr_cfgWriteIgnored, memMvErr_partial]⟩
  | .memLocalCfg => ⟨.drum, 0x0, 0, 1, 0xFF, [memLocalCfg_localGib]⟩
  | .memErr => ⟨.drum, 0x4, 0, 1, 0xFF, [memErr_cfgWriteIgnored]⟩
  | .memCalCfg => ⟨.drum, 0x10, 0, 1, 0xFF, [memCalCfg_calInterval, memCalCfg_calMinMargin]⟩
  | .memCalStat => ⟨.drum, 0x20, 4, 3, 0xFF, [memCalStat_nextPc, memCalStat_aborts, memCalStat_degraded]⟩
  | .memEccCe => ⟨.drum, 0x40, 4, 3, 0xFF, [memEccCe_corrected]⟩
  | .memSramCe => ⟨.drum, 0x4C, 0, 1, 0xFF, [memSramCe_corrected]⟩
  | .memUeAddrLo => ⟨.drum, 0x50, 0, 1, 0xFF, [memUeAddrLo_addr]⟩
  | .memUeAddrHi => ⟨.drum, 0x54, 0, 1, 0xFF, [memUeAddrHi_addr]⟩
  | .memScrubCfg => ⟨.drum, 0x60, 0, 1, 0xFF, [memScrubCfg_scrubHours]⟩
  | .memMstBaseLo => ⟨.drum, 0x70, 0, 1, 0xFF, [memMstBaseLo_base]⟩
  | .memMstBaseHi => ⟨.drum, 0x74, 0, 1, 0xFF, [memMstBaseHi_base]⟩
  | .memMirrorValidLo => ⟨.drum, 0x80, 0, 1, 0x1, [memMirrorValidLo_entries]⟩
  | .memMirrorValidHi => ⟨.drum, 0x84, 0, 1, 0x1, [memMirrorValidHi_entries]⟩
  | .memMirrorFillLo => ⟨.drum, 0x88, 0, 1, 0x1, [memMirrorFillLo_entries]⟩
  | .memMirrorFillHi => ⟨.drum, 0x8C, 0, 1, 0x1, [memMirrorFillHi_entries]⟩
  | .memSnapStat => ⟨.drum, 0x90, 0, 1, 0x1, [memSnapStat_busy, memSnapStat_failed, memSnapStat_promoted, memSnapStat_lastStep]⟩
  | .redQBaseLo => ⟨.drum, 0x20000, 64, 16, 0xFF, [redQBaseLo_baseLo]⟩
  | .redQBaseHi => ⟨.drum, 0x20004, 64, 16, 0xFF, [redQBaseHi_baseHi, redQBaseHi_size]⟩
  | .redQTail => ⟨.drum, 0x20008, 64, 16, 0xFF, [redQTail_tail]⟩
  | .redQHead => ⟨.drum, 0x2000C, 64, 16, 0xFF, [redQHead_head, redQHead_eosWait, redQHead_halted]⟩
  | .redCqBaseLo => ⟨.drum, 0x20010, 64, 16, 0xFF, [redCqBaseLo_baseLo]⟩
  | .redCqBaseHi => ⟨.drum, 0x20014, 64, 16, 0xFF, [redCqBaseHi_baseHi, redCqBaseHi_size]⟩
  | .redCqTail => ⟨.drum, 0x20018, 64, 16, 0xFF, [redCqTail_tail]⟩
  | .redCqHead => ⟨.drum, 0x2001C, 64, 16, 0xFF, [redCqHead_head]⟩
  | .redQErr => ⟨.drum, 0x20020, 64, 16, 0xFF, [redQErr_rejected, redQErr_cfgWriteIgnored]⟩
  | .redErr => ⟨.drum, 0x100, 0, 1, 0xFF, [redErr_overrun, redErr_epochMismatch, redErr_poisoned, redErr_abortSeen]⟩
  | .redHeld => ⟨.drum, 0x104, 0, 1, 0xFF, [redHeld_held]⟩
  | .redBusy => ⟨.drum, 0x108, 0, 1, 0xFF, [redBusy_busy]⟩
  | .redSatCnt => ⟨.drum, 0x10C, 0, 1, 0xFF, [redSatCnt_saturated]⟩
  | .redGrpBaseLo => ⟨.drum, 0x200, 0, 1, 0x1, [redGrpBaseLo_base]⟩
  | .redGrpBaseHi => ⟨.drum, 0x204, 0, 1, 0x1, [redGrpBaseHi_base]⟩
  | .redGrpErr => ⟨.drum, 0x208, 0, 1, 0x1, [redGrpErr_cfgWriteIgnored]⟩
  | .plynPortCfg => ⟨.drum, 0x30000, 0, 1, 0xBB, [plynPortCfg_enable, plynPortCfg_dateline, plynPortCfg_rotEn]⟩
  | .plynPortStat => ⟨.drum, 0x30004, 0, 1, 0xBB, [plynPortStat_state, plynPortStat_txHalf, plynPortStat_rxHalf, plynPortStat_cause]⟩
  | .plynLaneMapTx => ⟨.drum, 0x30008, 0, 1, 0xBB, [plynLaneMapTx_spare, plynLaneMapTx_spareReady, plynLaneMapTx_rotating, plynLaneMapTx_failed]⟩
  | .plynLaneMapRx => ⟨.drum, 0x3000C, 0, 1, 0xBB, [plynLaneMapRx_spare, plynLaneMapRx_spareReady, plynLaneMapRx_rotating, plynLaneMapRx_failed]⟩
  | .plynErr => ⟨.drum, 0x30010, 0, 1, 0xBB, [plynErr_laneFault, plynErr_halfWidth, plynErr_quarantined, plynErr_violation, plynErr_spareFailed, plynErr_rotAbandoned]⟩
  | .plynCrcCnt => ⟨.drum, 0x30014, 0, 1, 0xBB, [plynCrcCnt_count]⟩
  | .plynReplayCnt => ⟨.drum, 0x30018, 0, 1, 0xBB, [plynReplayCnt_count]⟩
  | .plynViolLog => ⟨.drum, 0x3001C, 0, 1, 0xBB, [plynViolLog_lastCode, plynViolLog_inWindow, plynViolLog_total]⟩
  | .plynNbrSerialLo => ⟨.drum, 0x30020, 0, 1, 0xBB, [plynNbrSerialLo_serial]⟩
  | .plynNbrSerialHi => ⟨.drum, 0x30024, 0, 1, 0xBB, [plynNbrSerialHi_serial]⟩
  | .plynNbrInfo => ⟨.drum, 0x30028, 0, 1, 0xBB, [plynNbrInfo_chainIndex, plynNbrInfo_portCode, plynNbrInfo_fabValid, plynNbrInfo_fabAddr]⟩
  | .plynViolCfg => ⟨.drum, 0x3002C, 0, 1, 0xBB, [plynViolCfg_violLimit, plynViolCfg_violWindow]⟩
  | .plynFabAddr => ⟨.drum, 0x31000, 0, 1, 0xFF, [plynFabAddr_addr, plynFabAddr_valid]⟩
  | .plynAxisSize => ⟨.drum, 0x31004, 0, 1, 0xFF, [plynAxisSize_tSize, plynAxisSize_sSize, plynAxisSize_dSize]⟩
  | .plynRotCfg => ⟨.drum, 0x31008, 0, 1, 0xFF, [plynRotCfg_interval, plynRotCfg_minMargin]⟩
  | .plynReqTimeout => ⟨.drum, 0x3100C, 0, 1, 0xFF, [plynReqTimeout_ticks]⟩
  | .plynUnroutable => ⟨.drum, 0x31010, 0, 1, 0xFF, [plynUnroutable_count]⟩
  | .plynDupToken => ⟨.drum, 0x31014, 0, 1, 0xFF, [plynDupToken_count]⟩
  | .plynRtT => ⟨.drum, 0x31100, 4, 2, 0xFF, [plynRtT_entries]⟩
  | .plynRtS => ⟨.drum, 0x31110, 4, 16, 0xFF, [plynRtS_entries]⟩
  | .plynRtD => ⟨.drum, 0x31150, 4, 32, 0xFF, [plynRtD_entries]⟩
  | .ctlSeamStat => ⟨.belfry, 0x200, 0, 1, 0x1, [ctlSeamStat_index, ctlSeamStat_valid, ctlSeamStat_head, ctlSeamStat_mismatch, ctlSeamStat_lost, ctlSeamStat_indexOverflow, ctlSeamStat_badFrames]⟩
  | .hostLinkStat => ⟨.host, 0x0, 0, 1, 0x1, [hostLinkStat_linkUp, hostLinkStat_ipv4Set, hostLinkStat_ipv6Set]⟩
  | .hostErr => ⟨.host, 0x4, 0, 1, 0x1, [hostErr_qpError, hostErr_belpelBad, hostErr_linkLost]⟩
  | .hostUdpPort => ⟨.host, 0x8, 0, 1, 0x1, [hostUdpPort_port]⟩
  | .hostPfcCfg => ⟨.host, 0xC, 0, 1, 0x1, [hostPfcCfg_rocePrio, hostPfcCfg_belpelPrio, hostPfcCfg_pfcEn, hostPfcCfg_vlanId]⟩
  | .hostEvtRetry => ⟨.host, 0x10, 0, 1, 0x1, [hostEvtRetry_ticks]⟩
  | .hostRxBad => ⟨.host, 0x20, 0, 1, 0x1, [hostRxBad_count]⟩
  | .hostBelpelBad => ⟨.host, 0x24, 0, 1, 0x1, [hostBelpelBad_count]⟩
  | .hostBelpelStale => ⟨.host, 0x28, 0, 1, 0x1, [hostBelpelStale_count]⟩
  | .hostQpErrCnt => ⟨.host, 0x2C, 0, 1, 0x1, [hostQpErrCnt_count]⟩
  | .hostBelpelLog => ⟨.host, 0x30, 0, 1, 0x1, [hostBelpelLog_reason, hostBelpelLog_mailbox]⟩
  | .hostBelpelSrc => ⟨.host, 0x34, 4, 4, 0x1, [hostBelpelSrc_addr]⟩
  | .ctlCtxAct => ⟨.belfry, 0x300, 16, 16, 0x1, [ctlCtxAct_cycles]⟩
  | .ctlCtxLost => ⟨.belfry, 0x304, 16, 16, 0x1, [ctlCtxLost_cycles]⟩
  | .ctlCtxIntf => ⟨.belfry, 0x308, 16, 16, 0x1, [ctlCtxIntf_ratio]⟩
  | .ctlCtxPromo => ⟨.belfry, 0x30C, 16, 16, 0x1, [ctlCtxPromo_promotions]⟩
  | .ctlCtxState => ⟨.belfry, 0x400, 4, 16, 0x1, [ctlCtxState_state, ctlCtxState_member, ctlCtxState_cause]⟩
  | .ctlSnapSched => ⟨.belfry, 0x500, 0, 1, 0x1, [ctlSnapSched_mode, ctlSnapSched_interval, ctlSnapSched_computed]⟩
  | .ctlSnapMtbf => ⟨.belfry, 0x504, 0, 1, 0x1, [ctlSnapMtbf_seconds]⟩
  | .ctlRefillStat => ⟨.belfry, 0x508, 0, 1, 0x1, [ctlRefillStat_entry, ctlRefillStat_busy, ctlRefillStat_failed, ctlRefillStat_superseded]⟩
  | .ctlMirrorStep => ⟨.belfry, 0x600, 4, 64, 0x1, [ctlMirrorStep_step]⟩
  | .irqSrcCfg => ⟨.belfry, 0x10000, 4, 1024, 0x1, [irqSrcCfg_mask, irqSrcCfg_hostMask, irqSrcCfg_sense, irqSrcCfg_target, irqSrcCfg_merge, irqSrcCfg_forwarded]⟩
  | .irqSrcStat => ⟨.belfry, 0x11000, 4, 1024, 0x1, [irqSrcStat_state, irqSrcStat_condition, irqSrcStat_spurious]⟩
  | .irqClaim => ⟨.belfry, 0x12000, 16, 4, 0x1, [irqClaim_source, irqClaim_valid]⟩
  | .irqComplete => ⟨.belfry, 0x12004, 16, 4, 0x1, [irqComplete_source]⟩
  | .irqArgLo => ⟨.belfry, 0x12008, 16, 4, 0x1, [irqArgLo_arg]⟩
  | .irqArgHi => ⟨.belfry, 0x1200C, 16, 4, 0x1, [irqArgHi_arg]⟩
  | .irqLock => ⟨.belfry, 0x12100, 0, 1, 0x1, [irqLock_lock]⟩
  | .clkSrcStat => ⟨.belfry, 0x20000, 0, 1, 0x1, [clkSrcStat_fastStable, clkSrcStat_xaStable, clkSrcStat_xbStable, clkSrcStat_activeSel, clkSrcStat_coasting, clkSrcStat_srcLost, clkSrcStat_bothLost, clkSrcStat_selRefused]⟩
  | .clkSel => ⟨.belfry, 0x20004, 0, 1, 0x1, [clkSel_sel]⟩
  | .clkSsc => ⟨.belfry, 0x20008, 0, 1, 0x1, [clkSsc_depth, clkSsc_rateKhz]⟩
  | .clkThermCfg => ⟨.belfry, 0x2000C, 0, 1, 0x1, [clkThermCfg_throttleC, clkThermCfg_hystC, clkThermCfg_tripC]⟩
  | .clkThrottle => ⟨.belfry, 0x20010, 0, 1, 0x1, [clkThrottle_levels, clkThrottle_steps]⟩
  | .clkResetCause => ⟨.belfry, 0x20014, 0, 1, 0x1, [clkResetCause_cause]⟩
  | .clkLoopStat => ⟨.belfry, 0x20100, 4, 27, 0x1, [clkLoopStat_locked, clkLoopStat_coasting, clkLoopStat_ref, clkLoopStat_lockLosses]⟩
  | .secBootStat => ⟨.belfry, 0x30000, 0, 1, 0x1, [secBootStat_slot, secBootStat_fallback, secBootStat_staged, secBootStat_halted, secBootStat_trialExpired, secBootStat_lastFail]⟩
  | .secFloor => ⟨.belfry, 0x30004, 0, 1, 0x1, [secFloor_floor, secFloor_revoked]⟩
  | .secSerialLo => ⟨.belfry, 0x30008, 0, 1, 0x1, [secSerialLo_serial]⟩
  | .secSerialHi => ⟨.belfry, 0x3000C, 0, 1, 0x1, [secSerialHi_serial]⟩
  | .secMr => ⟨.belfry, 0x30100, 4, 48, 0x1, [secMr_value]⟩
  | .tstTapStat => ⟨.belfry, 0x40000, 0, 1, 0x1, [tstTapStat_lastIr, tstTapStat_testMode, tstTapStat_flashExternal]⟩

/-- Part 0 of the register list. -/
def regList0 : List RegId := [.ctlIslandReady, .ctlStepNumber, .ctlStepState, .ctlBankCurrent, .ctlStepTimeout, .ctlStepErr, .ctlRefclkLo, .ctlRefclkHi, .ctlSrSeedLo, .ctlSrSeedHi, .mtxQBaseLo, .mtxQBaseHi, .mtxQTail, .mtxQHead, .mtxCqBaseLo, .mtxCqBaseHi, .mtxCqTail, .mtxCqHead, .mtxQErr, .mtxEccCorr, .seqBnd, .seqSpillTotal, .seqIssueStat, .slvQBaseLo, .slvQBaseHi, .slvQTail, .slvQHead, .slvCqBaseLo, .slvCqBaseHi, .slvCqTail]
/-- Part 1 of the register list. -/
def regList1 : List RegId := [.slvCqHead, .slvQErr, .slvBusy, .vecCtxCfg, .vecThrRange, .vecThrLive, .vecThrRun, .vecErr, .vecSeatBusy, .atnPoolBaseLo, .atnPoolBaseHi, .atnPoolTail, .atnPoolHead, .atnPageTimeout, .atnStarved, .atnErr, .atnBiasValidLo, .atnBiasValidHi, .atnEmptyRows, .cdcDqBaseLo, .cdcDqBaseHi, .cdcDqTail, .cdcDqHead, .cdcDcqBaseLo, .cdcDcqBaseHi, .cdcDcqTail, .cdcDcqHead, .cdcDqErr, .cdcEqBaseLo, .cdcEqBaseHi]
/-- Part 2 of the register list. -/
def regList2 : List RegId := [.cdcEqTail, .cdcEqHead, .cdcEcqBaseLo, .cdcEcqBaseHi, .cdcEcqTail, .cdcEcqHead, .cdcEqErr, .cdcMode, .cdcDropCnt, .cdcStreamErrCnt, .memMvBaseLo, .memMvBaseHi, .memMvTail, .memMvHead, .memMvcBaseLo, .memMvcBaseHi, .memMvcTail, .memMvcHead, .memMvErr, .memLocalCfg, .memErr, .memCalCfg, .memCalStat, .memEccCe, .memSramCe, .memUeAddrLo, .memUeAddrHi, .memScrubCfg, .memMstBaseLo, .memMstBaseHi]
/-- Part 3 of the register list. -/
def regList3 : List RegId := [.memMirrorValidLo, .memMirrorValidHi, .memMirrorFillLo, .memMirrorFillHi, .memSnapStat, .redQBaseLo, .redQBaseHi, .redQTail, .redQHead, .redCqBaseLo, .redCqBaseHi, .redCqTail, .redCqHead, .redQErr, .redErr, .redHeld, .redBusy, .redSatCnt, .redGrpBaseLo, .redGrpBaseHi, .redGrpErr, .plynPortCfg, .plynPortStat, .plynLaneMapTx, .plynLaneMapRx, .plynErr, .plynCrcCnt, .plynReplayCnt, .plynViolLog, .plynNbrSerialLo]
/-- Part 4 of the register list. -/
def regList4 : List RegId := [.plynNbrSerialHi, .plynNbrInfo, .plynViolCfg, .plynFabAddr, .plynAxisSize, .plynRotCfg, .plynReqTimeout, .plynUnroutable, .plynDupToken, .plynRtT, .plynRtS, .plynRtD, .ctlSeamStat, .hostLinkStat, .hostErr, .hostUdpPort, .hostPfcCfg, .hostEvtRetry, .hostRxBad, .hostBelpelBad, .hostBelpelStale, .hostQpErrCnt, .hostBelpelLog, .hostBelpelSrc, .ctlCtxAct, .ctlCtxLost, .ctlCtxIntf, .ctlCtxPromo, .ctlCtxState, .ctlSnapSched]
/-- Part 5 of the register list. -/
def regList5 : List RegId := [.ctlSnapMtbf, .ctlRefillStat, .ctlMirrorStep, .irqSrcCfg, .irqSrcStat, .irqClaim, .irqComplete, .irqArgLo, .irqArgHi, .irqLock, .clkSrcStat, .clkSel, .clkSsc, .clkThermCfg, .clkThrottle, .clkResetCause, .clkLoopStat, .secBootStat, .secFloor, .secSerialLo, .secSerialHi, .secMr, .tstTapStat]
/-- Every register of the map. -/
def allRegs : List RegId := List.flatten [regList0, regList1, regList2, regList3, regList4, regList5]

end Sys2Proof.Machine
end

