-- ==== Sys2Proof/Machine/Formats.lean ====
section
/-! DEFINITION. Number formats, exact values and roundings (03_numerics.md, R56 to R65). -/

namespace Sys2Proof.Machine

/-- A tensor format code (R56); the code itself is the field of a descriptor. -/
inductive Fmt where
  | fp32 | fp16 | bf16 | e4m3 | e5m2 | e3m2 | e2m3 | e2m1
  | mxE4m3 | mxE5m2 | mxE3m2 | mxE2m3 | mxE2m1 | int8 | int4
deriving DecidableEq, Repr

/-- The format of a code; 0xF is reserved (R56). -/
def Fmt.ofCode (c : Nat) : Option Fmt :=
  match c with
  | 0 => some .fp32 | 1 => some .fp16 | 2 => some .bf16 | 3 => some .e4m3 | 4 => some .e5m2
  | 5 => some .e3m2 | 6 => some .e2m3 | 7 => some .e2m1 | 8 => some .mxE4m3 | 9 => some .mxE5m2
  | 10 => some .mxE3m2 | 11 => some .mxE2m3 | 12 => some .mxE2m1 | 13 => some .int8 | 14 => some .int4
  | _ => none

/-- The code of a format (R56). -/
def Fmt.code (f : Fmt) : Nat :=
  match f with
  | .fp32 => 0 | .fp16 => 1 | .bf16 => 2 | .e4m3 => 3 | .e5m2 => 4 | .e3m2 => 5 | .e2m3 => 6 | .e2m1 => 7
  | .mxE4m3 => 8 | .mxE5m2 => 9 | .mxE3m2 => 10 | .mxE2m3 => 11 | .mxE2m1 => 12 | .int8 => 13 | .int4 => 14

/-- Element bits of a format (R56). -/
def Fmt.bits (f : Fmt) : Nat :=
  match f with
  | .fp32 => 32 | .fp16 => 16 | .bf16 => 16
  | .e4m3 => 8 | .e5m2 => 8 | .mxE4m3 => 8 | .mxE5m2 => 8 | .int8 => 8
  | .e3m2 => 6 | .e2m3 => 6 | .mxE3m2 => 6 | .mxE2m3 => 6
  | .e2m1 => 4 | .mxE2m1 => 4 | .int4 => 4

/-- The format carries a delayed tensor scale (R56, R65). -/
def Fmt.delayed (f : Fmt) : Bool :=
  match f with
  | .e4m3 => true | .e5m2 => true | .e3m2 => true | .e2m3 => true | .e2m1 => true | .int8 => true | .int4 => true
  | .fp32 => false | .fp16 => false | .bf16 => false
  | .mxE4m3 => false | .mxE5m2 => false | .mxE3m2 => false | .mxE2m3 => false | .mxE2m1 => false

/-- The format carries E8M0 block scales per 32 elements (R56, R63). -/
def Fmt.isMx (f : Fmt) : Bool :=
  match f with
  | .mxE4m3 => true | .mxE5m2 => true | .mxE3m2 => true | .mxE2m3 => true | .mxE2m1 => true
  | .fp32 => false | .fp16 => false | .bf16 => false | .e4m3 => false | .e5m2 => false
  | .e3m2 => false | .e2m3 => false | .e2m1 => false | .int8 => false | .int4 => false

/-- An integer format (R56). -/
def Fmt.isInt (f : Fmt) : Bool := f == .int8 || f == .int4

/-- The field layout of a floating-point element format (R57). -/
structure FloatFmt where
  /-- exponent bits -/
  eb : Nat
  /-- mantissa bits -/
  mb : Nat
  bias : Nat
  /-- magnitude bits of the largest finite value -/
  maxFin : Nat
  hasInf : Bool
  hasNan : Bool
  /-- code of the canonical NaN (R59) -/
  nan : Nat
  /-- a finite value beyond the largest finite becomes an infinity (R60); otherwise it saturates -/
  ovfInf : Bool
deriving DecidableEq, Repr

def ffFp32 : FloatFmt := ⟨8, 23, 127, 0x7F7FFFFF, true, true, 0x7FC00000, true⟩
def ffFp16 : FloatFmt := ⟨5, 10, 15, 0x7BFF, true, true, 0x7E00, true⟩
def ffBf16 : FloatFmt := ⟨8, 7, 127, 0x7F7F, true, true, 0x7FC0, true⟩
def ffE4m3 : FloatFmt := ⟨4, 3, 7, 0x7E, false, true, 0x7F, false⟩
def ffE5m2 : FloatFmt := ⟨5, 2, 15, 0x7B, true, true, 0x7E, false⟩
def ffE3m2 : FloatFmt := ⟨3, 2, 3, 0x1F, false, false, 0, false⟩
def ffE2m3 : FloatFmt := ⟨2, 3, 1, 0x1F, false, false, 0, false⟩
def ffE2m1 : FloatFmt := ⟨2, 1, 1, 0x7, false, false, 0, false⟩

/-- The element layout behind a format code; `none` for the integer formats (R56, R57). -/
def Fmt.float (f : Fmt) : Option FloatFmt :=
  match f with
  | .fp32 => some ffFp32 | .fp16 => some ffFp16 | .bf16 => some ffBf16
  | .e4m3 => some ffE4m3 | .mxE4m3 => some ffE4m3
  | .e5m2 => some ffE5m2 | .mxE5m2 => some ffE5m2
  | .e3m2 => some ffE3m2 | .mxE3m2 => some ffE3m2
  | .e2m3 => some ffE2m3 | .mxE2m3 => some ffE2m3
  | .e2m1 => some ffE2m1 | .mxE2m1 => some ffE2m1
  | .int8 => none | .int4 => none

/-- An exact value: a NaN, a signed infinity, or (−1)^neg × m × 2^e, with signed zeros. -/
inductive FVal where
  | nan
  | inf (neg : Bool)
  | fin (neg : Bool) (m : Nat) (e : Int)
deriving DecidableEq, Repr

/-- Positive zero. -/
def FVal.zero : FVal := .fin false 0 0

/-- The exact value of an integer. -/
def FVal.ofInt (i : Int) : FVal := .fin (i < 0) i.natAbs 0

/-- The value is a NaN or an infinity. -/
def FVal.nonfinite (v : FVal) : Bool :=
  match v with
  | .nan => true | .inf _ => true | .fin _ _ _ => false

/-- `v` × 2^k, exactly (R65). -/
def FVal.scale (v : FVal) (k : Int) : FVal :=
  match v with
  | .fin n m e => .fin n m (e + k)
  | w => w

/-- −`v`. -/
def FVal.neg (v : FVal) : FVal :=
  match v with
  | .nan => .nan
  | .inf n => .inf (!n)
  | .fin n m e => .fin (!n) m e

/-- |`v`|. -/
def FVal.abs (v : FVal) : FVal :=
  match v with
  | .nan => .nan
  | .inf _ => .inf false
  | .fin _ m e => .fin false m e

/-- The value an element code of layout `f` stands for (R57, R58). -/
def FloatFmt.decode (f : FloatFmt) (code : Nat) : FVal :=
  let mag := code % 2 ^ (f.eb + f.mb)
  let neg := code / 2 ^ (f.eb + f.mb) % 2 == 1
  let ex := mag / 2 ^ f.mb
  let man := mag % 2 ^ f.mb
  if f.hasInf && ex == 2 ^ f.eb - 1 then
    if man == 0 then .inf neg else .nan
  else if f.hasNan && !f.hasInf && mag > f.maxFin then .nan
  else if ex == 0 then .fin neg man (1 - (f.bias : Int) - f.mb)
  else .fin neg (2 ^ f.mb + man) ((ex : Int) - f.bias - f.mb)

/-- How a value between two representable neighbours is rounded: to nearest with ties to even (R60),
away from zero (R67, R259), toward zero, or stochastically with the random value `r` (R75). -/
inductive Rounding where
  | nearest
  | away
  | toward
  | stochastic (r : Nat)
deriving DecidableEq, Repr

/-- `quot` rounded up or not, for the discarded bits `rem` out of 2^`sh` (R60, R75). -/
def roundUp (mode : Rounding) (quot rem sh : Nat) : Bool :=
  match mode with
  | .nearest => let h := 2 ^ (sh - 1); rem > h || (rem == h && quot % 2 == 1)
  | .away => rem > 0
  | .toward => false
  | .stochastic r => rem > 0 && r < rem * 65536 / 2 ^ sh

/-- The magnitude code of m × 2^e in layout `f`, before any overflow, and whether rounding changed it.
`sticky` says that the value lies strictly between m × 2^e and (m + 1) × 2^e. -/
def roundMag (f : FloatFmt) (mode : Rounding) (m : Nat) (e : Int) (sticky : Bool) : Nat × Bool :=
  let m2 := if sticky then 4 * m + 1 else 4 * m
  let e2 := e - 2
  if m2 == 0 then (0, false)
  else
    let lead : Int := (Nat.log2 m2 : Int) + e2
    let qmin : Int := 1 - (f.bias : Int) - f.mb
    let q : Int := max (lead - f.mb) qmin
    if q ≤ e2 then
      ((q - qmin).toNat * 2 ^ f.mb + m2 * 2 ^ (e2 - q).toNat, false)
    else
      let sh := (q - e2).toNat
      let quot := m2 / 2 ^ sh
      let rem := m2 % 2 ^ sh
      let code := (q - qmin).toNat * 2 ^ f.mb + quot
      (if roundUp mode code rem sh then code + 1 else code, rem != 0)

/-- A conversion's result: the code and what happened on the way (R60, R61, R218, R232). -/
structure Conv where
  code : Nat
  sat : Bool := false
  ovf : Bool := false
  inexact : Bool := false
  unf : Bool := false
  invalid : Bool := false
deriving DecidableEq, Repr

/-- `code` with the sign bit of layout `f`. -/
def FloatFmt.signed (f : FloatFmt) (neg : Bool) (mag : Nat) : Nat :=
  if neg then mag + 2 ^ (f.eb + f.mb) else mag

/-- The code of the infinity of layout `f`. -/
def FloatFmt.infMag (f : FloatFmt) : Nat := (2 ^ f.eb - 1) * 2 ^ f.mb

/-- Conversion of an exact value (with a sticky tail) to layout `f` (R60). -/
def FloatFmt.encodeTail (f : FloatFmt) (mode : Rounding) (v : FVal) (sticky : Bool) : Conv :=
  match v with
  | .nan => if f.hasNan then { code := f.nan } else { code := 0 }
  | .inf n =>
    if f.hasInf then { code := f.signed n f.infMag }
    else if f.hasNan then { code := f.nan }
    else { code := f.signed n f.maxFin, sat := true }
  | .fin n m e =>
    let (mag, inx) := roundMag f mode m e sticky
    if mag > f.maxFin then
      if f.ovfInf then { code := f.signed n f.infMag, ovf := true, inexact := true }
      else { code := f.signed n f.maxFin, sat := true, inexact := true }
    else { code := f.signed n mag, inexact := inx, unf := inx && mag < 2 ^ f.mb }

/-- Conversion of an exact value to layout `f` (R60). -/
def FloatFmt.encode (f : FloatFmt) (mode : Rounding) (v : FVal) : Conv := f.encodeTail mode v false

/-- The integer nearest m × 2^e, ties to even, and whether it differs. -/
def nearestNat (m : Nat) (e : Int) : Nat × Bool :=
  if 0 ≤ e then (m * 2 ^ e.toNat, false)
  else
    let sh := (-e).toNat
    let quot := m / 2 ^ sh
    let rem := m % 2 ^ sh
    (if roundUp .nearest quot rem sh then quot + 1 else quot, rem != 0)

/-- An integer conversion's result. -/
structure ConvInt where
  val : Int
  sat : Bool := false
  inexact : Bool := false
  invalid : Bool := false
deriving DecidableEq, Repr

/-- Conversion to an integer: to nearest, ties to even, saturated to `lo` and `hi`; a NaN gives 0 and an
infinity the saturated value of its sign (R61, R79, R217). -/
def convInt (lo hi : Int) (v : FVal) : ConvInt :=
  match v with
  | .nan => { val := 0, invalid := true }
  | .inf n => { val := if n then lo else hi, sat := true }
  | .fin n m e =>
    let (q, inx) := nearestNat m e
    let i : Int := if n then -(q : Int) else q
    if i > hi then { val := hi, sat := true, inexact := inx }
    else if i < lo then { val := lo, sat := true, inexact := inx }
    else { val := i, inexact := inx }

/-- The two's complement code of `i` in `w` bits. -/
def twos (w : Nat) (i : Int) : Nat := (i % (2 ^ w : Nat)).toNat

/-- The signed value of a `w`-bit code. -/
def untwos (w : Nat) (c : Nat) : Int :=
  let c := c % 2 ^ w
  if c < 2 ^ (w - 1) then c else (c : Int) - (2 ^ w : Nat)

/-- The exact value of an element of format `f`, before any scale (R56, R57, R61). -/
def Fmt.decode (f : Fmt) (code : Nat) : FVal :=
  match f.float with
  | some ff => ff.decode code
  | none => .ofInt (untwos f.bits code)

/-- Conversion of an exact value to an element of format `f` (R60, R61). -/
def Fmt.encode (f : Fmt) (v : FVal) : Conv :=
  match f.float with
  | some ff => ff.encode .nearest v
  | none =>
    let top : Int := 2 ^ (f.bits - 1) - 1
    let r := convInt (-top) top v
    { code := twos f.bits r.val, sat := r.sat, inexact := r.inexact, invalid := r.invalid }

/-- The largest finite value of a format with a delayed scale, as m × 2^e (R68). -/
def Fmt.largest (f : Fmt) : Nat × Int :=
  match f with
  | .e4m3 => (448, 0) | .mxE4m3 => (448, 0)
  | .e5m2 => (57344, 0) | .mxE5m2 => (57344, 0)
  | .e3m2 => (28, 0) | .mxE3m2 => (28, 0)
  | .e2m3 => (15, -1) | .mxE2m3 => (15, -1)
  | .e2m1 => (6, 0) | .mxE2m1 => (6, 0)
  | .int8 => (127, 0)
  | .int4 => (7, 0)
  | .fp32 => (16777215, 104)
  | .fp16 => (65504, 0)
  | .bf16 => (255, 120)

/-- m × 2^e ≤ n × 2^k for naturals m and n. -/
def dyadicLe (m : Nat) (e : Int) (n : Nat) (k : Int) : Bool :=
  let lo := min e k
  m * 2 ^ (e - lo).toNat ≤ n * 2 ^ (k - lo).toNat

/-- floor(log2(m × 2^e)) for m > 0. -/
def floorLog2 (m : Nat) (e : Int) : Int := (Nat.log2 m : Int) + e

/-- The largest of two magnitudes; NaN and infinities are left to the caller. -/
def magMax (a b : Nat × Int) : Nat × Int := if dyadicLe a.1 a.2 b.1 b.2 then b else a

/-! ### Microscaling block scales (R63, R64) -/

/-- emax of an MX element format (R63). -/
def Fmt.emax (f : Fmt) : Int :=
  match f with
  | .e4m3 => 8 | .mxE4m3 => 8
  | .e5m2 => 15 | .mxE5m2 => 15
  | .e3m2 => 4 | .mxE3m2 => 4
  | .e2m3 => 2 | .mxE2m3 => 2
  | .e2m1 => 2 | .mxE2m1 => 2
  | .fp32 => 127 | .fp16 => 15 | .bf16 => 127 | .int8 => 6 | .int4 => 2

/-- The largest finite magnitude in `vs`, with 0 for none. -/
def amaxOf (vs : List FVal) : Nat × Int :=
  vs.foldl (fun a v => match v with | .fin _ m e => magMax a (m, e) | _ => a) (0, 0)

/-- The block exponent X of a block whose largest magnitude is `a` (R63). -/
def blockExp (emax : Int) (a : Nat × Int) : Int :=
  if a.1 == 0 then -127 else max (-127) (min 127 (floorLog2 a.1 a.2 - emax))

/-- An MX block as written: the scale byte and the elements' conversions (R63, R64). -/
def mxEncode (f : Fmt) (vs : List FVal) : Nat × List Conv :=
  if vs.any FVal.nonfinite then (0xFF, vs.map fun _ => { code := 0 })
  else
    let x := blockExp f.emax (amaxOf vs)
    ((x + 127).toNat, vs.map fun v => f.encode (v.scale (-x)))

/-- An MX element as read under its scale byte (R63, R64). -/
def mxDecode (f : Fmt) (scale code : Nat) : FVal :=
  if scale == 0xFF then .nan else (f.decode code).scale ((scale : Int) - 127)

end Sys2Proof.Machine
end

