-- ==== Sys2Proof/Machine/Sparse.lean ====
section
/-! DEFINITION. Sparse tables: a list of (key, value) pairs in one canonical form (keys strictly rising, no
entry equal to what an unlisted key reads as). Memory, registers and thread records are such tables. -/

namespace Sys2Proof.Machine

/-- The value of key `k`, or `d` where `k` is not listed. -/
def sparseGet {α : Type} (m : List (Nat × α)) (d : α) (k : Nat) : α :=
  match m with
  | [] => d
  | (j, v) :: rest => if j = k then v else sparseGet rest d k

/-- `m` without key `k`. -/
def sparseDrop {α : Type} (m : List (Nat × α)) (k : Nat) : List (Nat × α) :=
  match m with
  | [] => []
  | (j, v) :: rest => if j = k then sparseDrop rest k else (j, v) :: sparseDrop rest k

/-- `m` with key `k` set to `v`, keeping the keys rising. -/
def sparseInsert {α : Type} (m : List (Nat × α)) (k : Nat) (v : α) : List (Nat × α) :=
  match m with
  | [] => [(k, v)]
  | (j, w) :: rest =>
    if j = k then (k, v) :: rest
    else if k < j then (k, v) :: (j, w) :: rest
    else (j, w) :: sparseInsert rest k v

/-- `m` with key `k` set to `v`, where `d` is what an unlisted `k` reads as: writing `d` removes the entry. -/
def sparsePut {α : Type} [DecidableEq α] (m : List (Nat × α)) (d : α) (k : Nat) (v : α) : List (Nat × α) :=
  if v = d then sparseDrop m k else sparseInsert m k v

/-- Every key of `m` is above `k`. -/
def keysAbove {α : Type} (k : Nat) (m : List (Nat × α)) : Bool :=
  match m with
  | [] => true
  | (j, _) :: _ => k < j

/-- The canonical form: keys strictly rising and no entry equal to its default. -/
def sparseWf {α : Type} [DecidableEq α] (dflt : Nat → α) (m : List (Nat × α)) : Bool :=
  match m with
  | [] => true
  | (k, v) :: rest => keysAbove k rest && (v != dflt k) && sparseWf dflt rest

/-- A table whose unlisted keys read as the type's default value. -/
abbrev Tbl (α : Type) := List (Nat × α)

/-- Entry `k` of a table. -/
def tget {α : Type} [Inhabited α] (m : Tbl α) (k : Nat) : α := sparseGet m default k

/-- The table with entry `k` set to `v`. -/
def tput {α : Type} [Inhabited α] [DecidableEq α] (m : Tbl α) (k : Nat) (v : α) : Tbl α := sparsePut m default k v

/-- The table with entry `k` changed by `f`. -/
def tmod {α : Type} [Inhabited α] [DecidableEq α] (m : Tbl α) (k : Nat) (f : α → α) : Tbl α := tput m k (f (tget m k))

/-- The canonical form of a table. -/
def tblWf {α : Type} [Inhabited α] [DecidableEq α] (m : Tbl α) : Bool := sparseWf (fun _ => default) m

end Sys2Proof.Machine
end

