-- ==== Sys2Proof/Machine/Parts.lean ====
section
/-! DEFINITION. The parts of State: the records the spec gives each unit of the device, as plain data. Every table
is a `Tbl`: an unlisted key reads as the record's default, which is its value at reset. -/

namespace Sys2Proof.Machine

/-! ### Interrupts and events (18) -/

/-- The state of an interrupt source (R496). -/
inductive SrcState where
  | idle | pending | active | activePending
deriving DecidableEq, Repr, Inhabited

/-- An interrupt source: its state, the argument being merged for the next delivery (count in bits [63:48], R498),
the argument last delivered, and the level condition's argument while that condition holds (R497). -/
structure IrqSrc where
  st : SrcState
  arg : DWord
  act : DWord
  cond : Option Addr
deriving DecidableEq, Repr, Inhabited

structure IrqPart where
  srcs : Tbl IrqSrc
  /-- handled forwarded sources whose host record is not appended yet, with their arguments (R503) -/
  forwards : List (Nat × DWord)
deriving DecidableEq, Repr, Inhabited

/-! ### The step boundary (02) -/

/-- One phase counter, in refclk ticks (R54). -/
structure PhaseCnt where
  first : Option DWord
  last : DWord
  busy : DWord
deriving DecidableEq, Repr, Inhabited

/-- A phase table entry (R55); the offsets are saturated at 0xFFFF_FFFF. -/
structure PhaseEntry where
  step : Word
  startTick : Word
  arrival : Word
  commit : Word
  skipped : Bool
  aborted : Bool
  timedOut : Bool
  /-- first, last and busy of phases 0 to 15 -/
  phases : List (Word × Word × Word)
deriving DecidableEq, Repr, Inhabited

/-- A bank pair's ranges (R50): the two bases and the size in 4 KiB units, 0 for an unused entry. -/
structure BankPair where
  baseA : Nat
  baseB : Nat
  size : Nat
deriving DecidableEq, Repr, Inhabited

/-- The dispatcher settings of a context (R459, R463): priority, reserved cores and allowed cores per tower. -/
structure Sched where
  prio : Nat
  /-- bit 64 n + k: core k of tower n is reserved to the context -/
  reserved : Nat
  /-- bit 64 n + k: core k of tower n is allowed -/
  allowed : Nat
deriving DecidableEq, Repr, Inhabited

/-- The lantern slice settings (R461). -/
structure Lantern where
  cores : Nat
  windows : Nat
  base : Nat
  size : Nat
deriving DecidableEq, Repr, Inhabited

/-- The active settings that a unit samples once, at its issue (R41): its context's priority, and the lantern region. -/
structure Sampled where
  prio : Nat
  base : Nat
  size : Nat
deriving DecidableEq, Repr, Inhabited

/-- The snapshot schedule (R480): mode, interval and cost. -/
structure SnapSched where
  mode : Nat
  interval : Nat
  cost : Word
  /-- the interval was computed under R481 -/
  computed : Bool
deriving DecidableEq, Repr, Inhabited

/-- One copy of the shadowed settings of R49; the reduction scales stand in the bucket entries. -/
structure Shadow where
  epoch : Half
  sched : Tbl Sched
  lantern : Lantern
  banks : Tbl BankPair
  snap : SnapSched
  /-- spread-spectrum depth and rate (R520) -/
  sscDepth : Nat
  sscRate : Nat
deriving DecidableEq, Repr, Inhabited

/-- An ARRIVE held from a child (R40). -/
structure ChildArrive where
  child : Half
  vote : Bool
  epoch : Half
deriving DecidableEq, Repr, Inhabited

structure StepPart where
  openSet : Shadow
  staged : Shadow
  active : Shadow
  /-- content steps of range A and B of each pair (words 5 and 6 of R50) -/
  contentA : Tbl Word
  contentB : Tbl Word
  groupTag : Byte
  parent : Half
  children : List Half
  /-- this device's own vote, set by Lumdom -/
  vote : Bool
  arrives : List ChildArrive
  arriveSent : Bool
  /-- barrier tokens received in this group: source, COMMIT or ARRIVE, tag, step (R411) -/
  seen : List (Half × Bool × Byte × Word)
  /-- boundaries counted for background promotion (R468) -/
  bounds : Nat
  /-- number of member devices, 0 where not known (R481), and members counted so far below this device -/
  size : Nat
  counted : Nat
  /-- subtree counts still to come from children -/
  countsDue : Nat
  /-- failures and device-hours of the last FAILURE_REPORT (R483) -/
  failures : Word
  hours : Word
  reported : Bool
  /-- the interval computed under R481, 0 where none -/
  interval : Nat
  /-- refclk tick of the last boundary -/
  startTick : DWord
  /-- refclk tick of local arrival -/
  arriveTick : Option DWord
  timedOut : Bool
  phases : Tbl PhaseCnt
  /-- the phase table, newest entry first, at most 64 (R55) -/
  table : List PhaseEntry
  /-- lantern-slice accesses that completed with status STALE_VIEW, newest first: thread, address and step tag (R51) -/
  staleViews : List (Nat × Nat × Word)
deriving DecidableEq, Repr, Inhabited

/-! ### Contexts (16) -/

/-- A context fault record (R476). -/
structure FaultRec where
  cause : Nat
  tower : Nat
  unit : Nat
  remote : Bool
  thread : Nat
  pc : Nat
  addr : Nat
  jobTag : Nat
  descIndex : Nat
  step : Word
  tick : DWord
  further : Nat
  threadsFreed : Nat
  groupsAborted : Nat
deriving DecidableEq, Repr, Inhabited

structure CtxPart where
  /-- fault record of each context that has one -/
  faults : Tbl (Option FaultRec)
  /-- the context's teardown was started by CTX_DESTROY (R456) -/
  destroying : Tbl Bool
  /-- physical accumulator slots held: bit 32 n + p for slot p of tower n (R570) -/
  slotMask : Tbl Nat
  /-- refclk tick of the last period boundary while no step group exists (R468, R470) -/
  periodTick : DWord
  /-- tags of the remote stores of its mover transfers that were in flight when its teardown began (R473, step 4) -/
  remoteStores : Tbl (List Nat)
deriving DecidableEq, Repr, Inhabited

/-! ### Threads (07, 08) -/

/-- The state of a thread index (R174). -/
inductive ThrState where
  | free | ready | running | parked
deriving DecidableEq, Repr, Inhabited

/-- The code of a thread state (R175, word 36). -/
def ThrState.code (s : ThrState) : Nat :=
  match s with
  | .free => 0 | .ready => 1 | .running => 2 | .parked => 3

/-- Why a thread is parked (R175, word 36). -/
inductive Reason where
  | spawned | wait | yield | bar | barEos | kv
deriving DecidableEq, Repr, Inhabited

/-- The code of a park reason (R175). -/
def Reason.code (r : Reason) : Nat :=
  match r with
  | .spawned => 0 | .wait => 1 | .yield => 2 | .bar => 3 | .barEos => 4 | .kv => 5

/-- The flags of a thread (R175, word 35). -/
structure FFlags where
  invalid : Bool
  overflow : Bool
  underflow : Bool
  inexact : Bool
  saturated : Bool
deriving DecidableEq, Repr, Inhabited

/-- The scalar state that survives a park (R177). -/
structure Scalars where
  s : Tbl DWord
  pc : Nat
  vl : Nat
  vtype : Byte
  flags : FFlags
  phaseId : Nat
  phaseEn : Bool
deriving DecidableEq, Repr, Inhabited

/-- A thread record (R175) with the bookkeeping of its index. -/
structure ThrRec where
  sc : Scalars
  st : ThrState
  reason : Reason
  wakeDst : Nat
  ctx : Nat
  deadlineEn : Bool
  waitArg : Word
  waitVal : Word
  deadline : Word
  wakeValue : DWord
  parkTick : Word
  spawner : Nat
  /-- the full 64-bit tick of the deadline (R227), or of the park of a starved append (R267) -/
  deadlineTick : DWord
  /-- the spawner and the number of accesses it had issued at the SPAWN (R184) -/
  guard : Option (Nat × Nat)
deriving DecidableEq, Repr, Inhabited

/-- The seat of a RUNNING thread: its core, its live scalar state and its vector and mask registers. A register not
listed holds the free value of `epoch` (R177). -/
structure Seat where
  core : Nat
  /-- the record has reached the seat (R180) -/
  loaded : Bool
  exited : Bool
  sc : Scalars
  epoch : Nat
  /-- the active settings at its dispatch (R41) -/
  sampled : Sampled
  v : List (Nat × BitVec 1024)
  m : List (Nat × BitVec 256)
deriving DecidableEq, Repr, Inhabited

/-- What an access in flight does at its destination. -/
inductive AccKind where
  | load | store | amoAdd | amoMin | amoMax | amoSwap | amoCas | amoAnd | amoOr | amoFadd | vamoAdd
deriving DecidableEq, Repr, Inhabited

/-- Where load data goes: a scalar register, or element `elem` of width `w` bits in vector register `reg`. -/
inductive Dest where
  | none | scalar (reg : Nat) (sgn : Bool) | vec (reg elem w : Nat)
deriving DecidableEq, Repr, Inhabited

/-- Why a performed store is held at the drum (R52, R345). -/
inductive Held where
  | no | bank | snapshot
deriving DecidableEq, Repr, Inhabited

/-- How a lantern-slice access to a bank pair is decided (R51): not such an access, held, served from range A or B
(`b`) of a pair, or stale. -/
inductive LanternView where
  | no | held (pair : Nat) | served (pair : Nat) (b : Bool) | stale
deriving DecidableEq, Repr, Inhabited

/-- An access in flight (R194): `bits` bits from bit `shift` of the byte at `addr`. -/
structure Acc where
  seq : Nat
  kind : AccKind
  addr : Nat
  shift : Nat
  bits : Nat
  data : Nat
  cmp : Nat
  sgn : Bool
  float : Bool
  dst : Dest
  acquire : Bool
  release : Bool
  held : Held
  /-- a load abandoned by a park, or whose register a may-park instruction made undefined (R177, R178) -/
  stale : Bool
  /-- the instruction's address, for the fault record -/
  pc : Nat
  /-- the step tag of a lantern-slice access (R51) -/
  tag : Word
  /-- how the bank pair it names serves it (R51) -/
  lantern : LanternView
  /-- its arrival number in the line of a pseudo-channel that calibration held, 0 where it is in none, and the address it
  arrived with (R322, R324) -/
  line : Nat
  goesTo : Nat
deriving DecidableEq, Repr, Inhabited

/-- A barrier of a context in a tower (R185): expected count (0: uninitialised), and the arrivals of this round, each
with the number of accesses the thread had issued (R198). -/
structure Barrier where
  expected : Nat
  arrivals : List (Nat × Nat)
deriving DecidableEq, Repr, Inhabited

structure ThrPart where
  /-- thread records, keyed tower × 262,144 + index -/
  recs : Tbl ThrRec
  seats : Tbl Seat
  /-- accesses in flight in program order -/
  accs : Tbl (List Acc)
  /-- number of accesses issued -/
  nextAcc : Tbl Nat
  /-- number of accesses that calibration has held so far (R324) -/
  line : Nat
  /-- READY threads of all towers, in READY order -/
  ready : List Nat
  /-- the context each tower's dispatcher served last (R464) -/
  lastCtx : Tbl Nat
  /-- barriers, keyed (tower × 16 + context) × 64 + id -/
  bars : Tbl Barrier
deriving DecidableEq, Repr, Inhabited

/-! ### Descriptor queues (R86 to R89, R168, R312, R348, R383) -/

/-- A completion record waiting for room in its ring: its eight words, and a word stored after it with the settings its job
sampled (the mover status word, R41, R339). -/
structure DoneRec where
  words : List Nat
  after : Option (Nat × Nat × Sampled)
deriving DecidableEq, Repr, Inhabited

/-- A queue beside its registers: the numbers of its issued descriptors that have not completed, in issue order, the
completion records not yet written, in completion order, and whether the oldest of these found the ring full (R88). -/
structure QState where
  running : List Nat
  done : List DoneRec
  blocked : Bool
deriving DecidableEq, Repr, Inhabited

/-! ### Matrix engine and sequencer (04, 05) -/

/-- What a tile job is doing (R97, R112, R145). -/
inductive TileSt where
  | waiting | filling | draining | copying | spilled | done
deriving DecidableEq, Repr, Inhabited

/-- What a tile job computes: a matrix tile, or in an attention job the score product or the value product of a visited
key tile (R235 to R238). -/
inductive TileRole where
  | matrix | score (kt : Nat) | value (kt : Nat)
deriving DecidableEq, Repr, Inhabited

/-- One tile job: its rows and columns within the bounds, its ragged group, tile group and place in it, its slot
within the allocation, and how far it is. -/
structure Tile where
  row0 : Nat
  row1 : Nat
  col0 : Nat
  col1 : Nat
  group : Nat
  tgroup : Nat
  place : Nat
  slot : Nat
  st : TileSt
  /-- chunks folded so far -/
  chunk : Nat
  omitted : Bool
  /-- the tile's slot contents are its own: it has claimed a slot and folded or reloaded into it -/
  begun : Bool
  role : TileRole
  /-- the tile has folded a segment and must be spilled (R145) -/
  due : Bool
  /-- route 1: contributions of the tile accepted so far -/
  sent : Nat
  /-- attention: key tiles that the job visits before this one (R239, R242) -/
  visit : Nat
deriving DecidableEq, Repr, Inhabited

/-- The operand chunks of a tile group in the stage area: exact values by row of A and by row of B, none in a dead block
(R108, R132). -/
structure Staged where
  tgroup : Nat
  chunk : Nat
  a : List (Nat × List FVal)
  b : List (Nat × List (Option FVal))
  metaErr : Bool
deriving DecidableEq, Repr, Inhabited

/-- The running softmax statistics of a query row: FP32 codes of m and l (R250). -/
structure RowStat where
  m : Nat
  l : Nat
deriving DecidableEq, Repr

/-- An attention job beside its tile-job descriptor (R235 to R257). -/
structure Att where
  /-- the attention descriptor's words -/
  words : List Nat
  /-- words of the sequence header, for a paged job -/
  header : List Nat
  paged : Bool
  /-- page and scale block bases of the pages below K -/
  pages : List (Nat × Nat)
  /-- statistics by query row; a row not listed has m = −∞ and l = 0 -/
  stats : List (Nat × RowStat)
  /-- query tiles finalised -/
  finalised : Nat
deriving DecidableEq, Repr

/-- An issued tile-job descriptor. -/
structure MtxJob where
  t : Nat
  c : Nat
  desc : List Nat
  loop : List Nat
  index : Nat
  status : Status
  m : Nat
  n : Nat
  k : Nat
  /-- runs in convolution mode (R136, R137) -/
  conv : Bool
  /-- ragged groups: first row and rows (R114) -/
  groups : List (Nat × Nat)
  /-- scale exponents sampled at issue: A, B per group, output (R69) -/
  ea : Int
  eb : List Int
  eo : Int
  /-- step number sampled for the generator; 0 outside the step group (R76) -/
  srStep : Word
  /-- step number of the scale history (R69) -/
  step : Word
  member : Bool
  tiles : List Tile
  staged : List Staged
  att : Option Att
  /-- S of R143: slots of the allocation from slot_base upward -/
  avail : Nat
  /-- the job spills (R144), in K segments of this many chunks -/
  spills : Bool
  segLen : Nat
  /-- stage and spill areas in use: base and bytes, none of them where 0 (R148) -/
  stageArea : Nat × Nat
  spillArea : Nat × Nat
  /-- route 1: layout epoch and bucket scale sampled at issue (R354, R375) -/
  redEpoch : Nat
  sAct : Int
  sampled : Sampled
  saturated : Bool
  nonfinite : Bool
  metaError : Bool
  eccCorrected : Bool
  spilled : Bool
  tilesComputed : Nat
  tilesOmitted : Nat
  slabsSkipped : Nat
  spillCount : Nat
  cycles : Nat
  complete : Bool
deriving DecidableEq, Repr, Inhabited

/-- The state of an accumulator slot (R97). -/
inductive SlotSt where
  | free | filling | draining | held
deriving DecidableEq, Repr, Inhabited

/-- The chunk the array of a tower is working on. -/
structure Granted where
  job : Nat
  tile : Nat
  chunk : Nat
deriving DecidableEq, Repr, Inhabited

/-- An issued sleeve descriptor (R159 to R166). -/
structure SlvJob where
  t : Nat
  c : Nat
  words : List Nat
  index : Nat
  ein : Int
  ew : Int
  eout : Int
  step : Word
  sampled : Sampled
  /-- passes completed -/
  pass : Nat
  saturated : Bool
  nonfinite : Bool
  busy : Nat
  /-- every pass is done; the hand-off of R164 remains -/
  tailDue : Bool
deriving DecidableEq, Repr, Inhabited

structure SlvPart where
  jobs : Tbl SlvJob
  nextJob : Nat
  /-- the job each tower's engine runs -/
  cur : Tbl (Option Nat)
  lastCtx : Tbl Nat
deriving DecidableEq, Repr, Inhabited

structure AtnPart where
  /-- threads parked for a page, in park order, keyed tower × 16 + context (R265) -/
  starved : Tbl (List Nat)
  /-- the rows an append parked with: key and value registers (R263) -/
  parked : Tbl (List (BitVec 1024))
  /-- bias tables: BF16 codes, keyed (tower × 64 + table) × 4096 + entry (R248) -/
  bias : Tbl Half
deriving DecidableEq, Repr, Inhabited

/-- What an accumulator slot held at an earlier moment of its present claim: its written bytes and its undefined ranges (R200). -/
structure SlotPast where
  cells : List (Nat × Byte)
  undef : List (Nat × Nat × Nat)
deriving DecidableEq, Repr, Inhabited

structure MtxPart where
  /-- queues, keyed `qKey` -/
  qs : Tbl QState
  jobs : Tbl MtxJob
  nextJob : Nat
  /-- slot states, keyed tower × 32 + physical slot -/
  slots : Tbl SlotSt
  /-- what each slot held since it was claimed, oldest first, keyed tower × 32 + physical slot (R200) -/
  past : Tbl (List SlotPast)
  array : Tbl (Option Granted)
  /-- the context each tower's array served last (R465) -/
  lastCtx : Tbl Nat
deriving DecidableEq, Repr, Inhabited

end Sys2Proof.Machine
end

