-- ==== Sys2Proof/Machine/UnitParts.lean ====
section
/-! DEFINITION. Further parts of State: the fabric ports, the reduction slices, the movers, the snapshots and the mirror
(11, 12, 13, 17). -/

namespace Sys2Proof.Machine

/-! ### Fabric (13) -/

/-- Where a direction's gusset rotation stands (R390): idle, lane p copied onto the gusset lane, the switch to p's
training agreed for a codeword, or p training. -/
inductive Rot where
  | idle | copying (p : Nat) | switching (p codeword : Nat) | training (p : Nat)
deriving DecidableEq, Repr, Inhabited

/-- The lanes of one direction beside its registers: the physical lane of each logical lane (empty until trained), the
rotation, the lane that trains as the new spare after a fault, the faulted lanes whose replies are awaited, the faulted lane whose
traffic moves to the gusset lane at a codeword, the lanes kept from a codeword on at half width, and the refclk tick of the last
rotation (R386, R390 to R394). -/
structure LaneDir where
  map : List Nat
  rot : Rot
  train : Option Nat
  faults : List Nat
  swap : Option (Nat × Nat)
  shrink : Option (List Nat × Nat)
  rotTick : DWord
deriving DecidableEq, Repr, Inhabited

/-- A flit that a port puts out (R396): its payload is filled up with zeros, and its CRC follows from the rest. -/
structure OutFlit where
  seq : Nat
  ack : Nat
  kind : Nat
  vc : Nat
  count : Nat
  payload : List Byte
deriving DecidableEq, Repr, Inhabited

/-- A packet waiting at an output port: the port it came in on (6: issued here) and its virtual channel there (15: it holds no
receive slot), its header with the payload bytes that are here, its flits sent, and the refclk tick it joined the queue at (R400,
R467). -/
structure TxPkt where
  inPort : Nat
  inVc : Nat
  pkt : Packet
  sent : Nat
  since : DWord
deriving DecidableEq, Repr, Inhabited

/-- A data flit in the replay buffer: flit `idx` of a packet that came in on port `inPort`, or 6 where it was issued here, and the
credits it returns (R398). -/
structure SentFlit where
  seq : Nat
  inPort : Nat
  pkt : Packet
  idx : Nat
  replays : Nat
  vc : Nat
  count : Nat
deriving DecidableEq, Repr, Inhabited

/-- Where the flits of a packet being received go: to this device, through to an output port, or nowhere, its route being lost
(R400, R420). -/
inductive RxWay where
  | here | through | lost
deriving DecidableEq, Repr, Inhabited

/-- A packet being received: its header, its way and the payload bytes so far. -/
structure RxPkt where
  hdr : Packet
  way : RxWay
  bytes : List Byte
deriving DecidableEq, Repr, Inhabited

/-- A fabric port beside its registers. -/
structure Port where
  /-- packets waiting to be sent, oldest first -/
  txq : List TxPkt
  /-- data flits sent and not acknowledged -/
  replay : List SentFlit
  nextSeq : Nat
  /-- the next seq to accept -/
  expect : Nat
  /-- flits are discarded until the expected one arrives (R398) -/
  discarding : Bool
  /-- slots of the partner's buffers in use, by virtual channel (R399) -/
  used : Tbl Nat
  /-- own receive slots in use, and receive slots free again that no flit has returned to the partner, by virtual channel -/
  held : Tbl Nat
  owed : Tbl Nat
  /-- the next seq to accept when the last flit was put out, whose ack names the one before (R396) -/
  told : Nat
  /-- flits put out, newest first -/
  wire : List OutFlit
  rx : Option RxPkt
  /-- the class served last among the classes served in round-robin (R401) -/
  lastClass : Nat
  /-- link control messages sent, newest first -/
  sent : List LinkMsg
  /-- replay requests sent: the seq each names, newest first -/
  requests : List Nat
  tx : LaneDir
  rxd : LaneDir
  /-- an IDENT has come since training -/
  identified : Bool
  /-- refclk tick of the last failed training (R388) -/
  failTick : Option DWord
  /-- refclk tick at which the present violation window began (R408) -/
  violStart : Option DWord
deriving DecidableEq, Repr, Inhabited

/-- What a request in flight serves: a mover part, a snapshot entry's page or close, a refill's, a reduction message, a
token, or a message of Lumdom (R405, R406). -/
inductive ReqFor where
  | part (job part : Nat) | snap (entry : Nat) | refill | reduce (group epoch : Nat) | token | other
deriving DecidableEq, Repr, Inhabited

/-- A packet issued by this device that may be answered. -/
structure Req where
  what : ReqFor
  kind : PktKind
  dst : Nat
  addr : Nat
  len : Nat
  tick : DWord
deriving DecidableEq, Repr, Inhabited

/-- The seam chain (R413 to R415). -/
structure Seam where
  /-- refclk tick of the last valid frame -/
  lastFrame : DWord
  lostSeen : Bool
  /-- refclk tick of the last frame sent, and frames sent -/
  sentTick : DWord
  sent : Nat
  /-- the frames sent, newest first (R413) -/
  frames : List (Word × Word)
deriving DecidableEq, Repr, Inhabited

structure FabPart where
  /-- ports by port code 0 to 5 (R384) -/
  ports : Tbl Port
  /-- packets received for this device and not yet handled, with their port (6: from this device) -/
  rxLocal : List (Nat × Packet)
  /-- requests in flight by tag -/
  reqs : Tbl (Option Req)
  nextTag : Nat
  /-- messages sent to other Lumdom instances: destination and message, newest first -/
  mgmtOut : List (Nat × Mgmt)
  seam : Seam
deriving DecidableEq, Repr, Inhabited

/-! ### Exact reduction (12) -/

/-- A shard summary (R370). -/
structure RedSum where
  shard : Nat
  clipped : Bool
  poisoned : Bool
  max : Nat
deriving DecidableEq, Repr, Inhabited

/-- What became of a segment of the own shard: not yet, converted, failed (R378). -/
inductive SegFate where
  | open | done | failed
deriving DecidableEq, Repr, Inhabited

/-- A bucket's reduction in a step, beside its work area. -/
structure BucketRun where
  step : Word
  /-- a contribution, partial or summary of the step has been handled -/
  started : Bool
  /-- locally open (R361) -/
  opened : Bool
  accepted : Nat
  satCount : Nat
  sums : List RedSum
  /-- fate of each segment of the own shard -/
  segs : Tbl SegFate
  /-- segments forwarded to next -/
  forwarded : Nat
  ownSent : Bool
  agreed : Bool
  /-- agreed maximum and clipped flag (R371) -/
  max : Nat
  clipped : Bool
  /-- scale exponent used in the step, and the value written to s_open if one was (R373) -/
  sUsed : Int
  sNext : Option Int
  sentDig : Nat
  /-- digests of the partials received, by shard × smax + segment; a poisoned segment has none (R381) -/
  received : Tbl Nat
  shardDig : Nat
  complete : Bool
deriving DecidableEq, Repr, Inhabited

/-- An issued contribute descriptor (R358, R359). -/
structure RedJob where
  t : Nat
  c : Nat
  words : List Nat
  index : Nat
  epoch : Nat
  step : Word
  sAct : Int
  sampled : Sampled
  accepted : Nat
  complete : Bool
deriving DecidableEq, Repr, Inhabited

/-- A segment of a bucket: group, layout epoch, bucket, shard and segment (R363). -/
structure SegRef where
  group : Nat
  epoch : Nat
  bucket : Nat
  shard : Nat
  seg : Nat
deriving DecidableEq, Repr, Inhabited

structure RedPart where
  jobs : Tbl RedJob
  nextJob : Nat
  /-- runs, keyed (2 group + epoch mod 2) × 65,536 + bucket -/
  buckets : Tbl BucketRun
  /-- sources that wait for a free open bucket (R361) -/
  waiting : List RedSource
  /-- reduction messages held for the next epoch, with their ports (R375, R376) -/
  held : List (Nat × Packet)
  /-- abort notices seen: group, epoch, and whether EPOCH_MISMATCH (R380) -/
  notices : List (Nat × Nat × Bool)
  /-- bucket completion records waiting for room, by group entry key -/
  rings : Tbl (List (List Nat))
  /-- address faults of shard stores, for the owning contexts: context, home tower and address (R27, R347, R368, R476) -/
  faults : List (Nat × Nat × Nat)
  /-- complete segments whose reads or stores still wait, oldest first (R20, R52, R322, R345) -/
  due : List SegRef
deriving DecidableEq, Repr, Inhabited

/-! ### Memory, movers, snapshots (11, 17) -/

inductive PartSt where
  | waiting | running | done | failed | abandoned
deriving DecidableEq, Repr, Inhabited

/-- A part of a mover transfer (R338): its fabric request in flight, whether a host message is, how many bytes of its rows it
has read from a remote source and written to a remote destination, and what the remote source answered, by position. -/
structure MvPart where
  st : PartSt
  tag : Option Nat
  host : Bool
  rpos : Nat
  wpos : Nat
  buf : List (Nat × List Byte)
deriving DecidableEq, Repr, Inhabited

/-- An issued mover descriptor (R336 to R339). -/
structure MvJob where
  t : Nat
  c : Nat
  words : List Nat
  index : Nat
  parts : List MvPart
  firstFailed : Option Nat
  cause : Nat
  ecc : Bool
  promoted : Bool
  /-- boundary count at issue and at the last store performed (R468) -/
  born : Nat
  stored : Nat
  sampled : Sampled
  complete : Bool
deriving DecidableEq, Repr, Inhabited

/-- A mirror table entry (R342). -/
structure Mirror where
  base : Nat
  size : Nat
  src : Nat
  valid : Bool
  filling : Bool
  step : Word
deriving DecidableEq, Repr, Inhabited

/-- One stream of snapshot or refill pages into a mirror entry: the entry, whether it is this device's own, the source
range, the pages read, the requests in flight and its outcome (R343, R477, R490). -/
structure PageRun where
  entry : Nat
  own : Bool
  dst : Nat
  base : Nat
  pages : Nat
  next : Nat
  tags : List Nat
  failed : Bool
  closed : Bool
deriving DecidableEq, Repr, Inhabited

/-- The snapshot in progress (R343, R346). -/
structure Snap where
  step : Word
  runs : List PageRun
  born : Nat
  stored : Nat
  promoted : Bool
deriving DecidableEq, Repr, Inhabited

/-- A refill this device sends (R490): the stream, the base of the entry it fills, the source entry and the step it held at
the start. -/
structure RefillOut where
  run : PageRun
  dstBase : Nat
  src : Nat
  step : Word
deriving DecidableEq, Repr, Inhabited

/-- The calibration window of a stack: its pseudo-channel, whether it is open, and the refclk tick it last opened at (R322,
R323). -/
structure CalWin where
  pc : Nat
  isOpen : Bool
  tick : DWord
deriving DecidableEq, Repr, Inhabited

structure MemPart where
  jobs : Tbl MvJob
  nextJob : Nat
  mirror : Tbl Mirror
  /-- the +D neighbour's mirror table: base and size of its entries (R343) -/
  nbrMirror : Tbl Mirror
  /-- the snapshot list (R343) -/
  snapList : List Word
  snap : Option Snap
  /-- a snapshot that waits for the one in progress (R346) -/
  snapNext : Option Snap
  /-- the refill of an own entry: the entry, its source, and its end: 0 running, 1 closed, 2 failed, 3 superseded
  (R490, R492) -/
  refillIn : Option (Nat × Nat × Nat)
  /-- the refills this device sends, at most one to each device that asked, oldest first (R490, R491) -/
  refillOut : List RefillOut
  /-- locations with an uncorrectable error: address and bytes (R319, R321) -/
  bad : List (Nat × Nat)
  /-- ranges whose contents are undefined until written: base, bytes and the number of their free values, newest first
  (R148) -/
  undef : List (Nat × Nat × Nat)
  /-- calibration window of each stack -/
  cal : Tbl CalWin
  /-- consecutive rotations in which a pseudo-channel kept its settings, keyed stack × 64 + pseudo-channel (R326) -/
  calKept : Tbl Nat
  /-- rows needing correction in this and in the last scrub pass (R320) -/
  scrubNow : List DWord
  scrubLast : List DWord
  /-- the repair list (R320), and the one the host supplied (R524) -/
  repair : List DWord
  supplied : List DWord
  /-- refreshes and refresh management commands issued, by stack × 64 + pseudo-channel (R313) -/
  refreshes : Tbl Nat
  rfm : Tbl Nat
deriving DecidableEq, Repr, Inhabited

end Sys2Proof.Machine
end

