-- ==== Sys2Proof/Machine/CodecParts.lean ====
section
/-! DEFINITION. The video codec complex as a part of State (10). -/

namespace Sys2Proof.Machine

/-- A picture of the decoded picture store: its number in decoding order, its presentation index, its samples after
concealment, and the class of each 16 × 16 block: 0 clean, 1 concealed, 2 suspect (R287, R298, R299). -/
structure Stored where
  num : Nat
  index : Nat
  pic : Pic
  taint : List Nat
deriving DecidableEq, Repr, Inhabited

/-- A record whose picture is being decoded: its presentation index, whether it ends the stream, and whether an error was
counted when it was taken (R284, R295). -/
structure Pending where
  index : Nat
  eos : Bool
  erred : Bool
deriving DecidableEq, Repr, Inhabited

/-- The stream state of a decode engine (R285, R295 to R298). -/
structure DecStream where
  /-- the ring control block and context it belongs to -/
  of : Option (Nat × Nat)
  /-- seq of the last record -/
  seq : Option Nat
  /-- records are skipped up to a random access point -/
  skip : Bool
  /-- every picture is concealed, up to a supported header at a random access point -/
  conceal : Bool
  hdr : Option SeqHdr
  /-- the picture being decoded -/
  due : Option Pending
  /-- the store, newest first, pictures decoded so far, and the number of the random access point where decoding began -/
  store : List Stored
  count : Nat
  began : Nat
  /-- the output frame written last -/
  last : Option Pic
deriving DecidableEq, Repr, Inhabited

/-- What the maps a job has written hold: base, position of token 0 and bits of a token, tokens written (R292, R299). -/
structure MapSpan where
  base : Nat
  first : Nat
  bits : Nat
  tokens : Nat
deriving DecidableEq, Repr, Inhabited

/-- Flags and counts of a decode completion record (R309). -/
structure DecFlags where
  streamErr : Bool
  hashMismatch : Bool
  sizeExceeded : Bool
  shortStream : Bool
  timedOut : Bool
  seqGap : Bool
  contLost : Bool
  unsupported : Bool
  ringResync : Bool
  live : Nat
  concealed : Nat
  suspect : Nat
  consumed : Nat
  skipped : Nat
deriving DecidableEq, Repr, Inhabited

/-- Flags and counts of an encode completion record (R309). -/
structure EncFlags where
  sliceDropped : Bool
  roiInvalid : Bool
  contLost : Bool
  forcedIdr : Bool
  emitted : Nat
  dropped : Nat
  qpMin : Nat
  qpMax : Nat
deriving DecidableEq, Repr, Inhabited

/-- A record an encode engine could not write yet: its payload, whether it begins an IDR picture, and whether it follows a drop
(R277, R279, R306). -/
structure Stalled where
  bytes : List Byte
  rap : Bool
  afterDrop : Bool
deriving DecidableEq, Repr, Inhabited

/-- A codec job: decode engines are 0 to 7, encode engines 8 and 9; a job of Lumdom has context 16 (R276, R307). -/
structure CdcJob where
  eng : Nat
  c : Nat
  words : List Nat
  index : Nat
  /-- the active settings at its issue (R41) -/
  sampled : Sampled
  /-- the engine runs it -/
  granted : Bool
  /-- refclk tick of its grant, or of the last record it consumed (R284) -/
  tick : DWord
  /-- output frames written, or frames coded; slices coded of the present picture -/
  next : Nat
  slice : Nat
  /-- wanted pictures that wait for an earlier frame, by output frame -/
  held : List (Nat × Stored)
  dec : DecFlags
  enc : EncFlags
  stalled : Option Stalled
  /-- output bytes and map bits written so far (R311) -/
  written : List (Nat × Nat)
  maps : List MapSpan
deriving DecidableEq, Repr, Inhabited

/-- A rectangle of a region table, with its signed offset (R304). -/
structure RoiRect where
  x : Nat
  y : Nat
  w : Nat
  h : Nat
  offset : Int
deriving DecidableEq, Repr, Inhabited

/-- The stream state of an encode engine (R300, R304 to R306). -/
structure EncStream where
  of : Option (Nat × Nat)
  /-- seq of the next record -/
  seq : Nat
  /-- what has been coded since the stream began, newest first: the references and the rate controller follow from it -/
  past : List Config.CodeIn
  /-- pictures since the last IDR picture, and since the stream's first -/
  sinceIdr : Nat
  count : Nat
  /-- the next picture is an IDR picture that no schedule asks for -/
  force : Bool
  /-- a slice was dropped, and no IDR picture has been emitted whole since -/
  afterDrop : Bool
  /-- the present picture is an IDR picture; every slice of it so far was emitted -/
  idr : Bool
  whole : Bool
  /-- the frame QP and the region table of the present picture, read when it started (R303, R304) -/
  qp : Nat
  roi : List RoiRect
  /-- bits of the present picture so far, and the fullness of the coded picture buffer in bits times rate_num (R303) -/
  bits : Nat
  fill : Nat
deriving DecidableEq, Repr, Inhabited

structure CdcPart where
  jobs : Tbl CdcJob
  nextJob : Nat
  dec : Tbl DecStream
  enc : Tbl EncStream
  /-- the context each engine served last -/
  lastCtx : Tbl Nat
deriving DecidableEq, Repr, Inhabited

end Sys2Proof.Machine
end

