-- ==== Sys2Proof/Machine/ControlParts.lean ====
section
/-! DEFINITION. Further parts of State: crossings, clocks, power, boot and pins (01, 19, 20, 21). -/

namespace Sys2Proof.Machine

/-- An entry on its way over the crossings: the island that sent it, the island it is for, and what it carries (R13, R18). -/
structure CrossEntry where
  src : Nat
  dst : Nat
  data : DWord
deriving DecidableEq, Repr, Inhabited

/-- A handshake crossing from one island to a neighbour (R17 to R20): entries that hold one of its 16 credits, sent and not
delivered or delivered and not taken by the neighbour, and entries whose sender stalls without a credit; each oldest first. -/
structure Crossing where
  held : List CrossEntry
  arrived : List CrossEntry
  stalled : List CrossEntry
deriving DecidableEq, Repr, Inhabited

/-- How far the device is powered and booted (R521, R523, R526, R538): regulators off; crystals being judged; the boot ROM
waiting for the flash bus; Lumdom running; the boot ROM halted; islands held in reset. -/
inductive PwrSt where
  | off | judging | flashWait | running | halted | held
deriving DecidableEq, Repr, Inhabited

structure PwrPart where
  st : PwrSt
  /-- the input rose above 62 V and has not been at or below 60 V for 10 ms since (R521) -/
  overVolt : Bool
  /-- the input fell below 38 V, and power-good has not risen since (R521, R551) -/
  underVolt : Bool
  /-- RST_N is low for 10 µs or more (R550) -/
  rstLow : Bool
  /-- the device holds after a thermal trip (R530) -/
  tripHold : Bool
  /-- the 500 µs of a reset have passed (R526) -/
  holdOver : Bool
  /-- islands lost since the device started (R21) -/
  lost : List Nat
  /-- the cause of the reset (R525) -/
  cause : Nat
  /-- refclk tick at which Lumdom started, while the boot watchdog counts (R539) -/
  watch : Option DWord
  /-- refclk tick at which mailbox 0 opened (R524) -/
  openTick : Option DWord
  /-- HBM training has begun; stacks reported failed (R313, R524) -/
  training : Bool
  failed : List Nat
  /-- loops that CLK_SEL_WRITE lets relock: bit i for loop i (R516) -/
  ramping : Nat
  /-- per tower: the refclk tick of its last rise while its sensor stays hot, and of its last level change or hot sensor
  (R529) -/
  hot : Tbl (Option DWord)
  calm : Tbl DWord
  /-- the last telemetry sample, its number and tick (R531) -/
  telemetry : List Word
  samples : Nat
  sampleTick : DWord
  /-- fuses: security version floor and revoked key slots (R532) -/
  floor : Nat
  revoked : Nat
  /-- bytes of the boot store written since, by offset (R536) -/
  flash : List (Nat × Byte)
  /-- FLASH_OWN_N is low, and the belfry has released the bus (R553) -/
  ownLow : Bool
  released : Bool
  /-- the running image: version, security version, floor and revocations it sets, and whether it is confirmed (R534,
  R540) -/
  version : Nat
  svn : Nat
  newFloor : Nat
  revoke : Nat
  confirmed : Bool
  /-- the bit the host sees in the boundary-scan data register: the captured value (R555) -/
  scan : Nat
  /-- the boundary register (R556) -/
  cells : BitVec 257
deriving DecidableEq, Repr, Inhabited

end Sys2Proof.Machine
end

