-- ==== Sys2Proof/Machine/HostParts.lean ====
section
/-! DEFINITION. Further parts of State: the host port, the mailboxes and the waiting mailbox commands (14, 15). -/

namespace Sys2Proof.Machine

/-! ### RoCEv2 (R425 to R429, R568) -/

/-- The states of a queue pair, in the order of R425. -/
inductive QpSt where
  | reset | init | rtr | rts | error
deriving DecidableEq, Repr, Inhabited

/-- An RDMA message this device sends for mover part `part` of job `job`: first PSN, host virtual address, bytes, the data
of a WRITE, and for a READ the place of its data in the part's rows. -/
structure RMsg where
  read : Bool
  psn : Nat
  va : Nat
  len : Nat
  data : List Byte
  job : Nat
  part : Nat
  pos : Nat
deriving DecidableEq, Repr, Inhabited

/-- A queue pair. Its send rate is `rate / 2 ^ rateBits` in 1/256 of the line rate, halved exactly (R429). -/
structure Qp where
  st : QpSt
  cause : Nat
  mtu : Nat
  tclass : Nat
  ackTimeout : Nat
  retry : Nat
  remoteQpn : Nat
  ip : List Byte
  va : Nat
  len : Nat
  rkey : Nat
  /-- next PSN to send, and next PSN expected from the host -/
  sqPsn : Nat
  rqPsn : Nat
  /-- messages not sent yet, and messages sent and not acknowledged, oldest first -/
  waiting : List RMsg
  sent : List RMsg
  /-- retransmissions since the last progress, and refclk tick of the last sending or progress (R425) -/
  tries : Nat
  ackTick : DWord
  rate : Nat
  rateBits : Nat
  /-- refclk ticks of the last halving, of the last notification or rise, and of the last notification sent (R429) -/
  cutTick : Option DWord
  calmTick : DWord
  cnpTick : Option DWord
deriving DecidableEq, Repr, Inhabited

/-- A device window (R427): base, size in 4 KiB units, R_Key and permissions (bit 0 read, bit 1 write). -/
structure Window where
  base : Nat
  size : Nat
  rkey : Nat
  perms : Nat
deriving DecidableEq, Repr, Inhabited

/-- A neighbour table entry (R422). -/
structure Neigh where
  ip : List Byte
  mac : List Byte
  valid : Bool
deriving DecidableEq, Repr, Inhabited

/-! ### Events (R437) -/

/-- An event record in the host event queue, with the refclk tick of its last sending. -/
structure EvtRec where
  seq : Word
  source : Nat
  ctx : Nat
  arg : DWord
  sentTick : Option DWord
deriving DecidableEq, Repr, Inhabited

/-! ### What the port sends and receives -/

/-- What the host port sends; a Belpel datagram with the UDP port of the device that it leaves from. -/
inductive HostOut where
  | belpel (port : Nat) (d : Datagram)
  | rdma (qp : Nat) (m : RMsg)
  | ack (qp psn : Nat)
  | nak (qp psn code : Nat)
  | readResp (qp psn : Nat) (data : List Byte)
  | cnp (qp : Nat)
  | arpReply (ip : List Byte)
  | neighbourAdvert (ip target : List Byte)
  | echoReply (ip : List Byte) (data : List Byte)
  | pfc (prio : Nat) (pause : Bool)
deriving DecidableEq, Repr

/-- What the port sent, with what its headers say: the VLAN id and priority code point of its tag where it has one, whether
ECT(0) is set and an ICRC carried, and the queue pair number it is for (R422, R425, R430). -/
structure HostSent where
  out : HostOut
  tag : Option (Nat × Nat)
  ect : Bool
  icrc : Bool
  destQp : Option Nat
deriving DecidableEq, Repr

/-! ### Mailboxes (R435 to R452) -/

/-- An accepted command: a ring slot with the seq and source of its DOORBELL, or the body of an INLINE_CMD with its seq and
source. -/
inductive MbItem where
  | slot (i : Nat) (seq : Word) (source : List Byte × Nat)
  | inline (seq : Word) (source : List Byte × Nat) (body : List Byte)
deriving DecidableEq, Repr

/-- A mailbox: its ring, its last sequence numbers, its stored REPLY, and its accepted commands that no core has taken, each with
its place in acceptance order. -/
structure Mbox where
  isOpen : Bool
  base : Nat
  slots : Nat
  replies : Bool
  tail : Nat
  bellSeq : Option Word
  inSeq : Option Word
  inReply : Option (List Byte)
  queue : List (Nat × MbItem)
deriving DecidableEq, Repr, Inhabited

/-- A command that holds its mailbox: waiting under R450 from the tick it was taken. -/
structure MbWait where
  hdr : CmdHdr
  cmd : MbCmd
  item : Option MbItem
  taken : DWord
deriving DecidableEq, Repr

/-- A reply of a command: mailbox, opcode, tag, status and body. -/
structure MbReply where
  mb : Nat
  opcode : Nat
  tag : Nat
  status : Status
  body : List Byte
deriving DecidableEq, Repr

structure HostPart where
  qps : Tbl Qp
  windows : Tbl Window
  neigh : Tbl Neigh
  /-- allow list: address and port, 0 for any (R433) -/
  allow : List (List Byte × Nat)
  /-- event endpoint: address and port -/
  endpoint : Option (List Byte × Nat)
  ipv4 : Option (List Byte)
  ipv6 : Option (List Byte)
  /-- event records not freed, oldest first, and the next event_seq -/
  events : List EvtRec
  nextSeq : Word
  /-- the last event_seq sent (R433) -/
  lastSent : Word
  mboxes : Tbl Mbox
  /-- commands accepted so far -/
  accepted : Nat
  /-- the mailbox served last (R445) -/
  lastMbox : Nat
  waiting : List MbWait
  /-- replies written, newest first -/
  replies : List MbReply
  /-- Belpel datagrams received and not handled, oldest first -/
  rx : List Datagram
  /-- what the port sent, newest first -/
  tx : List HostSent
  /-- sequence number of the device's next Belpel datagram -/
  txSeq : Word
  /-- priorities under a received pause, and pauses received for priorities in neither class (R430) -/
  paused : Nat
  stray : Nat
  /-- what waits for a received pause to end, oldest first -/
  stalled : List HostOut
  /-- pauses in force that this device sent -/
  pausing : Nat
deriving DecidableEq, Repr, Inhabited

end Sys2Proof.Machine
end

