-- ==== Sys2Proof/Machine/State.lean ====
section
/-! DEFINITION. The state of the block, as plain data, and its value right after reset. -/

namespace Sys2Proof.Machine

/-- Reasons the machine stops with a fault. -/
inductive Fault where
  /-- never raised: every command of the spec has an effect (safe) -/
  | none
deriving DecidableEq, Repr

/-- Reasons a command has no meaning. -/
inductive Refusal where
  /-- the command's meaning is not written yet; raised by its arm of exec alone (safe) -/
  | notModelled (mnemonic : String)
deriving DecidableEq, Repr

/-- The whole device. -/
structure State where
  /-- the commands waiting, first in first out -/
  pending : List Instr
  /-- registers that differ from their reset value, keyed by `regKey` -/
  regs : List (Nat × Word)
  /-- HBM, drum SRAM and accumulator memory: bytes that differ from 0x00, by device-local address -/
  mem : List Host.Cell
  /-- number of free values drawn so far -/
  freeCtr : Nat
  /-- the 64-bit refclk counter (CTL_REFCLK_LO and CTL_REFCLK_HI) -/
  refclk : DWord
  irq : IrqPart
  step : StepPart
  ctx : CtxPart
  thr : ThrPart
  mtx : MtxPart
  slv : SlvPart
  atn : AtnPart
  cdc : CdcPart
  fab : FabPart
  red : RedPart
  ram : MemPart
  host : HostPart
  /-- crossings by source and destination island: 33 × source + destination (R15) -/
  cross : Tbl Crossing
  pwr : PwrPart
  /-- what the last register read made by RC_FIELD_READ returned: the model's output, not state of the spec -/
  readData : Word
deriving DecidableEq, Repr

/-- The shadowed settings after reset: no spread spectrum at 30 kHz (CLK_SSC), no schedule, no bank pair. -/
def shadowReset : Shadow := { (default : Shadow) with sscRate := 30 }

/-- The memory whose contents are undefined after a reset or a loss of power: HBM, drum SRAM and accumulator memory (R522,
R526), as free values numbered from `n`. -/
def undefinedMemory (n : Nat) : List (Nat × Nat × Nat) :=
  [(0, 0x018000000000, n), (0x020000000000, 0x80000000, n + 1), (0x028000000000, 0x10000000, n + 2)]

/-- The host port after reset: before any event is sent, the last event_seq sent counts as 0xFFFF_FFFF (R433). -/
def hostReset : HostPart := { (default : HostPart) with lastSent := 0xFFFFFFFF }

/-- The machine right after reset: every register at its reset value, no command waiting, no island ready, the input off
(R522, R523). -/
def State.reset : State :=
  { pending := [], regs := [], mem := [], freeCtr := 3, refclk := 0, irq := default,
    step := { (default : StepPart) with openSet := shadowReset, staged := shadowReset, active := shadowReset },
    ctx := default, thr := default, mtx := default, slv := default, atn := default, cdc := default, fab := default, red := default,
    ram := { (default : MemPart) with undef := undefinedMemory 0 }, host := hostReset, cross := [], pwr := default,
    readData := 0 }

end Sys2Proof.Machine
end

