-- ==== Sys2Proof/Machine/Ops.lean ====
section
/-! DEFINITION. The named operations over registers, memory and interrupt sources. -/

namespace Sys2Proof.Machine

/-! ### Registers (R7, R8, R28, R29) -/

/-- The key of repeat `i` of register `r` in tower `t`. -/
def regKey (r : RegId) (t i : Nat) : Nat := (r.ctorIdx * 8 + t) * 1024 + i

/-- The reset value of a register: its fields' reset values in place (R8). The spare lane of a lane map is 0x10 on
the T ports, on the drums of T1 and T5, and 0x08 on the others (R10, R421); the serial number is fused. -/
def regReset (r : RegId) (t : Nat) : Word :=
  match r with
  | .plynLaneMapTx => if t == 1 || t == 5 then 0x10 else 0x08
  | .plynLaneMapRx => if t == 1 || t == 5 then 0x10 else 0x08
  | .secSerialLo => Config.serial.extractLsb' 0 32
  | .secSerialHi => Config.serial.extractLsb' 32 32
  | r => BitVec.ofNat 32 ((regDef r).fields.foldl (fun acc f => acc + f.reset * 2 ^ f.lo) 0)

/-- The value a register holds. -/
def State.reg (s : State) (r : RegId) (t i : Nat) : Word := sparseGet s.regs (regReset r t) (regKey r t i)

/-- `s` with a register set. -/
def State.setReg (s : State) (r : RegId) (t i : Nat) (w : Word) : State :=
  { s with regs := sparsePut s.regs (regReset r t) (regKey r t i) w }

/-- A field of a word. -/
def fldOf (w : Word) (f : Fld) : Nat := w.toNat / 2 ^ f.lo % 2 ^ f.width

/-- The mask of a field. -/
def Fld.mask (f : Fld) : Word := BitVec.ofNat 32 ((2 ^ f.width - 1) * 2 ^ f.lo)

/-- A word with a field set; the value is cut to the field's width. -/
def setFldOf (w : Word) (f : Fld) (v : Nat) : Word :=
  (w &&& ~~~f.mask) ||| BitVec.ofNat 32 (v % 2 ^ f.width * 2 ^ f.lo)

/-- A field of a register. -/
def State.fld (s : State) (r : RegId) (t i : Nat) (f : Fld) : Nat := fldOf (s.reg r t i) f

/-- `s` with a field of a register set by the hardware. -/
def State.setFld (s : State) (r : RegId) (t i : Nat) (f : Fld) (v : Nat) : State :=
  s.setReg r t i (setFldOf (s.reg r t i) f v)

/-- `s` with a one-bit field set to 1. -/
def State.flag (s : State) (r : RegId) (t i : Nat) (f : Fld) : State := s.setFld r t i f 1

/-- `s` with `n` added to a counter field, which saturates at all ones. -/
def State.count (s : State) (r : RegId) (t i : Nat) (f : Fld) (n : Nat) : State :=
  s.setFld r t i f (min (s.fld r t i f + n) (2 ^ f.width - 1))

/-- A one-bit field is 1. -/
def State.bit (s : State) (r : RegId) (t i : Nat) (f : Fld) : Bool := s.fld r t i f == 1

/-- The step number now running (CTL_STEP_NUMBER). -/
def State.stepNo (s : State) : Word := s.reg .ctlStepNumber 0 0

/-- A free value, and the state that has drawn it (log entry 3). -/
def State.free (s : State) : Nat × State := (Config.freeNat s.freeCtr, { s with freeCtr := s.freeCtr + 1 })

/-- Apply `f` to the state for each element of `l` in turn. -/
def State.each {α : Type} (s : State) (l : List α) (f : State → α → State) : State := l.foldl f s

/-- Base address of a register's first repeat in tower `t`. -/
def regBase (r : RegId) (t : Nat) : Nat := blockBase (regDef r).block t + (regDef r).off

/-- The register, tower and repeat at an address of register space; `none` at an unassigned offset (R27, R29). -/
def regAt (a : Nat) : Option (RegId × Nat × Nat) :=
  let inTower := a < 0x030008000000
  let t := if inTower then a / 0x01000000 % 8 else 0
  allRegs.findSome? fun r =>
    let d := regDef r
    let twr := d.block == .cupola || d.block == .drum
    let base := regBase r t
    let i := if d.stride == 0 then 0 else (a - base) / d.stride
    if twr == inTower && d.towers.testBit t && base ≤ a && a == base + i * d.stride && i < d.count then some (r, t, i)
    else none

/-- Address of repeat `i` of a register in tower `t`. -/
def regAddr (r : RegId) (t i : Nat) : Nat := regBase r t + i * (regDef r).stride

/-! ### Serial arithmetic (R563) -/

/-- `a` is later than `b` in 32-bit serial arithmetic. -/
def later (a b : Word) : Bool := 1 ≤ (a - b).toNat && (a - b).toNat ≤ 2 ^ 31 - 1
/-- `a` is earlier than `b` in 32-bit serial arithmetic. -/
def earlier (a b : Word) : Bool := 2 ^ 31 + 1 ≤ (a - b).toNat
/-- `a` lies exactly 2^31 from `b`: neither later nor earlier. -/
def opposite (a b : Word) : Bool := (a - b).toNat == 2 ^ 31

/-! ### Interrupt sources (R496 to R506) -/

/-- The source number is one of the catalogue (R506). -/
def srcListed (n : Nat) : Bool :=
  n ≤ 6 || (16 ≤ n && n < 134) || n == 134 || (144 ≤ n && n ≤ 147) || n == 160 || n == 176 || n == 177
    || (192 ≤ n && n < 224) || n == 768

/-- Bits [47:0] and the count of an argument (R498). -/
def argOf (count : Nat) (a : Addr) : DWord := a.zeroExtend 64 ||| BitVec.ofNat 64 (min count 0xFFFF * 2 ^ 48)

/-- The count field of an argument. -/
def argCount (d : DWord) : Nat := d.toNat / 2 ^ 48

/-- The argument `a` merged into the waiting argument under merge mode 0 FIRST, 1 LAST or 2 OR (R498). -/
def mergeArg (mode : Nat) (old : DWord) (a : Addr) : DWord :=
  let prev : Addr := old.extractLsb' 0 48
  argOf (argCount old + 1) (if mode == 1 then a else if mode == 2 then prev ||| a else prev)

/-- The source `x` after a raise with argument `a`, by its sense and merge (R497, R498). -/
def IrqSrc.raised (x : IrqSrc) (level : Bool) (merge : Nat) (a : Addr) : IrqSrc :=
  match x.st with
  | .idle => { x with st := .pending, arg := argOf 1 a }
  | .pending => if level && x.cond == some a then x else { x with arg := mergeArg merge x.arg a }
  | .active => if level then x else { x with st := .activePending, arg := argOf 1 a }
  | .activePending => if level then x else { x with arg := mergeArg merge x.arg a }

/-- SOURCE_RAISE: source `n` is raised with argument `a` (R497, R498). A reserved source is never raised (R506). -/
def State.raise (s : State) (n : Nat) (a : Nat) : State :=
  if srcListed n then
    let cfg := s.reg .irqSrcCfg 0 n
    let x := (tget s.irq.srcs n).raised (fldOf cfg irqSrcCfg_sense == 1) (fldOf cfg irqSrcCfg_merge) (BitVec.ofNat 48 a)
    { s with irq := { s.irq with srcs := tput s.irq.srcs n x } }
  else s

/-- The condition of a level source now holds with argument `a`, or (`none`) no longer holds (R497). -/
def State.setCond (s : State) (n : Nat) (a : Option Nat) : State :=
  match a with
  | none => { s with irq := { s.irq with srcs := tmod s.irq.srcs n fun x => { x with cond := none } } }
  | some v =>
    let s := s.raise n v
    { s with irq := { s.irq with srcs := tmod s.irq.srcs n fun x => { x with cond := some (BitVec.ofNat 48 v) } } }

/-- A completion of source `n` (R501): ACTIVE to IDLE and ACTIVE_PENDING to PENDING; a level source whose condition
still holds is PENDING again at once (R497). -/
def State.complete (s : State) (n : Nat) : State :=
  let x := tget s.irq.srcs n
  let y := match x.st with
    | .active =>
      (match x.cond with
       | some a => { x with st := SrcState.pending, arg := argOf 1 a, act := 0 }
       | none => { x with st := SrcState.idle, arg := 0, act := 0 })
    | .activePending => { x with st := .pending, act := 0 }
    | .idle => x
    | .pending => x
  { s with irq := { s.irq with srcs := tput s.irq.srcs n y } }

/-- The argument of sources whose argument is "ctx/tower" (R506). -/
def ctxTower (c t : Nat) : Nat := c + 2 ^ (8 + t)

/-! ### Contexts and their state -/

/-- The state field of a context: 0 NONE, 1 ACTIVE, 2 TEARDOWN, 3 FAULTED (R456). -/
def State.ctxState (s : State) (c : Nat) : Nat := s.fld .ctlCtxState 0 c ctlCtxState_state

/-- The context is ACTIVE (R456): its units issue and its threads run. -/
def State.ctxActive (s : State) (c : Nat) : Bool := s.ctxState c == 1

/-- The context is a member of the step group (R32). -/
def State.member (s : State) (c : Nat) : Bool := s.bit .ctlCtxState 0 c ctlCtxState_member

/-- The active settings as a unit of context `c` samples them at its issue (R41, R459, R461). -/
def State.sample (s : State) (c : Nat) : Sampled :=
  { prio := (tget s.step.active.sched c).prio, base := s.step.active.lantern.base, size := s.step.active.lantern.size }

/-! ### Threads -/

/-- The key of thread index `i` of tower `t`. -/
def thrKey (t i : Nat) : Nat := t * 262144 + i
def keyTower (k : Nat) : Nat := k / 262144
def keyIndex (k : Nat) : Nat := k % 262144

def State.trec (s : State) (k : Nat) : ThrRec := tget s.thr.recs k
def State.seat (s : State) (k : Nat) : Seat := tget s.thr.seats k
def State.setRec (s : State) (k : Nat) (r : ThrRec) : State := { s with thr := { s.thr with recs := tput s.thr.recs k r } }
/-- The thread with record `r` occupies a seat: it runs, has not exited, and its context has not been torn down (R169, R174,
R473). -/
def State.seated (s : State) (k : Nat) (r : ThrRec) : Bool := r.st == .running && !(s.seat k).exited && s.ctxActive r.ctx
def State.setSeat (s : State) (k : Nat) (x : Seat) : State := { s with thr := { s.thr with seats := tput s.thr.seats k x } }
def State.accs (s : State) (k : Nat) : List Acc := tget s.thr.accs k
def State.setAccs (s : State) (k : Nat) (l : List Acc) : State := { s with thr := { s.thr with accs := tput s.thr.accs k l } }

/-- The 192 bytes of a thread record as 48 words (R175). -/
def ThrRec.words (r : ThrRec) : List Nat :=
  let sw := (List.range 16).flatMap fun j =>
    let v := (tget r.sc.s j).toNat
    [v % 2 ^ 32, v / 2 ^ 32]
  let fl := r.sc.flags
  let flags := fl.invalid.toNat + 2 * fl.overflow.toNat + 4 * fl.underflow.toNat + 8 * fl.inexact.toNat
    + 16 * fl.saturated.toNat
  sw ++ [r.sc.pc % 2 ^ 32, r.sc.pc / 2 ^ 32 % 2 ^ 16, r.sc.vl % 512 + r.sc.vtype.toNat * 2 ^ 16,
    flags + r.sc.phaseId % 16 * 32 + r.sc.phaseEn.toNat * 512,
    r.st.code + r.reason.code * 2 ^ 8 + r.wakeDst % 16 * 2 ^ 12 + r.ctx % 16 * 2 ^ 16 + r.deadlineEn.toNat * 2 ^ 20,
    r.waitArg.toNat, r.waitVal.toNat, r.deadline.toNat, r.wakeValue.toNat % 2 ^ 32, r.wakeValue.toNat / 2 ^ 32,
    r.parkTick.toNat, r.spawner % 2 ^ 18, 0, 0, 0, 0]

/-! ### The address map (R23, R24) -/

/-- What a device-local address belongs to (R23, R24). -/
inductive Region where
  | hbm | scratch (t : Nat) | ctxStore (t : Nat) | queueMem (t : Nat) | acc (t : Nat) | regSpace | reserved
deriving DecidableEq, Repr

/-- The region of a device-local address (R23, R24). -/
def regionOf (a : Nat) : Region :=
  if a < 0x018000000000 then .hbm
  else if a < 0x020000000000 then .reserved
  else if a < 0x020080000000 then
    let off := a % 0x10000000
    let t := (a - 0x020000000000) / 0x10000000
    if off < 0xC000000 then .scratch t else if off < 0xF000000 then .ctxStore t else .queueMem t
  else if a < 0x028000000000 then .reserved
  else if a < 0x028010000000 then .acc ((a - 0x028000000000) / 0x02000000)
  else if a < 0x030000000000 then .reserved
  else if a < 0x030100000000 then .regSpace
  else .reserved

/-- Base of the drum SRAM window of a tower (R23). -/
def drumBase (t : Nat) : Nat := 0x020000000000 + t * 0x10000000
/-- Base of the accumulator window of a tower (R23). -/
def accBase (t : Nat) : Nat := 0x028000000000 + t * 0x02000000

/-- The address lies in a drum SRAM window. -/
def inDrum (a : Nat) : Bool := 0x020000000000 ≤ a && a < 0x020080000000
/-- The tower of a drum SRAM address. -/
def drumOf (a : Nat) : Nat := (a - 0x020000000000) / 0x10000000

/-! ### Memory (R4, R23 to R26) -/

/-- What a byte of memory that nothing has written reads as (log entry 2). -/
def memDefault : Byte := 0x00

/-- The number of the undefined range that covers `a`, where one does (R148). -/
def State.undefAt (s : State) (a : Nat) : Option Nat :=
  (s.ram.undef.find? fun u => u.1 ≤ a && a < u.1 + u.2.1).map (·.2.2)

/-- The parts of undefined ranges outside [a, a + n). -/
def carve (l : List (Nat × Nat × Nat)) (a n : Nat) : List (Nat × Nat × Nat) :=
  l.flatMap fun u =>
    let (b, m, k) := u
    if a + n ≤ b || b + m ≤ a then [u]
    else
      (if b < a then [(b, a - b, k)] else []) ++ (if a + n < b + m then [(a + n, b + m - (a + n), k)] else [])

/-- One byte of memory: the thread context store reads the records (R25, R175), whose word 36 is current in every state of an
index; a byte of an undefined range is a free value until it is written (R148). -/
def State.byte (s : State) (a : Nat) : Byte :=
  match regionOf a with
  | .ctxStore t =>
    let off := a % 0x10000000 - 0xC000000
    let r := s.trec (thrKey t (off / 192))
    match s.undefAt a with
    | some k =>
      if r == default && off % 192 / 4 != 36 then Config.freeByte k a
      else BitVec.ofNat 8 (r.words.getD (off % 192 / 4) 0 / 2 ^ (8 * (a % 4)))
    | none => BitVec.ofNat 8 (r.words.getD (off % 192 / 4) 0 / 2 ^ (8 * (a % 4)))
  | _ =>
    match s.undefAt a with
    | some k => Config.freeByte k a
    | none => sparseGet s.mem memDefault a

/-- `n` bytes from address `a`. -/
def State.bytes (s : State) (a n : Nat) : List Byte := (List.range n).map fun i => s.byte (a + i)

/-- The number whose little-endian bytes are `bs` (R4). -/
def leOf (bs : List Byte) : Nat := bs.foldr (fun b acc => b.toNat + 256 * acc) 0

/-- The `n` little-endian bytes of `v` (R4). -/
def bytesOf (n v : Nat) : List Byte := (List.range n).map fun i => BitVec.ofNat 8 (v / 2 ^ (8 * i))

/-- The `n`-byte little-endian number at `a`. -/
def State.num (s : State) (a n : Nat) : Nat := leOf (s.bytes a n)

/-- The 32-bit word at `a`. -/
def State.word (s : State) (a : Nat) : Nat := s.num a 4

/-- `s` with one byte of memory written, with no further effect. -/
def State.putByte (s : State) (a : Nat) (b : Byte) : State :=
  { s with mem := sparsePut s.mem memDefault a b, ram := { s.ram with undef := carve s.ram.undef a 1 } }

/-- `s` with the bytes of [a, a + n) reading as they do when nothing has written them. -/
def State.clearRange (s : State) (a n : Nat) : State :=
  { s with mem := s.mem.filter fun c => c.1 < a || a + n ≤ c.1, ram := { s.ram with undef := carve s.ram.undef a n } }

/-- The contents of [a, a + n) become undefined (R148). -/
def State.spoil (s : State) (a n : Nat) : State :=
  if n == 0 then s
  else
    let s := s.clearRange a n
    { s with ram := { s.ram with undef := (a, n, s.freeCtr) :: s.ram.undef }, freeCtr := s.freeCtr + 1 }

/-- `s` with bytes of memory written from `a`, with no further effect. -/
def State.putBytes (s : State) (a : Nat) (bs : List Byte) : State :=
  match bs with
  | [] => s
  | b :: rest => (s.putByte a b).putBytes (a + 1) rest

/-! ### Waking threads (R180, R181) -/

/-- A parked thread becomes READY with a wake value (R180). -/
def State.wake (s : State) (k : Nat) (v : DWord) : State :=
  let r := s.trec k
  let s := s.setRec k { r with st := .ready, wakeValue := v }
  { s with thr := { s.thr with ready := s.thr.ready ++ [k] } }

/-- Keys of the threads for which `p` holds, in ascending tower and index. -/
def State.threadsWhere (s : State) (p : Nat → ThrRec → Bool) : List Nat :=
  (s.thr.recs.filter fun kr => p kr.1 kr.2).map (·.1)

/-- WATCH_MATCH: stores to [a, a + n) make the drums compare the watched words of the 64-byte lines they touch, and
a difference wakes the thread with wake_value 0 (R181). -/
def State.watchMatch (s : State) (a n : Nat) : State :=
  if inDrum a then
    let hit := s.threadsWhere fun k r =>
      let w := drumBase (keyTower k) + r.waitArg.toNat
      r.st == .parked && r.reason == .wait && w / 64 ≥ a / 64 && w / 64 ≤ (a + n - 1) / 64
        && s.word w != r.waitVal.toNat
    s.each hit fun s k => s.wake k 0
  else s

/-- Locations with an uncorrectable error that a write of [a, a + n) covers keep it no longer (R319). -/
def State.clearBad (s : State) (a n : Nat) : State :=
  if s.ram.bad.isEmpty then s
  else { s with ram := { s.ram with bad := s.ram.bad.filter fun b => !(a ≤ b.1 && b.1 + b.2 ≤ a + n) } }

/-- A store of `bs` at `a` is performed: the bytes are written, errors they cover are gone and the watches compared
(R181, R194, R319). -/
def State.store (s : State) (a : Nat) (bs : List Byte) : State :=
  ((s.putBytes a bs).clearBad a bs.length).watchMatch a bs.length

/-- A store of the `n`-byte number `v` at `a`. -/
def State.storeNum (s : State) (a n v : Nat) : State := s.store a (bytesOf n v)

/-- A store of 32-bit words one after another from `a`. -/
def State.storeWords (s : State) (a : Nat) (ws : List Nat) : State := s.store a (ws.flatMap (bytesOf 4))

end Sys2Proof.Machine
end

