-- ==== Sys2Proof/Machine/CodecData.lean ====
section
/-! DEFINITION. Jobs of the codec complex: how one is given up (R311). -/

namespace Sys2Proof.Machine

def State.cdcJob (s : State) (n : Nat) : CdcJob := tget s.cdc.jobs n
def State.setCdcJob (s : State) (n : Nat) (j : CdcJob) : State := { s with cdc := { s.cdc with jobs := tput s.cdc.jobs n j } }
def State.decStream (s : State) (e : Nat) : DecStream := tget s.cdc.dec e
def State.setDecStream (s : State) (e : Nat) (x : DecStream) : State := { s with cdc := { s.cdc with dec := tput s.cdc.dec e x } }
def State.encStream (s : State) (e : Nat) : EncStream := tget s.cdc.enc e
def State.setEncStream (s : State) (e : Nat) (x : EncStream) : State := { s with cdc := { s.cdc with enc := tput s.cdc.enc e x } }

/-- Bits [sh + n − 1:sh] of the byte at `a` take a value in one merged access; the byte's other bits stay (R294). -/
def State.mergeBits (s : State) (a sh n v : Nat) : State :=
  let old := (s.byte a).toNat
  let keep := old % 2 ^ sh + old / 2 ^ (sh + n) * 2 ^ (sh + n)
  s.store a [BitVec.ofNat 8 (keep + v % 2 ^ n * 2 ^ sh)]

/-- The bits a job wrote into a map become free values; bits of other jobs stay (R294, R311). -/
def State.spoilMap (s : State) (x : MapSpan) : State :=
  let (v, s) := s.free
  s.each (List.range x.tokens) fun s m =>
    let p := (x.first + m) * x.bits
    s.mergeBits (x.base + p / 8) (p % 8) x.bits (v / 2 ^ (m * x.bits))

/-- A codec job is given up: its output is undefined, and its engine's stream state is gone (R311). -/
def State.cdcDrop (s : State) (n : Nat) : State :=
  let j := s.cdcJob n
  let s := s.each j.written fun s x => s.spoil x.1 x.2
  let s := s.each j.maps State.spoilMap
  let s := if !j.granted then s
    else if j.eng < 8 then s.setDecStream j.eng default else s.setEncStream j.eng default
  { s with cdc := { s.cdc with jobs := sparseDrop s.cdc.jobs n } }

/-- The codec jobs of a context stop (R311, R473). -/
def State.cdcStop (s : State) (c : Nat) : State :=
  s.each ((s.cdc.jobs.filter fun x => x.2.c == c).map (·.1)) State.cdcDrop

end Sys2Proof.Machine
end

