-- ==== Sys2Proof/Machine/Arith.lean ====
section
/-! DEFINITION. Exact floating-point arithmetic and its rounding (R59, R74, R212, R213), with the functions
whose results the spec bounds by one unit in the last place (R213, R251). -/

namespace Sys2Proof.Machine

/-- Sum of two exact values under IEEE 754 (R74); an exact zero sum of opposite signs is +0. -/
def FVal.add (a b : FVal) : FVal :=
  match a, b with
  | .nan, _ => .nan
  | _, .nan => .nan
  | .inf x, .inf y => if x == y then .inf x else .nan
  | .inf x, .fin _ _ _ => .inf x
  | .fin _ _ _, .inf y => .inf y
  | .fin x m e, .fin y n k =>
    let lo := min e k
    let p : Int := (if x then -1 else 1) * ((m * 2 ^ (e - lo).toNat : Nat) : Int)
    let q : Int := (if y then -1 else 1) * ((n * 2 ^ (k - lo).toNat : Nat) : Int)
    let s := p + q
    if s == 0 then .fin (x && y) 0 lo else .fin (s < 0) s.natAbs lo

/-- Product of two exact values under IEEE 754 (R74). -/
def FVal.mul (a b : FVal) : FVal :=
  match a, b with
  | .nan, _ => .nan
  | _, .nan => .nan
  | .inf x, .inf y => .inf (x != y)
  | .inf x, .fin y n _ => if n == 0 then .nan else .inf (x != y)
  | .fin x m _, .inf y => if m == 0 then .nan else .inf (x != y)
  | .fin x m e, .fin y n k => .fin (x != y) (m * n) (e + k)

/-- The order of two values, `none` when either is a NaN; the two zeros are equal. -/
def FVal.cmp (a b : FVal) : Option Ordering :=
  match a, b with
  | .nan, _ => none
  | _, .nan => none
  | .inf x, .inf y => some (if x == y then .eq else if x then .lt else .gt)
  | .inf x, .fin _ _ _ => some (if x then .lt else .gt)
  | .fin _ _ _, .inf y => some (if y then .gt else .lt)
  | .fin x m e, .fin y n k =>
    match FVal.add (.fin x m e) (.fin (!y) n k) with
    | .fin neg d _ => some (if d == 0 then .eq else if neg then .lt else .gt)
    | _ => none

/-- −0 or a negative value. -/
def FVal.isNeg (v : FVal) : Bool :=
  match v with
  | .nan => false | .inf n => n | .fin n _ _ => n

/-- The value is ±0. -/
def FVal.isZero (v : FVal) : Bool :=
  match v with
  | .fin _ m _ => m == 0
  | _ => false

/-- minimum(a, b): NaN if either is a NaN; −0 below +0 (R213). -/
def FVal.minimum (a b : FVal) : FVal :=
  match a.cmp b with
  | none => .nan
  | some .lt => a
  | some .gt => b
  | some .eq => if a.isNeg then a else b

/-- maximum(a, b): NaN if either is a NaN; −0 below +0 (R213). -/
def FVal.maximum (a b : FVal) : FVal :=
  match a.cmp b with
  | none => .nan
  | some .lt => b
  | some .gt => a
  | some .eq => if a.isNeg then b else a

/-- A rounded operation's outcome in a vector format. -/
def invalidIf (b : Bool) (r : Conv) : Conv := { r with invalid := r.invalid || b }

/-- An operation produced a NaN although no operand was one. -/
def newNan (r : FVal) (ops : List FVal) : Bool := r == .nan && !ops.contains .nan

/-- a + b in layout `f`, rounded to nearest (R212). -/
def fpAdd (f : FloatFmt) (a b : FVal) : Conv :=
  let r := a.add b
  invalidIf (newNan r [a, b]) (f.encode .nearest r)

/-- a × b in layout `f` (R212). -/
def fpMul (f : FloatFmt) (a b : FVal) : Conv :=
  let r := a.mul b
  invalidIf (newNan r [a, b]) (f.encode .nearest r)

/-- a × b + c in layout `f`, rounded once (R212). -/
def fpFma (f : FloatFmt) (a b c : FVal) : Conv :=
  let r := (a.mul b).add c
  invalidIf (newNan r [a, b, c]) (f.encode .nearest r)

/-- a / b in layout `f`, correctly rounded (R213). -/
def fpDiv (f : FloatFmt) (a b : FVal) : Conv :=
  match a, b with
  | .nan, _ => f.encode .nearest .nan
  | _, .nan => f.encode .nearest .nan
  | .inf _, .inf _ => invalidIf true (f.encode .nearest .nan)
  | .inf x, .fin y _ _ => f.encode .nearest (.inf (x != y))
  | .fin x _ _, .inf y => f.encode .nearest (.fin (x != y) 0 0)
  | .fin x m e, .fin y n k =>
    if n == 0 then
      if m == 0 then invalidIf true (f.encode .nearest .nan) else f.encode .nearest (.inf (x != y))
    else
      let sh := 64 + Nat.log2 n
      let num := m * 2 ^ sh
      f.encodeTail .nearest (.fin (x != y) (num / n) (e - k - (sh : Int))) (num % n != 0)

/-- floor(sqrt(n)), by `k` bits from the top. -/
def isqrtAux (n : Nat) (k : Nat) (r : Nat) : Nat :=
  match k with
  | 0 => r
  | j + 1 =>
    let c := r + 2 ^ j
    isqrtAux n j (if c * c ≤ n then c else r)

/-- floor(sqrt(n)). -/
def isqrt (n : Nat) : Nat := isqrtAux n (Nat.log2 n / 2 + 1) 0

/-- The square root in layout `f`, correctly rounded; −0 gives −0 and a negative value the NaN (R213). -/
def fpSqrt (f : FloatFmt) (a : FVal) : Conv :=
  match a with
  | .nan => f.encode .nearest .nan
  | .inf n => if n then invalidIf true (f.encode .nearest .nan) else f.encode .nearest (.inf false)
  | .fin neg m e =>
    if m == 0 then f.encode .nearest (.fin neg 0 0)
    else if neg then invalidIf true (f.encode .nearest .nan)
    else
      let (m1, e1) := if e % 2 == 0 then (m, e) else (2 * m, e - 1)
      let n := m1 * 2 ^ 128
      let r := isqrt n
      f.encodeTail .nearest (.fin false r (e1 / 2 - 64)) (r * r != n)

/-! ### Functions known to one unit in the last place (R213, R251) -/

/-- Fractional bits of the fixed-point evaluation below. -/
def fxBits : Nat := 256

/-- ln 2 in fixed point: the sum of 1 / (k 2^k). -/
def ln2Aux (k : Nat) (acc : Nat) : Nat :=
  match k with
  | 0 => acc
  | j + 1 => ln2Aux j (acc + 2 ^ fxBits / ((j + 1) * 2 ^ (j + 1)))

/-- ln 2 × 2^fxBits. -/
def ln2Fx : Nat := ln2Aux 260 0

/-- log2 e × 2^fxBits. -/
def log2eFx : Nat := 2 ^ (2 * fxBits) / ln2Fx

/-- The Taylor sum of exp(y), y in fixed point below 1, over `n` further terms from term number `k`. -/
def expTaylor (n : Nat) (k : Nat) (y term acc : Nat) : Nat :=
  match n with
  | 0 => acc
  | j + 1 =>
    let t := term * y / 2 ^ fxBits / (k + 1)
    expTaylor j (k + 1) y t (acc + t)

/-- 2^f × 2^fxBits for a fixed-point f below 1. -/
def exp2Frac (f : Nat) : Nat :=
  expTaylor 64 0 (f * ln2Fx / 2 ^ fxBits) (2 ^ fxBits) (2 ^ fxBits)

/-- The code chosen by `pick` among those within one unit in the last place of the exact value that lies
at m × 2^e (or just above it, with `sticky`): the two neighbours of an inexact value; an exact value and
its two neighbours (R213: "within 1 unit in the last place of the exact result"). -/
def withinUlp (f : FloatFmt) (pick : Nat) (neg : Bool) (m : Nat) (e : Int) (sticky : Bool) : Conv :=
  let (lo, inx) := roundMag f .toward m e sticky
  let mag :=
    if inx then (if pick % 2 == 0 then lo else lo + 1)
    else if pick % 3 == 0 then lo else if pick % 3 == 1 then lo + 1 else lo - 1
  let inexact := inx || mag != lo
  if mag > f.maxFin then { code := f.signed neg f.infMag, ovf := true, inexact := true }
  else { code := f.signed neg mag, inexact := inexact, unf := inexact && mag < 2 ^ f.mb && (m != 0 || sticky) }

/-- 2^(n + frac / 2^fxBits) in layout `f`, within one unit in the last place. -/
def exp2Of (f : FloatFmt) (pick : Nat) (n : Int) (frac : Nat) : Conv :=
  if n > 200 then { code := f.infMag, ovf := true, inexact := true }
  else if n < -400 then withinUlp f pick false 1 (-400) true
  else withinUlp f pick false (exp2Frac frac) (n - fxBits) (frac != 0)

/-- floor and fraction (in fixed point) of ±m × 2^e; beyond 2^20 the floor alone is kept. -/
def splitFx (neg : Bool) (m : Nat) (e : Int) : Int × Nat :=
  let i : Int :=
    if 0 ≤ e + fxBits then ((m * 2 ^ (min (e + fxBits).toNat 2048) : Nat) : Int)
    else ((m / 2 ^ (-(e + fxBits)).toNat : Nat) : Int)
  let v := if neg then -i else i
  (v / (2 ^ fxBits : Nat), (v % (2 ^ fxBits : Nat)).toNat)

/-- 2^a (R213). `pick` is the free choice within the bound. -/
def fpExp2 (f : FloatFmt) (pick : Nat) (a : FVal) : Conv :=
  match a with
  | .nan => f.encode .nearest .nan
  | .inf n => f.encode .nearest (if n then .zero else .inf false)
  | .fin neg m e =>
    let (n, fr) := splitFx neg m e
    exp2Of f pick n fr

/-- exp(a) in FP32, within one unit in the last place (R251); exp(−∞) = 0 (R250). -/
def fpExp (f : FloatFmt) (pick : Nat) (a : FVal) : Conv :=
  match a with
  | .nan => f.encode .nearest .nan
  | .inf n => f.encode .nearest (if n then .zero else .inf false)
  | .fin neg m e =>
    let (n, fr) := splitFx neg (m * log2eFx) (e - fxBits)
    exp2Of f pick n fr

/-- The next `k` fraction bits of log2 of y (fixed point, 1 ≤ y < 2), appended to `acc`. -/
def log2Bits (k : Nat) (y acc : Nat) : Nat :=
  match k with
  | 0 => acc
  | j + 1 =>
    let z := y * y / 2 ^ fxBits
    if z ≥ 2 ^ (fxBits + 1) then log2Bits j (z / 2) (2 * acc + 1) else log2Bits j z (2 * acc)

/-- log2(a): a negative value gives the NaN with invalid, ±0 gives −∞ (R213). -/
def fpLog2 (f : FloatFmt) (pick : Nat) (a : FVal) : Conv :=
  match a with
  | .nan => f.encode .nearest .nan
  | .inf n => if n then invalidIf true (f.encode .nearest .nan) else f.encode .nearest (.inf false)
  | .fin neg m e =>
    if m == 0 then f.encode .nearest (.inf true)
    else if neg then invalidIf true (f.encode .nearest .nan)
    else
      let l := Nat.log2 m
      let y := m * 2 ^ fxBits / 2 ^ l
      let fr := log2Bits 120 y 0
      let v : Int := ((l : Int) + e) * (2 ^ 120 : Nat) + fr
      let exact := m == 2 ^ l
      if exact && v == 0 then withinUlp f pick false 0 0 false
      else if v < 0 then
        -- the magnitude lies just below −v when a tail follows
        withinUlp f pick true (if exact then v.natAbs else v.natAbs - 1) (-120) (!exact)
      else withinUlp f pick false v.natAbs (-120) (!exact)

end Sys2Proof.Machine
end

