-- ==== Sys2Proof/Machine/Flags.lean ====
section
/-! DEFINITION. The sticky flags of a thread (R175, R218, R232). -/

namespace Sys2Proof.Machine

/-- The conditions of one result ORed with those of another (R232). -/
def FFlags.or (a b : FFlags) : FFlags :=
  ⟨a.invalid || b.invalid, a.overflow || b.overflow, a.underflow || b.underflow, a.inexact || b.inexact,
    a.saturated || b.saturated⟩

/-- The conditions a rounded result raises (R218, R232). -/
def Conv.flags (r : Conv) : FFlags := ⟨r.invalid, r.ovf, r.unf, r.inexact, r.sat⟩

/-- The conditions an integer conversion raises (R218). -/
def ConvInt.flags (r : ConvInt) : FFlags := ⟨r.invalid, false, false, r.inexact, r.sat⟩

/-- No condition. -/
def FFlags.none : FFlags := ⟨false, false, false, false, false⟩

/-- Bits [4:0] of the flags: invalid, overflow, underflow, inexact, saturated (R175). -/
def FFlags.bits (f : FFlags) : Nat :=
  f.invalid.toNat + 2 * f.overflow.toNat + 4 * f.underflow.toNat + 8 * f.inexact.toNat + 16 * f.saturated.toNat

/-- The flags of bits [4:0] (SWRF, R210). -/
def FFlags.ofBits (n : Nat) : FFlags :=
  ⟨n % 2 == 1, n / 2 % 2 == 1, n / 4 % 2 == 1, n / 8 % 2 == 1, n / 16 % 2 == 1⟩

end Sys2Proof.Machine
end

