-- ==== Sys2Proof/Machine/Operands.lean ====
section
/-! DEFINITION. Operands of the vector-core instructions: registers of a seat, elements, masks, register groups and
the legality checks of R205, R207, R208 and R209. -/

namespace Sys2Proof.Machine

/-! ### Element types (R207, R189) -/

/-- The element code of a vtype byte. -/
def vtCode (v : Byte) : Nat := v.toNat % 32
/-- The unsigned bit of a vtype byte. -/
def vtUnsigned (v : Byte) : Bool := v.toNat / 32 % 2 == 1

/-- Width in a register of an element code; 0 for a reserved code (R207). -/
def codeWidth (c : Nat) : Nat :=
  match c with
  | 0x00 => 32 | 0x01 => 16 | 0x02 => 16 | 0x03 => 8 | 0x04 => 8 | 0x05 => 8 | 0x06 => 8 | 0x07 => 4
  | 0x0D => 8 | 0x0E => 4 | 0x10 => 32 | 0x11 => 16 | _ => 0

/-- Bits of an element in memory: 6 for E3M2 and E2M3, else its register width (R62, R223). -/
def codeBits (c : Nat) : Nat := if c == 5 || c == 6 then 6 else codeWidth c

/-- The code is an integer type (R207). -/
def codeInt (c : Nat) : Bool := c == 0x0D || c == 0x0E || c == 0x10 || c == 0x11

/-- The layout of a floating-point element code. -/
def codeFloat (c : Nat) : Option FloatFmt :=
  match c with
  | 0x00 => some ffFp32 | 0x01 => some ffFp16 | 0x02 => some ffBf16 | 0x03 => some ffE4m3 | 0x04 => some ffE5m2
  | 0x05 => some ffE3m2 | 0x06 => some ffE2m3 | 0x07 => some ffE2m1 | _ => none

/-- The vtype byte is not reserved (R207). -/
def vtOk (v : Byte) : Bool :=
  codeWidth (vtCode v) != 0 && v.toNat / 64 == 0 && (!vtUnsigned v || codeInt (vtCode v))

/-- VLMAX of an element width (R189). -/
def vlmax (w : Nat) : Nat := 1024 / w

/-! ### Registers of a seat -/

/-- Scalar register `r` of a seat. -/
def Seat.s (x : Seat) (r : Nat) : DWord := tget x.sc.s r
/-- A seat with scalar register `r` written. -/
def Seat.setS (x : Seat) (r : Nat) (v : DWord) : Seat := { x with sc := { x.sc with s := tput x.sc.s r v } }
/-- Vector register `r`: the free value of the seat's epoch where nothing has written it (R177). -/
def Seat.vec (x : Seat) (r : Nat) : BitVec 1024 := sparseGet x.v (Config.freeVec x.epoch r) r
/-- A seat with vector register `r` written. -/
def Seat.setVec (x : Seat) (r : Nat) (v : BitVec 1024) : Seat := { x with v := sparseInsert x.v r v }
/-- Mask register `r` (R170, R177). -/
def Seat.msk (x : Seat) (r : Nat) : BitVec 256 := sparseGet x.m (Config.freeMask x.epoch r) r
/-- A seat with mask register `r` written. -/
def Seat.setMsk (x : Seat) (r : Nat) (v : BitVec 256) : Seat := { x with m := sparseInsert x.m r v }
/-- A seat at the next instruction (R202). -/
def Seat.adv (x : Seat) : Seat := { x with sc := { x.sc with pc := (x.sc.pc + 8) % 2 ^ 64 } }
/-- A seat with conditions ORed into its flags (R232). -/
def Seat.orFlags (x : Seat) (f : FFlags) : Seat := { x with sc := { x.sc with flags := x.sc.flags.or f } }
/-- Register width of the active element type. -/
def Seat.w (x : Seat) : Nat := codeWidth (vtCode x.sc.vtype)

/-- Element `i` of width `w` in the register group that starts at `first` (R209). -/
def Seat.elem (x : Seat) (first w i : Nat) : Nat :=
  (x.vec (first + i / (1024 / w))).toNat / 2 ^ (w * (i % (1024 / w))) % 2 ^ w

/-- `v` with lane `i` of width `w` set. -/
def setLane (v : BitVec 1024) (w i n : Nat) : BitVec 1024 :=
  (v &&& ~~~(BitVec.ofNat 1024 ((2 ^ w - 1) * 2 ^ (w * i)))) ||| BitVec.ofNat 1024 (n % 2 ^ w * 2 ^ (w * i))

/-- A seat with element `i` of a group set. -/
def Seat.setElem (x : Seat) (first w i n : Nat) : Seat :=
  let r := first + i / (1024 / w)
  x.setVec r (setLane (x.vec r) w (i % (1024 / w)) n)

/-- Element `i` is active under the governing mask of the instruction (R208). -/
def Seat.active (x : Seat) (f : Fields) (i : Nat) : Bool :=
  i < x.sc.vl && (!f.mu || (x.msk f.mask.toNat).getLsbD i)

/-- The destination elements below vl: element `i` takes `sel i` where it is selected, else 0 under zeroing, else
keeps its value (R190, R191, R208). -/
def Seat.writeElems (x : Seat) (f : Fields) (w : Nat) (sel : Nat → Option Nat) : Seat :=
  (List.range x.sc.vl).foldl (fun y i =>
    match sel i with
    | some n => y.setElem f.d.toNat w i n
    | none => if f.z then y.setElem f.d.toNat w i 0 else y) x

/-- The conditions of the elements below vl, ORed (R232). -/
def orAll (n : Nat) (g : Nat → FFlags) : FFlags := (List.range n).foldl (fun a i => a.or (g i)) FFlags.none

/-- The destination mask's bits below vl: bit `i` takes `sel i`, else 0 under zeroing, else keeps its value. -/
def Seat.writeMask (x : Seat) (f : Fields) (sel : Nat → Option Bool) : Seat :=
  let old := x.msk f.d.toNat
  let new := (List.range x.sc.vl).foldl (fun (m : BitVec 256) i =>
    let put (b : Bool) : BitVec 256 :=
      if b then m ||| BitVec.ofNat 256 (2 ^ i) else m &&& ~~~(BitVec.ofNat 256 (2 ^ i))
    match sel i with
    | some b => put b
    | none => if f.z then put false else m) old
  if x.sc.vl == 0 then x else x.setMsk f.d.toNat new

/-! ### Legality (R203 to R205, R209) -/

/-- What an operand field names: nothing, a scalar register, a mask register, or a group of `k` vector registers. -/
inductive OpKind where
  | none | s | m | v (k : Nat)
deriving DecidableEq, Repr

/-- The forms of the upper word (R204). -/
inductive Form where
  | reg | imm | mem
deriving DecidableEq, Repr

/-- How an instruction uses its fields: the kind of each operand, whether it may be masked and zeroed, whether it
reads and writes each element only at its own position (R209), and whether its other fields hold legal values. -/
structure Shape where
  form : Form
  d : OpKind := .none
  a : OpKind := .none
  b : OpKind := .none
  c : OpKind := .none
  z : Bool := false
  mu : Bool := false
  elementwise : Bool := true
  /-- the instruction reads `fn`; an unread `fn` must be 0 -/
  fn : Bool := false
  /-- further conditions of R205: reserved fn or imm values, the accepted vtypes, the slot B choice -/
  ok : Bool := true
deriving DecidableEq, Repr

/-- A field names a register of its kind, or is 0 where unused (R203, R205, R209). -/
def fieldOk (k : OpKind) (n : Nat) : Bool :=
  match k with
  | .none => n == 0
  | .s => n ≤ 15
  | .m => n ≤ 7
  | .v g => n % g == 0 && n + g ≤ 32

/-- Two register groups overlap in a way R209 forbids. -/
def overlapBad (elementwise : Bool) (dk : OpKind) (dn : Nat) (sk : OpKind) (sn : Nat) : Bool :=
  match dk, sk with
  | .v g, .v h =>
    let meet := dn < sn + h && sn < dn + g
    meet && !(elementwise && g == 1 && h == 1)
  | _, _ => false

/-- The instruction is legal under R205 and R209. -/
def Shape.legal (sh : Shape) (f : Fields) : Bool :=
  sh.ok
  && fieldOk sh.d f.d.toNat && fieldOk sh.a f.a.toNat && fieldOk sh.b f.b.toNat && fieldOk sh.c f.c.toNat
  && (sh.mu || (!f.mu && f.mask == 0)) && (f.mu || f.mask == 0)
  && (match sh.form with
      | .reg => f.up.toNat / 256 == 0 && (sh.fn || f.fn == 0) && (sh.z || !f.z)
      | .mem => sh.z || !f.z
      | .imm => true)
  && !overlapBad sh.elementwise sh.d f.d.toNat sh.a f.a.toNat
  && !overlapBad sh.elementwise sh.d f.d.toNat sh.b f.b.toNat
  && !overlapBad sh.elementwise sh.d f.d.toNat sh.c f.c.toNat

/-- The destination of an access writes one of the registers an operand field names (R172). -/
def destHits (d : Dest) (k : OpKind) (n : Nat) : Bool :=
  match d, k with
  | .scalar r _, .s => r == n
  | .vec r _ _, .v g => n ≤ r && r < n + g
  | _, _ => false

/-- No earlier load has yet to write a register the instruction names (R172). -/
def operandsReady (accs : List Acc) (sh : Shape) (f : Fields) : Bool :=
  accs.all fun x => x.stale || !(destHits x.dst sh.d f.d.toNat || destHits x.dst sh.a f.a.toNat
    || destHits x.dst sh.b f.b.toNat || destHits x.dst sh.c f.c.toNat)

/-- An instruction may be fetched from the address (R202). -/
def fetchOk (pc : Nat) : Bool :=
  match regionOf pc with
  | .hbm => true
  | .scratch _ => true
  | _ => false

end Sys2Proof.Machine
end

