-- ==== Sys2Proof/Machine/Hbm.lean ====
section
/-! DEFINITION. HBM address decode, ECC and uncorrectable errors (R314 to R321). -/

namespace Sys2Proof.Machine

/-- One GiB. -/
def gib : Nat := 2 ^ 30

/-- L of R314 in the copy of tower `t`'s drum. -/
def State.localGib (s : State) (t : Nat) : Nat := s.fld .memLocalCfg t 0 memLocalCfg_localGib

/-- Stack and stack-local address of an HBM address with L GiB of each stack local (R314, R315). -/
def hbmDecode (l a : Nat) : Nat × Nat :=
  let inter := 24 * (64 - l) * gib
  if a < inter then
    let p := a / 4096
    (p % 24, p / 24 * 4096 + a % 4096)
  else
    let o := (a - inter) % (3 * l * gib)
    let n := (a - inter) / (3 * l * gib)
    let p := o / 4096
    (3 * n + p % 3, (64 - l) * gib + p / 3 * 4096 + o % 4096)

/-- The pseudo-channel of a stack-local address (R316). -/
def pseudoChannel (x : Nat) : Nat := (x / 2 ^ 8 % 64) ^^^ (x / 2 ^ 14 % 64)

/-- Stack and stack-local address of an HBM address, decoded at the drum of tower `v` with its own copy of L (R314). -/
def State.hbmAt (s : State) (v a : Nat) : Nat × Nat := hbmDecode (s.localGib v) a

/-- The HBM address of stack-local address `x` of stack `k`, with L GiB of each stack local (R314, R315). -/
def hbmAddr (l k x : Nat) : Nat :=
  if x < (64 - l) * gib then (x / 4096 * 24 + k) * 4096 + x % 4096
  else
    let y := x - (64 - l) * gib
    24 * (64 - l) * gib + k / 3 * (3 * l * gib) + (y / 4096 * 3 + k % 3) * 4096 + y % 4096

/-- The tower whose drum serves an address of HBM or drum SRAM, HBM decoded at the drum of tower `v` (R10, R23, R314, R315). -/
def State.servingDrum (s : State) (v a : Nat) : Nat :=
  if inDrum a then drumOf a else (s.hbmAt v a).1 / 3

/-- The part of HBM an address lies in: 0 interleaved, 1 + n the local part of tower n (R314). -/
def hbmPart (l a : Nat) : Nat := if a < 24 * (64 - l) * gib then 0 else 1 + (a - 24 * (64 - l) * gib) / (3 * l * gib)

/-! ### Calibration (R322 to R326) -/

/-- The key of a pseudo-channel of a stack. -/
def pcKey (k pc : Nat) : Nat := k * 64 + pc

/-- MEM_CAL_FAIL: a pseudo-channel that kept its settings or aborted in three consecutive rotations is marked degraded (R326). -/
def State.calKeep (s : State) (k pc : Nat) : State :=
  let old := tget s.ram.calKept (pcKey k pc)
  let s := { s with ram := { s.ram with calKept := tput s.ram.calKept (pcKey k pc) (min 3 (old + 1)) } }
  if old == 2 then (s.count .memCalStat (k / 3) (k % 3) memCalStat_degraded 1).raise 132 (2 ^ k) else s

/-- New settings are applied: the mark of a degraded pseudo-channel clears (R326). -/
def State.calApply (s : State) (k pc : Nat) : State :=
  let old := tget s.ram.calKept (pcKey k pc)
  let s := { s with ram := { s.ram with calKept := tput s.ram.calKept (pcKey k pc) 0 } }
  let n := s.fld .memCalStat (k / 3) (k % 3) memCalStat_degraded
  if old == 3 then s.setFld .memCalStat (k / 3) (k % 3) memCalStat_degraded (n - 1) else s

/-- The window of stack `k` ends; the rotation goes on with the next pseudo-channel (R322, R325). -/
def State.calEnd (s : State) (k : Nat) : State :=
  let w := tget s.ram.cal k
  let s := { s with ram := { s.ram with cal := tput s.ram.cal k { w with isOpen := false } } }
  s.setFld .memCalStat (k / 3) (k % 3) memCalStat_nextPc ((w.pc + 1) % 64)

/-- The window of stack `k` ends as aborted: the previous settings are restored (R323, R325, R326). -/
def State.calAbort (s : State) (k : Nat) : State :=
  let w := tget s.ram.cal k
  let s := (s.calEnd k).count .memCalStat (k / 3) (k % 3) memCalStat_aborts 1
  s.calKeep k w.pc

/-- The key of the pseudo-channel of an HBM address decoded at the drum of tower `v` (R314, R316). -/
def State.pcAt (s : State) (v a : Nat) : Nat :=
  let x := s.hbmAt v a
  pcKey x.1 (pseudoChannel x.2)

/-- Requests to the pseudo-channel of `a` are held by an open window (R322, R324). -/
def State.calHolds (s : State) (v a : Nat) : Bool :=
  a < 0x018000000000 && s.ram.cal.any fun x => x.2.isOpen && pcKey x.1 x.2.pc == s.pcAt v a

/-- The access waits in the line of a pseudo-channel that calibration held (R322, R324). -/
def Acc.inLine (a : Acc) : Bool := a.line != 0

/-- A thread's access that arrived earlier than number `n` still waits in the line of the pseudo-channel of `a` (R322, R324); 0
stands for a request that is not in the line. -/
def State.lineAhead (s : State) (v a n : Nat) : Bool :=
  a < 0x018000000000 && s.thr.line != 0 && s.thr.accs.any fun x => x.2.any fun b =>
    b.inLine && (n == 0 || b.line < n) && s.pcAt (keyTower x.1) b.goesTo == s.pcAt v a

/-- The location of an uncorrectable error: a 32-byte HBM access or a 64-bit word of drum SRAM (R318, R321). -/
def badLine (a : Nat) : Nat × Nat := if inDrum a then (a / 8 * 8, 8) else (a / 32 * 32, 32)

/-- HBM_UNCORRECTABLE_READ: the serving drum, HBM decoded at the drum of tower `v`, records the address and raises MEM_UE or
MEM_SRAM_UE; an open calibration window on its pseudo-channel ends as aborted (CAL_FAULT_ABORT, R325); the location keeps the
error (R319, R321). -/
def State.recordUe (s : State) (v a : Nat) : State :=
  let t := s.servingDrum v a
  let sram := inDrum a
  let s := s.setReg .memUeAddrLo t 0 (BitVec.ofNat 32 a)
  let s := s.setReg .memUeAddrHi t 0 (BitVec.ofNat 32 (a / 2 ^ 32 % 2 ^ 16 + (if sram then 2 ^ 16 else 0)))
  let s := s.raise (if sram then 130 else 129) (2 ^ t)
  let bad := if s.ram.bad.contains (badLine a) then s.ram.bad else s.ram.bad ++ [badLine a]
  let s := { s with ram := { s.ram with bad := bad } }
  if sram then s
  else
    let (k, x) := s.hbmAt v a
    let w := tget s.ram.cal k
    if w.isOpen && w.pc == pseudoChannel x then s.calAbort k else s

/-- A read of [a, a + n) meets a location known to hold an uncorrectable error (R319). -/
def State.knownBad (s : State) (a n : Nat) : Option Nat :=
  (s.ram.bad.find? fun b => b.1 < a + n && a < b.1 + b.2).map (·.1)

/-- The error a read of [a, a + n) meets: a known bad location, or the outcome the command carries. -/
def State.readError (s : State) (a n : Nat) (e : Ecc) : Option Nat :=
  match s.knownBad a n with
  | some b => some b
  | none =>
    match e with
    | .bad b => if a ≤ b && b < a + n then some b else none
    | _ => none

/-- A corrected read of `a`, HBM decoded at the drum of tower `v`, is counted by the drum, by the tower whose accumulator memory
it is, or by the stack (R118, R318, R321). -/
def State.countCe (s : State) (v a : Nat) : State :=
  match regionOf a with
  | .acc t => s.count .mtxEccCorr t 0 mtxEccCorr_corrected 1
  | _ =>
    if inDrum a then s.count .memSramCe (drumOf a) 0 memSramCe_corrected 1
    else
      let k := (s.hbmAt v a).1
      s.count .memEccCe (k / 3) (k % 3) memEccCe_corrected 1

/-- The corrections a read of [a, a + n) met are counted, each where its own word lies (R318, R321). -/
def State.countFixed (s : State) (v a n : Nat) (e : Ecc) : State := s.each (e.fixed a n) fun s b => s.countCe v b

/-- The corrections a read of the byte ranges `l` met are counted. -/
def State.countSpans (s : State) (v : Nat) (l : List (Nat × Nat)) (e : Ecc) : State :=
  s.each l fun s x => s.countFixed v x.1 x.2 e

/-- An outcome without the corrections in the byte ranges `l`, which have been counted. -/
def Ecc.beyond (e : Ecc) (l : List (Nat × Nat)) : Ecc :=
  match e with
  | .corrected xs => .corrected (xs.filter fun b => !(l.any fun x => x.1 ≤ b && b < x.1 + x.2))
  | _ => e

/-- A read of the byte ranges `l` met a correction. -/
def Ecc.touches (e : Ecc) (l : List (Nat × Nat)) : Bool := l.any fun x => !(e.fixed x.1 x.2).isEmpty

/-- The error a read of the byte ranges `l` meets first. -/
def State.spansError (s : State) (l : List (Nat × Nat)) (e : Ecc) : Option Nat := l.findSome? fun x => s.readError x.1 x.2 e

end Sys2Proof.Machine
end

