-- ==== Sys2Proof/Machine/Islands.lean ====
section
/-! DEFINITION. Clock islands: which island serves an address, the way from one island to another, the handshake crossings on it,
and the loss of an island (R10, R13 to R22, R327, R564). -/

namespace Sys2Proof.Machine

/-! ### The islands (R15, R22) -/

/-- The island of a cupola, a drum, an HBM controller group or a fabric port: its bit of CTL_ISLAND_READY (R22). -/
def cupolaIsland (t : Nat) : Nat := t
def drumIsland (t : Nat) : Nat := 8 + t
def hbmIsland (t : Nat) : Nat := 16 + t
def portIsland (p : Nat) : Nat := 26 + p
/-- The codec complex, the host port SerDes, and the belfry, which has no bit (R22). -/
def codecIsland : Nat := 24
def hostIsland : Nat := 25
def belfryIsland : Nat := 32

/-- The tower whose drum hosts a port (R10, R384). -/
def portTower (p : Nat) : Nat :=
  match p with
  | 0 => 1 | 1 => 5 | 2 => 3 | 3 => 7 | 4 => 0 | _ => 4

/-- Island `i` of the device is ready: island `i` below 32 has bit `i` of CTL_ISLAND_READY, and island 32 is the belfry,
which serves that register itself (R15, R22). -/
def State.islandReady (s : State) (i : Nat) : Bool := i == 32 || (s.reg .ctlIslandReady 0 0).toNat.testBit i

/-! ### The way between two islands (R13) -/

/-- The drum, or the belfry, that an island's traffic passes first: its own, or the one it is joined to. -/
def hubOf (i : Nat) : Nat :=
  if i < 24 then drumIsland (i % 8)
  else if i == codecIsland || i == hostIsland || i == belfryIsland then belfryIsland
  else drumIsland (portTower (i - 26))

/-- Traffic from drum `a` to drum `b` travels clockwise: the shorter way, and for two ways of four bridges by the parity of the
tower it comes from (R13). -/
def clockwise (a b : Nat) : Bool :=
  let d := (b + 8 - a) % 8
  d < 4 || (d == 4 && a % 2 == 0)

/-- The towers after `a` on the way round the ring to `b` (R13). -/
def ringWay (a b : Nat) : List Nat :=
  let d := (b + 8 - a) % 8
  if clockwise a b then (List.range d).map fun i => (a + i + 1) % 8 else (List.range (8 - d)).map fun i => (a + 7 - i) % 8

/-- The way between two hubs, the first left out: the ring between drums, a spoke between a drum and the belfry. -/
def hubWay (a b : Nat) : List Nat :=
  if a == b then []
  else if a == belfryIsland || b == belfryIsland then [b]
  else (ringWay (a - 8) (b - 8)).map drumIsland

/-- The islands that traffic from island `a` to island `b` passes, both included (R13). -/
def route (a b : Nat) : List Nat :=
  if a == b then [a]
  else
    let ha := hubOf a
    let hb := hubOf b
    (if a == ha then [] else [a]) ++ [ha] ++ hubWay ha hb ++ (if b == hb then [] else [b])

/-- The island after island `i` on a way. -/
def nextOn (i : Nat) (l : List Nat) : Option Nat :=
  match l with
  | [] => none
  | a :: rest => if a == i then rest.head? else nextOn i rest

/-! ### Crossings (R17 to R20) -/

/-- The key of the crossing from one island to another. -/
def crossKey (src dst : Nat) : Nat := 33 * src + dst

/-- Entries of a crossing in use, out of 16 (R17). -/
def Crossing.used (x : Crossing) : Nat := x.held.length + x.arrived.length

/-- The sender holds a credit, and no earlier entry stalls for one (R17, R18). -/
def Crossing.free (x : Crossing) : Bool := x.used < 16 && x.stalled.isEmpty

/-- A crossing toward a ready island delivers what it holds, in order (R18, R20). -/
def Crossing.deliver (x : Crossing) (ready : Bool) : Crossing :=
  if ready then { x with held := [], arrived := x.arrived ++ x.held } else x

/-- An entry joins the crossing behind the earlier ones while the sender holds a credit, and stalls otherwise (R17, R18). -/
def Crossing.send (x : Crossing) (e : CrossEntry) : Crossing :=
  if x.free then { x with held := x.held ++ [e] } else { x with stalled := x.stalled ++ [e] }

/-- A credit that returned lets the oldest stalled entry in (R17). -/
def Crossing.letIn (x : Crossing) : Crossing :=
  match x.stalled with
  | [] => x
  | e :: rest => if x.used < 16 then { x with held := x.held ++ [e], stalled := rest } else x

/-- An entry is sent over the crossing from `a` to its neighbour `b` (R17 to R20). -/
def State.sendOver (s : State) (a b : Nat) (e : CrossEntry) : State :=
  { s with cross := tmod s.cross (crossKey a b) fun x => (x.send e).deliver (s.islandReady b) }

/-- Island `b` takes the oldest entry that came from `a` and its credit returns: an entry for `b` is used up there, any other
goes over the next crossing of its way, and stays where that one has no credit (R13, R17). -/
def State.takeFrom (s : State) (a b : Nat) : State :=
  let x := (tget s.cross (crossKey a b)).deliver (s.islandReady b)
  match x.arrived, s.islandReady b with
  | e :: rest, true =>
    let left := { s with cross := tput s.cross (crossKey a b) (({ x with arrived := rest }).letIn.deliver true) }
    (match nextOn b (route e.src e.dst) with
     | none => left
     | some n =>
       if (tget s.cross (crossKey b n)).free then left.sendOver b n e
       else { s with cross := tput s.cross (crossKey a b) x })
  | _, _ => { s with cross := tput s.cross (crossKey a b) x }

/-! ### Accesses (R20, R21, R315, R322, R327, R564) -/

/-- The tower whose drum decodes an HBM address for an island: its own, or for an island on the hub die the drum of T0, over
whose spoke it goes (R314; log entry 28). -/
def decodeTower (i : Nat) : Nat := if hubOf i == belfryIsland then 0 else hubOf i - 8

/-- The island that serves an access of island `i` to an address (R315, R564). -/
def State.serving (s : State) (i a : Nat) : Nat :=
  match regionOf a with
  | .hbm => hbmIsland ((s.hbmAt (decodeTower i) a).1 / 3)
  | .scratch t => drumIsland t
  | .ctxStore t => drumIsland t
  | .queueMem t => drumIsland t
  | .acc t => cupolaIsland t
  | .regSpace =>
    if a < 0x030008000000 then
      (if a % 0x01000000 < 0x00800000 then cupolaIsland (a / 0x01000000 % 8) else drumIsland (a / 0x01000000 % 8))
    else if 0x030011000000 ≤ a && a < 0x030012000000 then codecIsland
    else belfryIsland
  | .reserved => i

/-- Traffic from island `a` reaches island `b`: every island on the way is ready, and each crossing has a credit (R17, R20,
R21). -/
def State.wayOpen (s : State) (a b : Nat) : Bool :=
  let w := route a b
  w.all s.islandReady && (w.zip (w.drop 1)).all fun x => (tget s.cross (crossKey x.1 x.2)).free

/-- Nothing holds traffic anywhere: every island ready, no crossing out of credits, no calibration window open, and no access in
the line of a pseudo-channel. -/
def State.calm (s : State) : Bool :=
  s.reg .ctlIslandReady 0 0 == 0xFFFFFFFF && s.cross.all (fun x => x.2.free) && s.ram.cal.all (fun x => !x.2.isOpen)
    && s.thr.accs.all fun x => x.2.all fun a => !a.inLine

/-- An access of island `i` to the byte at `a` waits: its way is closed, or its pseudo-channel is held or has earlier accesses
to serve (R20, R21, R322, R324). -/
def State.waitsAt (s : State) (i a : Nat) : Bool :=
  !s.wayOpen i (s.serving i a) || s.calHolds (decodeTower i) a || s.lineAhead (decodeTower i) a 0

/-- Some access of island `i` to the byte ranges `l` waits; HBM spreads over pseudo-channels in pieces of 256 bytes (R316). -/
def State.trafficHeld (s : State) (i : Nat) (l : List (Nat × Nat)) : Bool :=
  !s.calm && l.any fun x =>
    x.2 != 0 && (List.range ((x.1 % 256 + x.2 + 255) / 256)).any fun j => s.waitsAt i (x.1 / 256 * 256 + 256 * j)

/-! ### The commands -/

/-- CROSSING_ENTRY_ARRIVE: an entry from island `src` for island `dst` goes over the first crossing of its way and arrives at the
next island, or waits at the crossing while that is not ready; without a credit it stalls. An island sends itself nothing (R13,
R17 to R20, R564). -/
def execCrossingEntryArrive (src dst : Fin 33) (entry : DWord) (s : State) : Host.Outcome State Fault Refusal :=
  .next (match nextOn src.val (route src.val dst.val) with
    | some n => s.sendOver src.val n ⟨src.val, dst.val, entry⟩
    | none => s)

/-- CROSSING_CREDIT_RETURN: the neighbour takes the oldest entry of the crossing and its credit returns to the sender, where the
oldest stalled entry takes it (R17). -/
def execCrossingCreditReturn (src dst : Fin 33) (s : State) : Host.Outcome State Fault Refusal :=
  .next (s.takeFrom src.val dst.val)

/-- ISLAND_READY_LOSS: a ready bit falls while the device is running, and ISLAND_LOST is raised with the bit number; the island
stays lost until a device reset (R21). -/
def execIslandReadyLoss (b : Fin 32) (s : State) : Host.Outcome State Fault Refusal :=
  .next (
    if s.pwr.st == .running && s.islandReady b.val then
      let s := s.setReg .ctlIslandReady 0 0 (s.reg .ctlIslandReady 0 0 &&& ~~~(BitVec.ofNat 32 (2 ^ b.val)))
      ({ s with pwr := { s.pwr with lost := b.val :: s.pwr.lost } }).raise 2 b.val
    else s)

end Sys2Proof.Machine
end

