-- ==== Sys2Proof/Machine/Fabric.lean ====
section
/-! DEFINITION. Ports, flits, routing and the sending of packets and tokens (R384, R396 to R403, R418 to R421). -/

namespace Sys2Proof.Machine

/-! ### Ports and addresses -/

/-- The axis of a port: 0 T, 1 S, 2 D. -/
def portAxis (p : Nat) : Nat := p / 2
/-- The opposite port of the same axis. -/
def portOther (p : Nat) : Nat := if p % 2 == 0 then p + 1 else p - 1
/-- Active lanes of a port, per direction (R384). -/
def portLanes (p : Nat) : Nat := if p < 2 then 16 else 8

def State.port (s : State) (p : Nat) : Port := tget s.fab.ports p
def State.setPort (s : State) (p : Nat) (x : Port) : State := { s with fab := { s.fab with ports := tput s.fab.ports p x } }

/-- The state field of a port: 0 DOWN, 1 TRAINING, 2 TRAINED, 3 UP, 4 QUARANTINED (R388). -/
def State.portState (s : State) (p : Nat) : Nat := s.fld .plynPortStat (portTower p) 0 plynPortStat_state
def State.setPortState (s : State) (p n : Nat) : State := s.setFld .plynPortStat (portTower p) 0 plynPortStat_state n

/-- The device's fabric address, in the copy of tower `t` (PLYN_FAB_ADDR). -/
def State.fabAddr (s : State) : Nat := s.fld .plynFabAddr 0 0 plynFabAddr_addr
def State.fabValid (s : State) : Bool := s.bit .plynFabAddr 0 0 plynFabAddr_valid

/-- Coordinate of a fabric address on an axis (R9, R418). -/
def fabCoord (a ax : Nat) : Nat :=
  match ax with
  | 0 => a / 2 ^ 13 % 8
  | 1 => a / 2 ^ 7 % 64
  | _ => a % 128

/-- Place value and size field width of an axis. -/
def fabPlace (ax : Nat) : Nat :=
  match ax with
  | 0 => 2 ^ 13 | 1 => 2 ^ 7 | _ => 1

/-- The size of an axis (PLYN_AXIS_SIZE). -/
def State.axisSize (s : State) (ax : Nat) : Nat :=
  match ax with
  | 0 => s.fld .plynAxisSize 0 0 plynAxisSize_tSize
  | 1 => s.fld .plynAxisSize 0 0 plynAxisSize_sSize
  | _ => s.fld .plynAxisSize 0 0 plynAxisSize_dSize

/-- The address has every coordinate below its axis size (R418). -/
def State.fabAddrOk (s : State) (a : Nat) : Bool :=
  a < 2 ^ 16 && [0, 1, 2].all fun ax => fabCoord a ax < s.axisSize ax

/-- The address of the neighbour on axis `ax` in the + (true) or − direction (R417). -/
def State.neighbour (s : State) (ax : Nat) (plus : Bool) : Nat :=
  let own := fabCoord s.fabAddr ax
  let n := s.axisSize ax
  let c := (if plus then own + 1 else own + n - 1) % n
  s.fabAddr - own * fabPlace ax + c * fabPlace ax

/-- The routing entry of a coordinate of an axis, in tower `t`'s tables (R419). -/
def State.routeEntry (s : State) (t ax c : Nat) : Nat :=
  let r : RegId := match ax with
    | 0 => .plynRtT | 1 => .plynRtS | _ => .plynRtD
  (s.reg r t (c / 4)).toNat / 2 ^ (8 * (c % 4)) % 256

/-! ### Packet bytes (R403) -/

/-- The header's four words. -/
def Packet.header (p : Packet) : List Nat :=
  [p.dst + p.src * 2 ^ 16,
   p.kind.code + p.cls * 2 ^ 4 + p.sub * 2 ^ 7 + p.detour.toNat * 2 ^ 9 + p.resent.toNat * 2 ^ 10 + p.length * 2 ^ 16,
   p.tag + p.addr / 2 ^ 32 % 2 ^ 16 * 2 ^ 16, p.addr % 2 ^ 32]

/-- Payload bytes a packet carries: a READ carries none (R404). -/
def Packet.carried (p : Packet) : Nat := if p.kind == .read then 0 else p.length

/-- Flits of a packet (R403). -/
def Packet.flits (p : Packet) : Nat := (16 + p.carried + 127) / 128

/-- The payload of a packet is all here. -/
def Packet.whole (p : Packet) : Bool := p.carried ≤ p.payload.length

/-- The virtual channel of a packet (R399). -/
def Packet.vc (p : Packet) : Nat := 3 * p.cls + p.sub

/-- Receive slots of a virtual channel (R399). -/
def vcSlots (vc : Nat) : Nat :=
  match vc / 3 with
  | 0 => 8 | 3 => 512 | _ => 64

/-- A flit's payload of 128 bytes, filled up with zeros (log entry 77). -/
def flitPad (bs : List Byte) : List Byte := (bs ++ List.replicate 128 0).take 128

/-- The payload of flit `i` of a packet (R403). -/
def Packet.flit (p : Packet) (i : Nat) : List Byte :=
  flitPad (((p.header.flatMap (bytesOf 4) ++ p.payload).drop (128 * i)).take 128)

/-! ### Flits put out (R396 to R399) -/

/-- The port has a link: TRAINED or UP. -/
def State.linked (s : State) (p : Nat) : Bool := s.portState p == 2 || s.portState p == 3

/-- The credits that the next flit returns: those of the lowest virtual channel that owes some, up to 255; 15 where none does
(R396, R399; log entry 77). -/
def Port.owes (x : Port) : Nat × Nat :=
  ((List.range 15).findSome? fun vc =>
    let n := tget x.owed vc
    if n == 0 then none else some (vc, min n 255)).getD (15, 0)

/-- A port puts out a flit with the ack of the last flit received in order and the credits it owes (R396). -/
def Port.put (x : Port) (kind seq : Nat) (payload : List Byte) : Port :=
  let c := x.owes
  { x with
    wire := ⟨seq, (x.expect + 8191) % 8192, kind, c.1, c.2, flitPad payload⟩ :: x.wire
    owed := tmod x.owed c.1 (· - c.2)
    told := x.expect }

/-- A flit without a sequence number of its own repeats the last one sent (R396). -/
def Port.putOther (x : Port) (kind : Nat) (payload : List Byte) : Port := x.put kind ((x.nextSeq + 8191) % 8192) payload

/-- A data flit of the replay buffer is put out again, with the credits it returns (R398). -/
def Port.putAgain (x : Port) (f : SentFlit) : Port :=
  { x with
    wire := ⟨f.seq, (x.expect + 8191) % 8192, 0, f.vc, f.count, f.pkt.flit f.idx⟩ :: x.wire
    told := x.expect }

/-- An idle flit goes out while the port has a link and owes its partner credits or an ack, one in a tick (R396; log entry 33). -/
def State.idleFlit (s : State) (p : Nat) : State :=
  let x := s.port p
  if s.linked p && (x.owes.1 != 15 || x.told != x.expect) then s.setPort p (x.putOther 1 []) else s

/-! ### Sending on a port (R396 to R401, R467) -/

/-- The order in which an output port considers the classes: control; then request, response and reduction, and the
background class while snapshot or mover traffic is promoted, round-robin after the class served last; then background
(R401). -/
def classOrder (last : Nat) (promoted : Bool) : List Nat :=
  let ring := if promoted then [1, 2, 3, 4] else [1, 2, 3]
  0 :: (ring.filter (last < ·) ++ ring.filter (· ≤ last)) ++ (if promoted then [] else [4])

/-- The bytes of the packet's next flit are here: packets pass through while they still come in (R400). -/
def TxPkt.ready (q : TxPkt) : Bool := min (128 * (q.sent + 1)) (16 + q.pkt.carried) ≤ 16 + q.pkt.payload.length

/-- The packet's next flit may go: its bytes are here, its channel has a credit and the replay buffer has room (R396, R400). -/
def Port.canSend (x : Port) (q : TxPkt) : Bool :=
  q.ready && tget x.used q.pkt.vc < vcSlots q.pkt.vc && x.replay.length < 4096

/-- A packet has waited for 4,096 dclk cycles: 328 refclk ticks and no fewer (R467). -/
def TxPkt.aged (q : TxPkt) (now : DWord) : Bool := 328 ≤ (now - q.since).toNat

/-- The packet whose flit the port sends next: the one it is sending; else the oldest aged one of the normal class; else the
first of its virtual channel, in class order (R401, R467). -/
def Port.nextTx (x : Port) (promoted : Bool) (now : DWord) : Option TxPkt :=
  match x.txq.find? (·.sent != 0) with
  | some q => if x.canSend q then some q else none
  | none =>
    let heads := x.txq.filter fun q => x.canSend q && (x.txq.find? fun r => r.pkt.vc == q.pkt.vc) == some q
    match heads.find? fun q => (q.pkt.cls != 4 || promoted) && q.aged now with
    | some q => some q
    | none => (classOrder x.lastClass promoted).findSome? fun cls => heads.find? fun q => q.pkt.cls == cls

/-- The packet's next flit goes out, and enters the replay buffer under the next sequence number (R396, R398). -/
def Port.sendFlit (x : Port) (q : TxPkt) : Port :=
  let p := q.pkt
  let c := x.owes
  let y := x.put 0 x.nextSeq (p.flit q.sent)
  { y with
    txq := if q.sent + 1 == p.flits then x.txq.erase q else x.txq.replace q { q with sent := q.sent + 1 }
    replay := x.replay ++ [⟨x.nextSeq, q.inPort, p, q.sent, 0, c.1, c.2⟩]
    nextSeq := (x.nextSeq + 1) % 8192
    used := tmod x.used p.vc (· + 1)
    lastClass := if p.cls == 0 then x.lastClass else p.cls }

/-- A request this device sends is promoted background traffic (R340, R468). -/
def State.promotedReq (s : State) (tag : Nat) : Bool :=
  match tget s.fab.reqs tag with
  | some r =>
    (match r.what with
     | .part n _ => (tget s.ram.jobs n).promoted
     | .snap _ => s.ram.snap.any (·.promoted)
     | _ => false)
  | none => false

/-- Promoted background traffic waits at a port, where the background class takes the priority of the normal ones (R401). -/
def State.promotedAt (s : State) (p : Nat) : Bool :=
  (s.port p).txq.any fun q => q.inPort == 6 && q.pkt.cls == 4 && s.promotedReq q.pkt.tag

/-- Receive slots of a port's virtual channel are free again, and owed to the partner (R399, R400). -/
def State.giveSlots (s : State) (p vc n : Nat) : State :=
  if p ≥ 6 || vc ≥ 15 then s
  else
    let x := s.port p
    let m := min n (tget x.held vc)
    s.setPort p { x with held := tmod x.held vc (· - m), owed := tmod x.owed vc (· + m) }

/-- The receive slots of a packet that leaves port `p`'s buffers are returned to the partner (R399, R400). -/
def State.returnSlots (s : State) (p : Nat) (k : Packet) : State := s.giveSlots p k.vc k.flits

/-- The port sends every flit that it can, at most `n`; each gives back the receive slot it held at its arrival port (R400). -/
def State.sendFlits (s : State) (p n : Nat) : State :=
  match n with
  | 0 => s
  | k + 1 =>
    match (s.port p).nextTx (s.promotedAt p) s.refclk with
    | none => s
    | some q => ((s.setPort p ((s.port p).sendFlit q)).giveSlots q.inPort q.inVc 1).sendFlits p k

/-- A port that is UP sends what it can (R388). -/
def State.pumpPort (s : State) (p : Nat) : State :=
  if s.portState p == 3 then s.sendFlits p ((s.port p).txq.foldl (fun a q => a + q.pkt.flits) 0) else s

/-- A packet joins the queue of port `p`. -/
def State.enqueue (s : State) (p : Nat) (q : TxPkt) : State :=
  let x := s.port p
  (s.setPort p { x with txq := x.txq ++ [q] }).pumpPort p

/-! ### Routing (R420, R421) -/

/-- What routing decides for a packet. -/
inductive Route where
  | deliver | send (port : Nat) (sub : Nat) (detour : Bool) | lost
deriving DecidableEq, Repr

/-- The port of an axis in the + or − direction is UP. -/
def State.usable (s : State) (ax : Nat) (plus : Bool) : Bool := s.portState (2 * ax + (!plus).toNat) == 3

/-- PACKET_ROUTE: the decision of the drum of tower `t` for a packet that arrived on `inPort`, or was issued here
(`none`) (R420). -/
def State.routeOn (s : State) (t : Nat) (inPort : Option Nat) (p : Packet) (axes : List Nat) : Route :=
  match axes with
  | [] => .deliver
  | ax :: rest =>
    let c := fabCoord p.dst ax
    if c == fabCoord s.fabAddr ax then s.routeOn t inPort p rest
    else
      let e := s.routeEntry t ax c
      if e % 4 ≥ 2 then .lost
      else
        let entering := match inPort with
          | some q => portAxis q != ax
          | none => true
        -- a packet that arrived on the − port travels +
        let plus := if entering then e % 4 == 0 else (inPort.getD 0) % 2 == 1
        let sub := if entering then 0 else p.sub
        let det := if entering then false else p.detour
        let go (plus : Bool) (sub : Nat) (det : Bool) : Route :=
          let port := 2 * ax + (!plus).toNat
          let sub := if s.bit .plynPortCfg (portTower port) 0 plynPortCfg_dateline && sub == 0 then 1 else sub
          .send port sub det
        if s.usable ax plus then go plus sub det
        else if det || e / 4 % 2 == 0 || !s.usable ax (!plus) then .lost
        else go (!plus) 2 true

/-- The decision over the three axes. -/
def State.route (s : State) (t : Nat) (inPort : Option Nat) (p : Packet) : Route := s.routeOn t inPort p [0, 1, 2]

/-- A packet for this device waits to be handled. -/
def State.deliver (s : State) (port : Nat) (p : Packet) : State :=
  { s with fab := { s.fab with rxLocal := s.fab.rxLocal ++ [(port, p)] } }

/-- A packet leaves the list of received packets, and its receive slots are returned. -/
def State.dropLocal (s : State) (x : Nat × Packet) : State :=
  ({ s with fab := { s.fab with rxLocal := s.fab.rxLocal.erase x } }).returnSlots x.1 x.2

/-- The received packet `p`, if it waits, with its port. -/
def State.hasLocal (s : State) (p : Packet) : Option (Nat × Packet) := s.fab.rxLocal.find? fun x => x.2 == p

/-- A packet that cannot be routed and gets no answer is discarded, counted and reported (R421). -/
def State.unroutable (s : State) (t : Nat) : State := (s.count .plynUnroutable t 0 plynUnroutable_count 1).raise 147 0

/-- The NACK that answers a packet (R404, R406). -/
def nackFor (p : Packet) (own : Nat) (st : Status) : Packet :=
  { dst := p.src, src := own, kind := .nack, cls := 2, sub := 0, detour := false, resent := false, length := 4,
    tag := p.tag, addr := p.addr, payload := bytesOf 4 st.code }

/-- A response is routed; one that cannot be routed is discarded (R421). -/
def State.sendResponse (s : State) (t : Nat) (p : Packet) : State :=
  match s.route t none p with
  | .deliver => s.deliver 6 p
  | .send port sub det => s.enqueue port ⟨6, 15, { p with sub := sub, detour := det }, 0, s.refclk⟩
  | .lost => s.unroutable t

/-- A packet is answered with a NACK; a response is discarded instead (R421). -/
def State.nack (s : State) (t : Nat) (p : Packet) (st : Status) : State :=
  if p.kind.response then s.unroutable t else s.sendResponse t (nackFor p s.fabAddr st)

/-- A packet issued here, or arrived on `inPort` and holding no receive slot there, is routed by the drum of tower `t` (R420). -/
def State.forward (s : State) (t : Nat) (inPort : Option Nat) (p : Packet) : State :=
  match s.route t inPort p with
  | .deliver => s.deliver (inPort.getD 6) p
  | .send port sub det => s.enqueue port ⟨inPort.getD 6, 15, { p with sub := sub, detour := det }, 0, s.refclk⟩
  | .lost => s.nack t p .pathLost

/-- The arrival port as routing takes it. -/
def arrivalOf (p : Nat) : Option Nat := if p < 6 then some p else none

/-- A packet that waits at a port with none of its flits sent is routed again (R410): its receive slots are free once it has no
port to wait at. -/
def State.reroute (s : State) (t : Nat) (q : TxPkt) : State :=
  let gone := s.giveSlots q.inPort q.inVc ((16 + q.pkt.payload.length + 127) / 128)
  match s.route t (arrivalOf q.inPort) q.pkt with
  | .deliver => if q.pkt.whole then gone.deliver 6 q.pkt else gone
  | .send port sub det => s.enqueue port { q with pkt := { q.pkt with sub := sub, detour := det } }
  | .lost => gone.nack t q.pkt .pathLost

/-! ### Issuing packets -/

/-- A packet of this device under the next tag (R403). -/
def State.newPacket (s : State) (kind : PktKind) (cls dst addr length : Nat) (payload : List Byte) : Packet :=
  { dst := dst, src := s.fabAddr, kind := kind, cls := cls, sub := 0, detour := false, resent := false, length := length,
    tag := s.fab.nextTag, addr := addr, payload := payload }

/-- A packet this device issues from tower `t`, under the next tag, with what it serves (R403 to R406). -/
def State.issuePacket (s : State) (t : Nat) (what : ReqFor) (kind : PktKind) (cls dst addr length : Nat)
    (payload : List Byte) : State :=
  let tag := s.fab.nextTag
  let p := s.newPacket kind cls dst addr length payload
  let req : Req := { what := what, kind := kind, dst := dst, addr := addr, len := length, tick := s.refclk }
  let s := { s with fab := { s.fab with nextTag := (tag + 1) % 65536, reqs := tput s.fab.reqs tag (some req) } }
  s.forward t none p

/-- The words of a barrier token (R36). -/
def Token.words (k : Token) : List Nat :=
  [k.commit.toNat + k.vote.toNat * 4 + k.tag.toNat * 2 ^ 8 + k.epoch.toNat * 2 ^ 16, k.step.toNat]

/-- The token of a TOKEN packet's payload; none where its kind or a reserved bit is not legal (R36). -/
def tokenOf (bs : List Byte) : Option Token :=
  let w := leOf (bs.take 4)
  if bs.length == 8 && w % 4 ≤ 1 && w / 8 % 32 == 0 then
    some { commit := w % 4 == 1, vote := w / 4 % 2 == 1, tag := BitVec.ofNat 8 (w / 2 ^ 8),
           epoch := BitVec.ofNat 16 (w / 2 ^ 16), step := BitVec.ofNat 32 (leOf (bs.drop 4)) }
  else none

/-- A barrier token is sent, in the control class (R404). -/
def State.sendToken (s : State) (dst : Nat) (k : Token) : State :=
  s.issuePacket 0 .token .token 0 dst 0 8 (k.words.flatMap (bytesOf 4))

/-- The payload of a message between Lumdom instances (R404; log entry 31): a code, the entry or the number, and where there are
more values those in eight bytes each. -/
def Mgmt.bytes (m : Mgmt) : List Byte :=
  match m with
  | .stepAborted tag => bytesOf 4 1 ++ bytesOf 4 tag.toNat
  | .members n => bytesOf 4 2 ++ bytesOf 4 n
  | .groupSize n => bytesOf 4 3 ++ bytesOf 4 n
  | .interval n => bytesOf 4 4 ++ bytesOf 4 n
  | .refill e base size => bytesOf 4 5 ++ bytesOf 4 e ++ bytesOf 8 base ++ bytesOf 8 size
  | .refillFailed e => bytesOf 4 6 ++ bytesOf 4 e
  | .refillSuperseded e => bytesOf 4 7 ++ bytesOf 4 e
  | .mirrorEntry e base size => bytesOf 4 8 ++ bytesOf 4 e ++ bytesOf 8 base ++ bytesOf 8 size

/-- Lumdom sends a message to another device's Lumdom: a MGMT packet of the control class, which has no response (R399, R404; log
entry 31). -/
def State.sendMgmt (s : State) (dst : Nat) (m : Mgmt) : State :=
  let bs := m.bytes
  let p := s.newPacket .mgmt 0 dst 0 bs.length bs
  let fab := { s.fab with nextTag := (s.fab.nextTag + 1) % 65536, mgmtOut := (dst, m) :: s.fab.mgmtOut }
  ({ s with fab := fab }).forward 0 none p

/-- The payload of a link control flit: the code in byte 0, and the contents from byte 8 in the order of the table, each value in
whole bytes (R397; log entry 77). -/
def LinkMsg.bytes (m : LinkMsg) : List Byte :=
  match m with
  | .ident serial index port addr valid =>
    bytesOf 8 1 ++ bytesOf 8 serial.toNat ++ bytesOf 2 index ++ bytesOf 1 port ++ bytesOf 2 addr ++ bytesOf 1 valid.toNat
  | .laneDown tx lane => bytesOf 8 2 ++ bytesOf 1 tx.toNat ++ bytesOf 1 lane
  | .rotReady lane => bytesOf 8 3 ++ bytesOf 1 lane
  | .rotSwitch lane codeword => bytesOf 8 4 ++ bytesOf 1 lane ++ bytesOf 8 codeword
  | .rotDone lane margin => bytesOf 8 5 ++ bytesOf 1 lane ++ bytesOf 1 margin
  | .halfWidth lanes codeword => bytesOf 8 6 ++ bytesOf 4 (lanes.foldl (fun a k => a + 2 ^ k) 0) ++ bytesOf 8 codeword
  | .quarantine cause => bytesOf 8 7 ++ bytesOf 1 cause

/-- A link control message is sent on a port (R397). -/
def State.sendLink (s : State) (p : Nat) (m : LinkMsg) : State :=
  let x := s.port p
  s.setPort p ({ x with sent := m :: x.sent }.putOther 3 m.bytes)

end Sys2Proof.Machine
end

