-- ==== Sys2Proof/Machine/Mirror.lean ====
section
/-! DEFINITION. The mirror region: entries, page streams, snapshots and refills (R342 to R347, R477 to R480, R490 to
R492). -/

namespace Sys2Proof.Machine

/-! ### Entries (R342, R344, R347) -/

def State.mirrorEnt (s : State) (e : Nat) : Mirror := tget s.ram.mirror e

/-- A mirror entry set, with the registers that show its bits and step (MEM_MIRROR_VALID, MEM_MIRROR_FILL,
CTL_MIRROR_STEP). -/
def State.setMirror (s : State) (e : Nat) (m : Mirror) : State :=
  let s := { s with ram := { s.ram with mirror := tput s.ram.mirror e m } }
  let put (s : State) (r : RegId) (b : Bool) : State :=
    let w := (s.reg r 0 0).toNat
    let k := 2 ^ (e % 32)
    s.setReg r 0 0 (BitVec.ofNat 32 (w - w / k % 2 * k + (if b then k else 0)))
  let s := put s (if e < 32 then .memMirrorValidLo else .memMirrorValidHi) m.valid
  let s := put s (if e < 32 then .memMirrorFillLo else .memMirrorFillHi) m.filling
  s.setReg .ctlMirrorStep 0 e m.step

/-- The mirror entry that holds an address. -/
def State.mirrorAt (s : State) (a : Nat) : Option (Nat × Mirror) :=
  s.ram.mirror.find? fun x => x.2.size != 0 && x.2.base ≤ a && a < x.2.base + x.2.size * 4096

/-- The first snapshot store into an entry clears valid and sets filling (R344). -/
def State.mirrorFill (s : State) (e : Nat) : State :=
  let m := s.mirrorEnt e
  if m.valid || !m.filling then s.setMirror e { m with valid := false, filling := true } else s

/-- The close sets valid, clears filling and writes the step (R344). -/
def State.mirrorClose (s : State) (e : Nat) (n : Word) : State :=
  s.setMirror e { s.mirrorEnt e with valid := true, filling := false, step := n }

/-- A retained entry: 32 to 63 with the device's own address as its source (R477). -/
def State.retained (s : State) (e : Nat) : Bool := e ≥ 32 && (s.mirrorEnt e).src == s.fabAddr && (s.mirrorEnt e).size != 0

/-! ### Page streams (R343, R477, R490) -/

/-- The tower whose drum holds the page at `a`, by that drum's own decode (R314, R343). -/
def State.pageHolder (s : State) (a : Nat) : Nat :=
  ((List.range 8).find? fun t => s.servingDrum t a == t).getD (s.servingDrum 0 a)

/-- The bytes that sending a page reads and, for this device's own entry, stores. -/
def State.pageSpans (s : State) (r : PageRun) (page : Nat) : List (Nat × Nat) :=
  (r.base + 4096 * page, 4096) :: if r.own then [((s.mirrorEnt r.entry).base + 4096 * page, 4096)] else []

/-- The drum that holds a page of a stream reads it and stores it into this device's entry at once, or sends it as a background
WRITE to the entry that lies at `dst` in the other device; an uncorrectable error in the page fails the stream (R319, R338, R343,
R346, R492). -/
def State.sendPage (s : State) (what : ReqFor) (r : PageRun) (dst page : Nat) : State × PageRun :=
  let a := r.base + 4096 * page
  let t := s.pageHolder a
  match s.knownBad a 4096 with
  | some b => (s.recordUe t b, { r with failed := true })
  | none =>
    let bs := s.bytes a 4096
    if r.own then
      let s := s.mirrorFill r.entry
      (s.store ((s.mirrorEnt r.entry).base + 4096 * page) bs, r)
    else
      let tag := s.fab.nextTag
      (s.issuePacket t what .write 4 r.dst (dst + 4096 * page) 4096 bs, { r with tags := r.tags ++ [tag] })

/-- The stream still has a page to read. -/
def PageRun.unread (r : PageRun) : Bool := !r.failed && !r.closed && r.next < r.pages

/-- The stream's next page is read, unless the traffic it takes waits (R20, R322). -/
def State.nextPage (s : State) (what : ReqFor) (r : PageRun) (dst : Nat) : State × PageRun :=
  if s.trafficHeld (drumIsland (s.pageHolder (r.base + 4096 * r.next))) (s.pageSpans r r.next) then (s, r)
  else
    let (s, r2) := s.sendPage what r dst r.next
    (s, { r2 with next := r.next + 1 })

/-- The page of the stream's source that holds an address and has not been read (R345). -/
def PageRun.pageOf (r : PageRun) (a : Nat) : Option Nat :=
  let p := (a - r.base) / 4096
  if r.unread && r.base ≤ a && p < r.pages && r.next ≤ p then some p else none

/-! ### Snapshots (R343, R345, R346, R480) -/

/-- The base of the neighbour's entry that a snapshot stream fills (R343). -/
def State.nbrBase (s : State) (e : Nat) : Nat := (tget s.ram.nbrMirror e).base

/-- A snapshot entry fails: failed is set and MEM_SNAP_FAIL raised with the step (R346). -/
def State.snapFail (s : State) (n : Word) : State := (s.flag .memSnapStat 0 0 memSnapStat_failed).raise 133 n.toNat

/-- The streams of one snapshot-list word: into the neighbour's entry and into the own entry 32 above (R343, R477). -/
def State.snapRuns (s : State) (w : Word) : List PageRun :=
  let p := w.toNat % 16
  let e := w.toNat / 2 ^ 8 % 64
  let b := tget s.step.active.banks p
  let cur := (s.reg .ctlBankCurrent 0 0).toNat.testBit p
  let run (entry size : Nat) (own : Bool) : PageRun :=
    { entry := entry, own := own, dst := s.neighbour 2 true, base := if cur then b.baseB else b.baseA,
      pages := b.size, next := 0, tags := [], failed := e > 31 || b.size > size, closed := false }
  [run e (tget s.ram.nbrMirror e).size false,
   run (e + 32) (if s.retained (e + 32) then (s.mirrorEnt (e + 32)).size else 0) true]

/-- A snapshot takes the place of the one in progress; a refill it supersedes ends (R343, R492). -/
def State.beginSnap (s : State) (x : Snap) : State :=
  let s := { s with ram := { s.ram with snap := some x } }
  let s := s.flag .memSnapStat 0 0 memSnapStat_busy
  let s := if x.runs.any (·.failed) then s.snapFail x.step else s
  -- a refill into an own entry that this snapshot fills
  let s := match s.ram.refillIn with
    | some (e, src, 0) =>
      if x.runs.any fun r => r.own && r.entry == e && !r.failed then
        { s with ram := { s.ram with refillIn := some (e, src, 3) } }
      else s
    | _ => s
  -- refills this device sends into entries that this snapshot fills
  let ends (o : RefillOut) : Bool := x.runs.any fun r => !r.own && r.entry == o.run.entry && r.dst == o.run.dst && !r.failed
  let gone := s.ram.refillOut.filter ends
  let s := { s with ram := { s.ram with refillOut := s.ram.refillOut.filter fun o => !ends o } }
  s.each gone fun s o => s.sendMgmt o.run.dst (.refillSuperseded o.run.entry)

/-- SNAPSHOT_START: at a selected commit of boundary `n` the current banks of the listed pairs start to be sent; a newer
snapshot waits for one in progress (R343, R346). -/
def State.startSnap (s : State) (n : Word) : State :=
  let runs := (s.ram.snapList.filter fun w => w.toNat / 2 ^ 31 == 1).flatMap s.snapRuns
  let x : Snap := { step := n, runs := runs, born := s.step.bounds, stored := s.step.bounds, promoted := false }
  if runs.isEmpty then s
  else
    match s.ram.snap with
    | none => s.beginSnap x
    | some _ => { s with ram := { s.ram with snapNext := some x } }

/-- The snapshot ends when every stream has closed or failed: busy clears, the step is noted when none failed, and a
waiting snapshot starts (R346). -/
def State.endSnap (s : State) : State :=
  match s.ram.snap with
  | none => s
  | some x =>
    if !(x.runs.all fun r => r.closed || r.failed) then s
    else
      let s := s.setFld .memSnapStat 0 0 memSnapStat_busy 0
      let s := if x.runs.any (·.failed) then s else s.setFld .memSnapStat 0 0 memSnapStat_lastStep (x.step.toNat % 2 ^ 24)
      let nxt := s.ram.snapNext
      let s := { s with ram := { s.ram with snap := none, snapNext := none } }
      match nxt with
      | some y => s.beginSnap { y with stored := s.step.bounds }
      | none => s

/-- `s` with the runs of the snapshot in progress changed. -/
def State.setSnapRuns (s : State) (f : PageRun → PageRun) : State :=
  match s.ram.snap with
  | none => s
  | some x => { s with ram := { s.ram with snap := some { x with runs := x.runs.map f } } }

/-- The snapshot reads its next page: the first stream with one to read (one page in a tick; log entry 33). -/
def State.snapTick (s : State) : State :=
  match s.ram.snap with
  | none => s
  | some x =>
    match x.runs.find? (·.unread) with
    | none => s.endSnap
    | some r =>
      let (s, r2) := s.nextPage (.snap r.entry) r (s.nbrBase r.entry)
      let s := s.setSnapRuns fun q => if q == r then r2 else q
      let s := if r2.failed then s.snapFail x.step else s
      match s.ram.snap with
      | some y =>
        if r.own && r2.next != r.next && !r2.failed then
          { s with ram := { s.ram with snap := some { y with stored := s.step.bounds } } }
        else s
      | none => s

/-- A store to `a` is held: a snapshot in progress, or waiting, has not read the page (R345). -/
def State.snapHolds (s : State) (a : Nat) : Bool :=
  (match s.ram.snap with
   | some x => x.runs.any fun r => (r.pageOf a).isSome
   | none => false)
  || (match s.ram.snapNext with
      | some x => x.runs.any fun r => (r.pageOf a).isSome
      | none => false)

/-- The bank pair of the active table that holds an address, whether in its range B, and the offset (R50). -/
def State.pairOf (s : State) (a : Nat) : Option (Nat × Bool × Nat) :=
  s.step.active.banks.findSome? fun (p, e) =>
    if e.baseA ≤ a && a < e.baseA + e.size * 4096 then some (p, false, a - e.baseA)
    else if e.baseB ≤ a && a < e.baseB + e.size * 4096 then some (p, true, a - e.baseB)
    else none

/-- A lantern access served from bank `b` of pair `p` is outstanding (R51, R52). -/
def State.bankServing (s : State) (p : Nat) (b : Bool) : Bool :=
  s.thr.accs.any fun x => x.2.any fun a => a.lantern == .served p b

/-- Some store of the byte ranges `ws` goes into a bank that serves an outstanding lantern access (R52). -/
def State.bankHeld (s : State) (ws : List (Nat × Nat)) : Bool :=
  s.step.active.banks.any fun x => [(false, x.2.baseA), (true, x.2.baseB)].any fun y =>
    (ws.any fun w => w.2 != 0 && w.1 < y.2 + x.2.size * 4096 && y.2 < w.1 + w.2) && s.bankServing x.1 y.1

/-- Some store of the byte ranges `ws` is held at its drum, for a lantern access or for a snapshot (R52, R345). -/
def State.drumHolds (s : State) (ws : List (Nat × Nat)) : Bool :=
  s.bankHeld ws || ((s.ram.snap.isSome || s.ram.snapNext.isSome) && ws.any fun x =>
    x.2 != 0 && ((List.range ((x.1 % 4096 + x.2 + 4095) / 4096)).any (fun i => s.snapHolds (x.1 + 4096 * i))
      || s.snapHolds (x.1 + x.2 - 1)))

/-- Some store of island `i` to the byte ranges `ws` waits on its way, or is held at its drum (R20, R52, R322, R345). -/
def State.storesHeld (s : State) (i : Nat) (ws : List (Nat × Nat)) : Bool := s.trafficHeld i ws || s.drumHolds ws

/-! ### Refills (R490 to R492) -/

/-- The refills this device sends, without the one to a device (R491: a device has one refill at a time). -/
def State.otherRefills (s : State) (dst : Nat) : List RefillOut := s.ram.refillOut.filter fun o => o.run.dst != dst

/-- This device starts to send the contents of its entry `e` XOR 32 to entry `e` of a device that asked, which lies at `base`
there; an entry that is not valid, or larger than that one, fails the refill (R490, R492). -/
def State.startRefill (s : State) (dst e base size : Nat) : State :=
  let src := if e < 32 then e + 32 else e - 32
  let m := s.mirrorEnt src
  if !m.valid || e > 63 || m.size > size then s.sendMgmt dst (.refillFailed e)
  else
    let run : PageRun := { entry := e, own := false, dst := dst, base := m.base, pages := m.size, next := 0,
                           tags := [], failed := false, closed := false }
    let o : RefillOut := { run := run, dstBase := base, src := src, step := m.step }
    { s with ram := { s.ram with refillOut := s.otherRefills dst ++ [o] } }

/-- A refill this device sends goes on: it fails when its source entry lost valid or changed its step (R492); it reads its next
page, and it closes once every page is read and acknowledged (R490). -/
def State.refillStep (s : State) (o : RefillOut) : State :=
  let m := s.mirrorEnt o.src
  let rest := { s with ram := { s.ram with refillOut := s.ram.refillOut.filter (· != o) } }
  if !m.valid || m.step != o.step || o.run.failed then rest.sendMgmt o.run.dst (.refillFailed o.run.entry)
  else if o.run.unread then
    let (s, r) := s.nextPage .refill o.run o.dstBase
    let next (q : RefillOut) : RefillOut := if q == o then { q with run := r } else q
    { s with ram := { s.ram with refillOut := s.ram.refillOut.map next } }
  else if o.run.tags.isEmpty then
    rest.issuePacket 0 .other .snapClose 4 o.run.dst 0 8 (bytesOf 4 o.run.entry ++ bytesOf 4 o.step.toNat)
  else s

/-- Each refill this device sends goes on by a page (log entry 33). -/
def State.refillTick (s : State) : State := s.each s.ram.refillOut State.refillStep

/-- A change of the refill this device sends to a device. -/
def State.onRefill (s : State) (dst : Nat) (f : PageRun → PageRun) : State :=
  let change (o : RefillOut) : RefillOut := if o.run.dst == dst then { o with run := f o.run } else o
  { s with ram := { s.ram with refillOut := s.ram.refillOut.map change } }

end Sys2Proof.Machine
end

