-- ==== Sys2Proof/Machine/Queues.lean ====
section
/-! DEFINITION. Descriptor queues and completion rings (R86 to R89, R122). -/

namespace Sys2Proof.Machine

/-- The registers of a queue kind: base LO and HI, tail, head, completion base LO and HI, tail, head, error. -/
structure QRegs where
  baseLo : RegId
  baseHi : RegId
  tail : RegId
  head : RegId
  cqLo : RegId
  cqHi : RegId
  cqTail : RegId
  cqHead : RegId
  err : RegId
deriving DecidableEq, Repr

/-- The registers of each queue kind (R122, R168, R312, R348, R383). -/
def qRegs (k : QKind) : QRegs :=
  match k with
  | .matrix => ⟨.mtxQBaseLo, .mtxQBaseHi, .mtxQTail, .mtxQHead, .mtxCqBaseLo, .mtxCqBaseHi, .mtxCqTail, .mtxCqHead, .mtxQErr⟩
  | .sleeve => ⟨.slvQBaseLo, .slvQBaseHi, .slvQTail, .slvQHead, .slvCqBaseLo, .slvCqBaseHi, .slvCqTail, .slvCqHead, .slvQErr⟩
  | .mover => ⟨.memMvBaseLo, .memMvBaseHi, .memMvTail, .memMvHead, .memMvcBaseLo, .memMvcBaseHi, .memMvcTail, .memMvcHead, .memMvErr⟩
  | .reduction => ⟨.redQBaseLo, .redQBaseHi, .redQTail, .redQHead, .redCqBaseLo, .redCqBaseHi, .redCqTail, .redCqHead, .redQErr⟩
  | .decode => ⟨.cdcDqBaseLo, .cdcDqBaseHi, .cdcDqTail, .cdcDqHead, .cdcDcqBaseLo, .cdcDcqBaseHi, .cdcDcqTail, .cdcDcqHead, .cdcDqErr⟩
  | .encode => ⟨.cdcEqBaseLo, .cdcEqBaseHi, .cdcEqTail, .cdcEqHead, .cdcEcqBaseLo, .cdcEcqBaseHi, .cdcEcqTail, .cdcEcqHead, .cdcEqErr⟩

/-- The tower index of a queue's registers: the codec queues are not a tower's. -/
def qTower (k : QKind) (t : Nat) : Nat :=
  match k with
  | .decode => 0
  | .encode => 0
  | _ => t

/-- The key of a queue beside its registers. -/
def qKey (k : QKind) (t c : Nat) : Nat := (k.ctorIdx * 8 + qTower k t) * 16 + c

/-- A queue's soft state. -/
def State.q (s : State) (k : QKind) (t c : Nat) : QState := tget s.mtx.qs (qKey k t c)
def State.setQ (s : State) (k : QKind) (t c : Nat) (q : QState) : State :=
  { s with mtx := { s.mtx with qs := tput s.mtx.qs (qKey k t c) q } }

/-- Fields of the queue registers; every kind has the matrix queue's layout. -/
def State.qHead (s : State) (k : QKind) (t c : Nat) : Nat := s.fld (qRegs k).head (qTower k t) c mtxQHead_head
def State.qTail (s : State) (k : QKind) (t c : Nat) : Nat := s.fld (qRegs k).tail (qTower k t) c mtxQTail_tail
def State.qSize (s : State) (k : QKind) (t c : Nat) : Nat := s.fld (qRegs k).baseHi (qTower k t) c mtxQBaseHi_size
def State.qBase (s : State) (k : QKind) (t c : Nat) : Nat :=
  s.fld (qRegs k).baseHi (qTower k t) c mtxQBaseHi_baseHi * 2 ^ 32 + (s.reg (qRegs k).baseLo (qTower k t) c).toNat
def State.cqHead (s : State) (k : QKind) (t c : Nat) : Nat := s.fld (qRegs k).cqHead (qTower k t) c mtxCqHead_head
def State.cqTail (s : State) (k : QKind) (t c : Nat) : Nat := s.fld (qRegs k).cqTail (qTower k t) c mtxCqTail_tail
def State.cqSize (s : State) (k : QKind) (t c : Nat) : Nat := s.fld (qRegs k).cqHi (qTower k t) c mtxCqBaseHi_size
def State.cqBase (s : State) (k : QKind) (t c : Nat) : Nat :=
  s.fld (qRegs k).cqHi (qTower k t) c mtxCqBaseHi_baseHi * 2 ^ 32 + (s.reg (qRegs k).cqLo (qTower k t) c).toNat
def State.qHalted (s : State) (k : QKind) (t c : Nat) : Bool := s.bit (qRegs k).head (qTower k t) c mtxQHead_halted
def State.qEosWait (s : State) (k : QKind) (t c : Nat) : Bool := s.bit (qRegs k).head (qTower k t) c mtxQHead_eosWait

/-- The completion ring is full: tail + 1 equals head modulo size (MTX_CQ_HEAD). -/
def State.cqFull (s : State) (k : QKind) (t c : Nat) : Bool :=
  s.cqSize k t c == 0 || (s.cqTail k t c + 1) % (s.cqSize k t c) == s.cqHead k t c

/-- The queue's head differs from its tail: a descriptor is available. -/
def State.qHasWork (s : State) (k : QKind) (t c : Nat) : Bool := s.qHead k t c != s.qTail k t c

/-- The queue may issue its next descriptor: enabled, not empty, not halted, not waiting for the commit (R89), and no
completion record that found the ring full is still to be written (R88). -/
def State.qCanIssue (s : State) (k : QKind) (t c : Nat) : Bool :=
  s.qSize k t c != 0 && s.qHasWork k t c && !s.qHalted k t c && !s.qEosWait k t c && s.ctxActive c
    && !(s.q k t c).blocked

/-- Descriptor size of a queue kind in bytes (R86). -/
def descBytes (k : QKind) : Nat :=
  match k with
  | .matrix => 128 | .sleeve => 128 | .decode => 128 | .encode => 128 | .mover => 64 | .reduction => 64

/-- The address of the descriptor at the head. -/
def State.descAddr (s : State) (k : QKind) (t c : Nat) : Nat := s.qBase k t c + descBytes k * s.qHead k t c

/-- The words of the descriptor at the head. -/
def State.descWords (s : State) (k : QKind) (t c : Nat) : List Nat :=
  (List.range (descBytes k / 4)).map fun i => s.word (s.descAddr k t c + 4 * i)

/-- The head moves past an issued descriptor (R87). -/
def State.qAdvance (s : State) (k : QKind) (t c : Nat) : State :=
  s.setFld (qRegs k).head (qTower k t) c mtxQHead_head ((s.qHead k t c + 1) % s.qSize k t c)

/-- A descriptor is issued under number `j`; an eos descriptor of a member context makes the queue wait for the commit
(R89). -/
def State.qIssued (s : State) (k : QKind) (t c j : Nat) (eos : Bool) : State :=
  let q := s.q k t c
  let s := (s.qAdvance k t c).setQ k t c { q with running := q.running ++ [j] }
  if eos then s.flag (qRegs k).head (qTower k t) c mtxQHead_eosWait else s

/-- A queue with a completion record added: one that is the oldest and finds the ring full holds the queue until it is written
(R88). -/
def State.withRecord (s : State) (k : QKind) (t c : Nat) (q : QState) (r : DoneRec) : QState :=
  { q with done := q.done ++ [r], blocked := q.blocked || (q.done.isEmpty && s.cqFull k t c) }

/-- Descriptor `j` has completed with its record (R88). -/
def State.qCompleted (s : State) (k : QKind) (t c j : Nat) (r : DoneRec) : State :=
  let q := s.q k t c
  s.setQ k t c (s.withRecord k t c { q with running := q.running.filter (· != j) } r)

/-- Every earlier descriptor of the queue has completed (R87, wait_prev). -/
def State.qIdle (s : State) (k : QKind) (t c : Nat) : Bool := (s.q k t c).running.isEmpty

/-- The queue has a descriptor outstanding for local arrival: issued, or its record not written (R34, R88). -/
def State.qOutstanding (s : State) (k : QKind) (t c : Nat) : Bool :=
  !(s.q k t c).running.isEmpty || !(s.q k t c).done.isEmpty

/-- QUEUE_TAIL_WRITE: the tail takes a value below the ring size; any other is ignored and sets cfg_write_ignored (R122). -/
def State.writeQTail (s : State) (k : QKind) (t c v : Nat) : State :=
  if v < s.qSize k t c then s.setFld (qRegs k).tail (qTower k t) c mtxQTail_tail v
  else s.flag (qRegs k).err (qTower k t) c mtxQErr_cfgWriteIgnored

/-- QUEUE_CQ_HEAD_WRITE: the completion head takes a value below the ring size; any other is ignored and sets
cfg_write_ignored (R122). -/
def State.writeCqHead (s : State) (k : QKind) (t c v : Nat) : State :=
  if v < s.cqSize k t c then s.setFld (qRegs k).cqHead (qTower k t) c mtxCqHead_head v
  else s.flag (qRegs k).err (qTower k t) c mtxQErr_cfgWriteIgnored

/-- QUEUE_BASE_WRITE: a base or size write is stored while the queue's head equals its tail; otherwise it is ignored
and sets cfg_write_ignored (R122). -/
def State.writeQBase (s : State) (k : QKind) (t c : Nat) (r : RegId) (w : Word) : State :=
  if s.qHasWork k t c then s.flag (qRegs k).err (qTower k t) c mtxQErr_cfgWriteIgnored
  else s.setReg r (qTower k t) c (w &&& (regDef r).fields.foldl (fun m f => m ||| f.mask) 0)

/-- The event source that an irq_on_done descriptor of a queue kind raises (R506). -/
def doneSource (k : QKind) (c : Nat) : Nat :=
  match k with
  | .matrix => 64 + c | .sleeve => 80 + c | .mover => 192 + c | .reduction => 208 + c | .decode => 96 + c
  | .encode => 96 + c

/-- A completion with irq_on_done raises the kind's event with context and tower (R90, R506). -/
def State.raiseDone (s : State) (k : QKind) (t c : Nat) (on : Bool) : State :=
  if on then s.raise (doneSource k c) (ctxTower c t) else s

/-- DESCRIPTOR_REJECT: a rejected descriptor leaves the queue and completes at once with a record that carries its status
and zero counts (R93); its eos and irq_on_done hold (R89). -/
def State.qReject (s : State) (k : QKind) (t c : Nat) (eos irq : Bool) (rec_ : List Nat) : State :=
  let q := s.q k t c
  let s := (s.qAdvance k t c).setQ k t c (s.withRecord k t c q { words := rec_, after := none })
  let s := if eos && s.member c then s.flag (qRegs k).head (qTower k t) c mtxQHead_eosWait else s
  (s.flag (qRegs k).err (qTower k t) c mtxQErr_rejected).raiseDone k t c irq

/-- The memory a completion ring must lie in: the queue and descriptor memory of the same tower, or of any tower for
the codec queues (R86, R276). -/
def cqRegionOk (k : QKind) (t a : Nat) : Bool :=
  match regionOf a with
  | .queueMem u => k == .decode || k == .encode || u == t
  | _ => false

/-- The memory a descriptor is fetched from (R86, R276). -/
def descRegionOk (k : QKind) (t a : Nat) : Bool := cqRegionOk k t a && cqRegionOk k t (a + descBytes k - 1)

end Sys2Proof.Machine
end

