-- ==== Sys2Proof/Machine/Random.lean ====
section
/-! DEFINITION. The stochastic-rounding generator and cyclic redundancy checks (R75 to R78; R398, R413, R382). -/

namespace Sys2Proof.Machine

/-- The 32 × 32 product split into its high and low words. -/
def mulHiLo (a b : Word) : Word × Word :=
  let p : BitVec 64 := a.zeroExtend 64 * b.zeroExtend 64
  (p.extractLsb' 32 32, p.extractLsb' 0 32)

/-- The four words of a generator counter or output. -/
structure Quad where
  w0 : Word
  w1 : Word
  w2 : Word
  w3 : Word
deriving DecidableEq, Repr

/-- One round of Philox-4×32 (R76). -/
def philoxRound (c : Quad) (k0 k1 : Word) : Quad :=
  let (h0, l0) := mulHiLo 0xD2511F53 c.w0
  let (h1, l1) := mulHiLo 0xCD9E8D57 c.w2
  ⟨h1 ^^^ c.w1 ^^^ k0, l1, h0 ^^^ c.w3 ^^^ k1, l0⟩

/-- `n` rounds of Philox-4×32, the key stepping by the increments of R76 between rounds. -/
def philox (n : Nat) (c : Quad) (k0 k1 : Word) : Quad :=
  match n with
  | 0 => c
  | j + 1 => philox j (philoxRound c k0 k1) (k0 + 0x9E3779B9) (k1 + 0xBB67AE85)

/-- The generator of R76 for a seed and a step number. -/
def srGenerate (seedLo seedHi step : Word) (c : Quad) : Quad := philox 10 c (seedLo ^^^ step) seedHi

/-- The 16-bit random value of lane `l` (R77). -/
def srLane (q : Quad) (l : Nat) : Nat :=
  let w := match l / 2 with
    | 0 => q.w0 | 1 => q.w1 | 2 => q.w2 | _ => q.w3
  if l % 2 == 0 then w.toNat % 65536 else w.toNat / 65536

/-- The random value of an accumulator fold: output column, output row, K-chunk index and stream id (R77). -/
def srFold (seedLo seedHi step : Word) (col row chunk stream : Nat) : Nat :=
  srLane (srGenerate seedLo seedHi step
    ⟨BitVec.ofNat 32 (col / 8), BitVec.ofNat 32 row, BitVec.ofNat 32 chunk, BitVec.ofNat 32 (stream % 65536)⟩) (col % 8)

/-- The random value of a shard conversion: element offset, bucket id and the group's stream id (R77). -/
def srShard (seedLo seedHi step : Word) (off bucket stream : Nat) : Nat :=
  srLane (srGenerate seedLo seedHi step
    ⟨BitVec.ofNat 32 (off / 8), BitVec.ofNat 32 (bucket % 65536), 0, BitVec.ofNat 32 (65536 + stream % 65536)⟩) (off % 8)

/-- One bit step of a reflected CRC with polynomial `poly`. -/
def crcStep (n : Nat) (poly crc : Nat) : Nat :=
  match n with
  | 0 => crc
  | j + 1 => crcStep j poly (if crc % 2 == 1 then (crc / 2) ^^^ poly else crc / 2)

/-- A reflected CRC over bytes, least significant bit first. -/
def crcRefl (poly : Nat) (crc : Nat) (bs : List Byte) : Nat :=
  bs.foldl (fun c b => crcStep 8 poly (c ^^^ b.toNat)) crc

/-- One bit step of a CRC of `w` bits taken most significant bit first. -/
def crcStepMsb (n w : Nat) (poly crc : Nat) : Nat :=
  match n with
  | 0 => crc
  | j + 1 =>
    crcStepMsb j w poly (if crc / 2 ^ (w - 1) % 2 == 1 then ((crc * 2) % 2 ^ w) ^^^ poly else (crc * 2) % 2 ^ w)

/-- A CRC of `w` bits over bytes, most significant bit first. -/
def crcMsb (w poly crc : Nat) (bs : List Byte) : Nat :=
  bs.foldl (fun c b => crcStepMsb 8 w poly (c ^^^ (b.toNat * 2 ^ (w - 8)))) crc

end Sys2Proof.Machine
end

