-- ==== Sys2Proof/Machine/Mantle.lean ====
section
/-! DEFINITION. The mantle compressor's block format (R329 to R332, R335). -/

namespace Sys2Proof.Machine

/-- Block bytes of ratio code 1 (2:1), 2 (8:3) or 3 (4:1) (R329). -/
def mantleBytes (ratio : Nat) : Nat :=
  match ratio with
  | 1 => 128 | 2 => 96 | _ => 64

/-- Element code width (R329). -/
def mantleWidth (ratio : Nat) : Nat :=
  match ratio with
  | 1 => 7 | 2 => 5 | _ => 3

/-- Element code layout: no infinity and no NaN; the 3-bit code's magnitudes are 0, 1, 2 and 4 (R329). -/
def mantleFmt (ratio : Nat) : FloatFmt :=
  match ratio with
  | 1 => ⟨3, 3, 3, 0x3F, false, false, 0, false⟩
  | 2 => ⟨2, 2, 1, 0xF, false, false, 0, false⟩
  | _ => ⟨2, 0, 1, 3, false, false, 0, false⟩

/-- emax of a ratio (R329). -/
def mantleEmax (ratio : Nat) : Int :=
  match ratio with
  | 1 => 4 | 2 => 2 | _ => 2

/-- `a` ranks strictly above `b` as an outlier: a NaN above every other value, then by magnitude (R331). -/
def rankAbove (a b : FVal) : Bool :=
  match a, b with
  | .nan, .nan => false
  | .nan, _ => true
  | _, .nan => false
  | x, y => x.abs.cmp y.abs == some .gt

/-- The number of elements that rank before element `i`: ties go to the lower index (R331). -/
def rankOf (vs : List FVal) (i : Nat) (v : FVal) : Nat :=
  (vs.zipIdx.filter fun (w, j) => rankAbove w v || (!rankAbove v w && j < i)).length

/-- The indices of the outliers in ascending order: the lesser of 4 and the number of non-zero elements (R331). -/
def outliersOf (vs : List FVal) : List Nat :=
  let n := min 4 (vs.filter fun v => !v.isZero).length
  (vs.zipIdx.filter fun (v, i) => rankOf vs i v < n).map (·.2)

/-- A compressed block: its bits, whether a code saturated and whether a scale is 0xFF. -/
structure MantleBlock where
  bits : Nat
  sat : Bool
  nonfinite : Bool
deriving DecidableEq, Repr

/-- The scale byte and the codes of sub-block `j`; outliers have code 0 (R331, steps 2 and 3). -/
def mantleSub (ratio : Nat) (vs : List FVal) (outs : List Nat) (j : Nat) : Nat × List Conv :=
  let items := (List.range 32).map fun e => (vs.getD (32 * j + e) .zero, outs.contains (32 * j + e))
  let plain := (items.filter fun x => !x.2).map (·.1)
  if plain.any FVal.nonfinite then (0xFF, items.map fun _ => { code := 0 })
  else
    let x := blockExp (mantleEmax ratio) (amaxOf plain)
    ((x + 127).toNat, items.map fun (v, out) =>
      if out then { code := 0 } else (mantleFmt ratio).encode .nearest (v.scale (-x)))

/-- MANTLE_BLOCK_COMPRESS: the block of 128 element codes `cs` of format `fmt`, BF16 or FP16 (R330, R331). -/
def mantleCompress (ratio : Nat) (fmt : Fmt) (cs : List Nat) : MantleBlock :=
  let vs := cs.map fmt.decode
  let outs := outliersOf vs
  let subs := (List.range 4).map (mantleSub ratio vs outs)
  let w := mantleWidth ratio
  let scales := (subs.zipIdx.map fun (s, j) => s.1 * 2 ^ (8 * j)).foldl (· + ·) 0
  let heads := (outs.zipIdx.map fun (k, i) => k * 2 ^ (36 + 23 * i) + cs.getD k 0 * 2 ^ (43 + 23 * i)).foldl (· + ·) 0
  let codes := ((subs.flatMap (·.2)).zipIdx.map fun (r, k) => r.code * 2 ^ (128 + w * k)).foldl (· + ·) 0
  { bits := scales + outs.length * 2 ^ 32 + heads + codes
    sat := subs.any fun s => s.2.any (·.sat)
    nonfinite := subs.any fun s => s.1 == 0xFF }

/-- Element `k` of a block, as a code of format `fmt` (R332). -/
def mantleElem (ratio : Nat) (fmt : Fmt) (bits k : Nat) : Nat :=
  let oc := bits / 2 ^ 32 % 8
  let hit := (List.range (min oc 4)).find? fun i => bits / 2 ^ (36 + 23 * i) % 128 == k
  match hit with
  | some i => bits / 2 ^ (43 + 23 * i) % 2 ^ 16
  | none =>
    let scale := bits / 2 ^ (8 * (k / 32)) % 256
    if scale == 0xFF then (fmt.encode .nan).code
    else
      let w := mantleWidth ratio
      match (mantleFmt ratio).decode (bits / 2 ^ (128 + w * k) % 2 ^ w) with
      | .fin n m e => if m == 0 then 0 else (fmt.encode (.fin n m (e + ((scale : Int) - 127)))).code
      | v => (fmt.encode v).code

/-- The relative error r of a block in FP32: the two sums over the finite elements taken exactly and rounded once, then
the quotient and the square root rounded (R335; log entry 14). -/
def mantleError (ratio : Nat) (fmt : Fmt) (cs : List Nat) (bits : Nat) : Nat :=
  let pairs := cs.zipIdx.filterMap fun (c, k) =>
    let x := fmt.decode c
    let y := fmt.decode (mantleElem ratio fmt bits k)
    if x.nonfinite || y.nonfinite then none else some (x, y)
  let num := pairs.foldl (fun a (x, y) => let d := x.add y.neg; a.add (d.mul d)) FVal.zero
  let den := pairs.foldl (fun a (x, _) => a.add (x.mul x)) FVal.zero
  if den.isZero then 0
  else
    let r32 (v : FVal) : FVal := ffFp32.decode (ffFp32.encode .nearest v).code
    (fpSqrt ffFp32 (ffFp32.decode (fpDiv ffFp32 (r32 num) (r32 den)).code)).code

/-- The histogram bin of r: below 2^−10, 2^−8, 2^−6, 2^−4, 2^−2 or 1, and at or above 1 (R335). -/
def mantleBin (r : Nat) : Nat :=
  -- FP32 codes of 2^−10, 2^−8, 2^−6, 2^−4, 2^−2 and 1
  ([0x3A800000, 0x3B800000, 0x3C800000, 0x3D800000, 0x3E800000, 0x3F800000].filter fun b => b ≤ r).length

/-- The address of drum `t`'s statistics table (MEM_MST_BASE). -/
def State.mstBase (s : State) (t : Nat) : Nat :=
  (s.reg .memMstBaseLo t 0).toNat + (s.reg .memMstBaseHi t 0).toNat % 2 ^ 16 * 2 ^ 32

/-- A saturating 32-bit counter in memory. -/
def State.bumpWord (s : State) (a n : Nat) : State := s.storeNum a 4 (min (s.word a + n) (2 ^ 32 - 1))

/-- MANTLE_STATS_UPDATE: every enabled entry of drum `t` whose range contains block address `a` is updated (R335); a base of 0
disables statistics (MEM_MST_BASE). -/
def State.mantleStats (s : State) (t a : Nat) (b : MantleBlock) (r : Nat) : State :=
  if s.mstBase t == 0 then s
  else s.each (List.range 16) fun s i =>
    let e := s.mstBase t + 64 * i
    if s.word (e + 16) % 2 == 1 && s.num e 8 ≤ a && a < s.num (e + 8) 8 then
      let s := s.bumpWord (e + 20) 1
      let s := s.bumpWord (e + 24) b.sat.toNat
      let s := s.bumpWord (e + 28) b.nonfinite.toNat
      let s := if s.word (e + 32) < r then s.storeNum (e + 32) 4 r else s
      s.bumpWord (e + 36 + 4 * mantleBin r) 1
    else s

/-- A block written whole through the compressor of drum `t` at address `a` (R331, R333, R334). -/
def State.mantleWrite (s : State) (t a ratio : Nat) (fmt : Fmt) (cs : List Nat) : State :=
  let b := mantleCompress ratio fmt cs
  let r := mantleError ratio fmt cs b.bits
  (s.store a (bytesOf (mantleBytes ratio) b.bits)).mantleStats t a b r

/-- Element `k` of a row that starts at `a`, read through the compressor (R135, R332). -/
def State.mantleRead (s : State) (a ratio : Nat) (fmt : Fmt) (k : Nat) : Nat :=
  let bb := mantleBytes ratio
  mantleElem ratio fmt (s.num (a + k / 128 * bb) bb) (k % 128)

end Sys2Proof.Machine
end

