-- ==== Sys2Proof/Machine/Tensors.lean ====
section
/-! DEFINITION. Tensors in memory: packed elements, scale records and block scales (R62 to R70, R565, R566). -/

namespace Sys2Proof.Machine

/-- The code of element `i` of a packed row that starts at `a` (R62). -/
def State.elemCode (s : State) (a bits i : Nat) : Nat :=
  let o := bits * i
  s.num (a + o / 8) ((o % 8 + bits + 7) / 8) / 2 ^ (o % 8) % 2 ^ bits

/-- Consecutive element codes packed into bytes, element 0 in the lowest bits (R62). -/
def packCodes (bits : Nat) (cs : List Nat) : List Byte :=
  bytesOf ((cs.length * bits + 7) / 8) (cs.zipIdx.foldl (fun a (c, i) => a + c % 2 ^ bits * 2 ^ (bits * i)) 0)

/-- Bytes of a packed run of `n` elements (R62). -/
def packedBytes (bits n : Nat) : Nat := (n * bits + 7) / 8

/-! ### Scale records (R65 to R70) -/

/-- What the mantle compressor may read and write: HBM and general scratch (R328). -/
def mantleOk (a : Nat) : Bool :=
  match regionOf a with
  | .hbm => true
  | .scratch _ => true
  | _ => false

/-- A mantle block range lies in HBM or general scratch (R328). -/
def mantleSpanOk (a n : Nat) : Bool := n == 0 || (mantleOk a && mantleOk (a + n - 1))

/-- The record lies wholly within the drum SRAM window that holds its first byte (R565). -/
def recordOk (a : Nat) : Bool := inDrum a && inDrum (a + 143) && drumOf a == drumOf (a + 143)

/-- The largest e for which A × 2^(e + margin) is at most the format's largest finite value, clamped (R68). -/
def expFor (fmt : Fmt) (margin : Nat) (am : Nat × Int) : Int :=
  let l := fmt.largest
  let e0 : Int := floorLog2 l.1 l.2 - floorLog2 am.1 am.2 - margin
  let e := if dyadicLe am.1 (am.2 + e0 + margin) l.1 l.2 then e0 else e0 - 1
  max (-127) (min 127 e)

/-- The exponent of the record at `a` for a format at step `n` (R68): fixed_exp as it stands, −128 too (DEDUCED, log entry 84);
entries that software left negative are log entry 74. -/
def State.scaleExp (s : State) (a : Nat) (fmt : Fmt) (n : Word) : Int :=
  let w0 := s.word a
  if w0 / 2 ^ 12 % 2 == 1 then untwos 8 (w0 / 2 ^ 16 % 256)
  else
    let h := w0 / 16 % 16 + 1
    let margin := w0 / 2 ^ 8 % 16
    let held := (List.range 16).filterMap fun k =>
      let back := (n - BitVec.ofNat 32 (s.word (a + 20 + 8 * k))).toNat
      match ffFp32.decode (s.word (a + 16 + 8 * k)) with
      | .fin neg q e => if 1 ≤ back && back ≤ h then some (neg && q != 0, q, e) else none
      | _ => none
    let best := ((held.filter fun x => !x.1).map (·.2)).foldl magMax (0, 0)
    if !held.isEmpty && held.all (·.1) then 127 else
    if best.1 == 0 then 0 else expFor fmt margin best

/-- The unit writes `e` to last_exp (R68). -/
def State.setLastExp (s : State) (a : Nat) (e : Int) : State := s.storeNum (a + 5) 1 (twos 8 e)

/-- A conversion into the record's tensor saturated (R70). -/
def State.setSaturated (s : State) (a : Nat) : State := s.storeNum (a + 4) 1 (s.num (a + 4) 1 ||| 2)

/-- A magnitude rounded toward +infinity to FP32, at most the largest finite value (R67). -/
def offerCode (m : Nat) (e : Int) : Nat :=
  let r := (roundMag ffFp32 .away m e false).1
  min r ffFp32.maxFin

/-- A maximum is offered to the record's entry for step `n`; a NaN or infinity sets nonfinite_seen (R67). -/
def State.offerMax (s : State) (a : Nat) (n : Word) (v : FVal) : State :=
  match v with
  | .fin _ m e =>
    let k := n.toNat % 16
    let pa := a + 16 + 8 * k
    let old := s.word pa
    let new := offerCode m e
    let keep := s.word (pa + 4) == n.toNat && !(ffFp32.decode old).nonfinite
    let s := s.storeNum pa 4 (if keep && old < 2 ^ 31 then max old new else new)
    s.storeNum (pa + 4) 4 n.toNat
  | _ => s.storeNum (a + 4) 1 (s.num (a + 4) 1 ||| 1)

/-- The bytes that an offer of step `n` to the record at `a` stores to (R66, R67, R70). -/
def offerSpans (a : Nat) (n : Word) : List (Nat × Nat) := [(a + 4, 1), (a + 16 + 8 * (n.toNat % 16), 8)]

/-- The format field of a scale record (R66). -/
def State.recordFmt (s : State) (a : Nat) : Nat := s.word a % 16

/-! ### What units may touch -/

/-- A unit may read [a, a + n): HBM, or drum SRAM (R23 to R27). -/
def unitReadOk (a n : Nat) : Bool :=
  n == 0 || (a + n ≤ 0x018000000000) || (inDrum a && a + n ≤ 0x020080000000)

/-- Some byte of [a, a + n) lies in a thread context store, which the park mechanism alone writes (R24, R25). -/
def meetsCtxStore (a n : Nat) : Bool :=
  (List.range 8).any fun t => a < drumBase t + 0xF000000 && drumBase t + 0xC000000 < a + n

/-- A unit may store to [a, a + n): HBM, general scratch, queue memory (R25, R26, R27). -/
def unitWriteOk (a n : Nat) : Bool := n == 0 || (unitReadOk a n && !meetsCtxStore a n)

/-- [a, a + n) lies in the accumulator window of tower `t` (R23). -/
def inOwnAcc (t a n : Nat) : Bool := accBase t ≤ a && a + n ≤ accBase (t + 1)

/-- Some byte of [a, a + n) lies in a mirror entry, which takes snapshot and refill stores alone (R347). -/
def State.mirrorHit (s : State) (a n : Nat) : Bool :=
  s.ram.mirror.any fun x => x.2.size != 0 && x.2.base < a + n && a < x.2.base + x.2.size * 4096

/-- A store of context `c` to [a, a + n) lies inside the lantern region its unit sampled, where `c` is 15 (R41, R462). -/
def Sampled.regionOk (l : Sampled) (c a n : Nat) : Bool := c != 15 || n == 0 || (l.base ≤ a && a + n ≤ l.base + l.size)

/-- A store of a unit of context `c` to [a, a + n) is allowed: outside the mirror region (R347), and inside the lantern region
that the unit sampled where `c` is 15 (R462). -/
def State.ctxWriteOk (s : State) (l : Sampled) (c a n : Nat) : Bool :=
  unitWriteOk a n && (n == 0 || !s.mirrorHit a n) && l.regionOk c a n

/-- A store by the matrix engine, the reduction path or the attention path of tower `t` is allowed: they also write the
accumulator window of their own tower (R26), which the lantern region rule does not name (R462). -/
def State.pathWriteOk (s : State) (l : Sampled) (t c a n : Nat) : Bool := inOwnAcc t a n || s.ctxWriteOk l c a n

end Sys2Proof.Machine
end

