-- ==== Sys2Proof/Machine/Reduction.lean ====
section
/-! DEFINITION. Exact gradient reduction: groups, buckets, segments, partials, summaries, completion and abort (12). -/

namespace Sys2Proof.Machine

/-! ### Group entries (R349, R350) -/

/-- The group table's base (RED_GRP_BASE). -/
def State.grpBase (s : State) : Nat :=
  (s.reg .redGrpBaseHi 0 0).toNat % 2 ^ 16 * 2 ^ 32 + (s.reg .redGrpBaseLo 0 0).toNat

/-- The key of group `g`'s entry for layout epoch `e` (R349). -/
def grpKey (g e : Nat) : Nat := 2 * g + e % 2

/-- The address of an entry. -/
def State.grpAddr (s : State) (key : Nat) : Nat := s.grpBase + key * 64

/-- A group entry as its words read (R350). -/
structure Grp where
  epoch : Nat
  valid : Bool
  narrow : Bool
  clipSkip : Bool
  /-- contributions each member makes to an element: 1 to 4 -/
  per : Nat
  owner : Nat
  size : Nat
  rank : Nat
  next : Nat
  prev : Nat
  stream : Nat
  nBuckets : Nat
  bucketBase : Nat
  cqBase : Nat
  cqSize : Nat
  cqTail : Nat
  cqHead : Nat
  wire64 : Bool
  aborted : Bool
deriving DecidableEq, Repr

/-- Bits [hi:lo] of a word. -/
def wfld (w hi lo : Nat) : Nat := w / 2 ^ lo % 2 ^ (hi - lo + 1)

/-- The group entry of a list of sixteen words. -/
def grpOf (ws : List Nat) : Grp :=
  let w (i : Nat) : Nat := ws.getD i 0
  { epoch := wfld (w 0) 15 0, valid := wfld (w 0) 16 16 == 1, narrow := wfld (w 0) 17 17 == 1,
    clipSkip := wfld (w 0) 18 18 == 1, per := wfld (w 0) 20 19 + 1, owner := wfld (w 0) 24 21,
    size := w 1, rank := w 2, next := wfld (w 3) 15 0, prev := wfld (w 3) 31 16, stream := wfld (w 4) 15 0,
    nBuckets := w 5, bucketBase := w 6 + wfld (w 7) 15 0 * 2 ^ 32, cqBase := w 8 + wfld (w 9) 15 0 * 2 ^ 32,
    cqSize := wfld (w 10) 15 0, cqTail := wfld (w 11) 15 0, cqHead := wfld (w 11) 31 16,
    wire64 := wfld (w 12) 0 0 == 1, aborted := wfld (w 12) 1 1 == 1 }

/-- The group table has its place in drum SRAM queue and descriptor memory (RED_GRP_BASE). -/
def State.grpPlaced (s : State) : Bool :=
  match regionOf s.grpBase with
  | .queueMem _ => true
  | _ => false

/-- The entry under a key; none is valid while the table has no place. -/
def State.grp (s : State) (key : Nat) : Grp :=
  if s.grpPlaced then grpOf ((List.range 16).map fun i => s.word (s.grpAddr key + 4 * i)) else grpOf []

/-- The group has a valid entry that serves epoch `e` (R351). -/
def State.grpFor (s : State) (g e : Nat) : Option Grp :=
  let x := s.grp (grpKey g e)
  if x.valid && x.epoch == e then some x else none

/-- The active layout epoch (CTL_STEP_STATE). -/
def State.activeEpoch (s : State) : Nat := s.fld .ctlStepState 0 0 ctlStepState_layoutEpoch

/-! ### Buckets, shards and segments (R352, R353, R363) -/

/-- A bucket table entry as its words read (R353). -/
structure Bucket where
  addr : Nat
  elements : Nat
  home : Nat
  carry : Bool
  fixed : Bool
  initExp : Int
  shardBase : Nat
  workBase : Nat
  sActive : Int
  sStaged : Int
  sOpen : Int
deriving DecidableEq, Repr

/-- Bucket `b` of a group entry. -/
def State.bucket (s : State) (g : Grp) (b : Nat) : Bucket :=
  let a := g.bucketBase + 32 * b
  let w (i : Nat) : Nat := s.word (a + 4 * i)
  { addr := a, elements := w 0, home := wfld (w 1) 2 0, carry := wfld (w 1) 3 3 == 1, fixed := wfld (w 1) 4 4 == 1,
    initExp := untwos 16 (wfld (w 1) 31 16), shardBase := w 2 + wfld (w 3) 15 0 * 2 ^ 32,
    workBase := w 4 + wfld (w 5) 15 0 * 2 ^ 32, sActive := untwos 16 (wfld (w 6) 15 0),
    sStaged := untwos 16 (wfld (w 6) 31 16), sOpen := untwos 16 (wfld (w 7) 15 0) }

/-- A scale exponent within −192 to 127 (R354). -/
def clampScale (e : Int) : Int := max (-192) (min 127 e)

/-- The device writes one of the three scale copies of a bucket: byte offset 24 active, 26 staged, 28 open (R353, R354). -/
def State.setScale (s : State) (x : Bucket) (off : Nat) (e : Int) : State :=
  s.storeNum (x.addr + off) 2 (twos 16 (clampScale e))

/-- First element of shard `o` (R352). -/
def shardLo (x : Bucket) (g : Grp) (o : Nat) : Nat := o * x.elements / g.size
/-- Elements of shard `o`. -/
def shardLen (x : Bucket) (g : Grp) (o : Nat) : Nat := shardLo x g (o + 1) - shardLo x g o
/-- The shard of element `e`. -/
def shardOf (x : Bucket) (g : Grp) (e : Nat) : Nat := ((e + 1) * g.size - 1) / x.elements
/-- Segments of shard `o` (R363). -/
def segCount (x : Bucket) (g : Grp) (o : Nat) : Nat := (shardLen x g o + 4095) / 4096
/-- Elements of segment `i` of shard `o`. -/
def segLen (x : Bucket) (g : Grp) (o i : Nat) : Nat := min 4096 (shardLen x g o - 4096 * i)
/-- First element of segment `i` of shard `o`. -/
def segLo (x : Bucket) (g : Grp) (o i : Nat) : Nat := shardLo x g o + 4096 * i
/-- smax of R363. -/
def segMax (x : Bucket) (g : Grp) : Nat := ((x.elements + g.size - 1) / g.size + 4095) / 4096
/-- Address of the control word of segment `i` of shard `o` (R363). -/
def segCtl (x : Bucket) (g : Grp) (o i : Nat) : Nat :=
  x.workBase + (8 * x.elements + 4095) / 4096 * 4096 + 16 * (o * segMax x g + i)
/-- Address of the sum of element `e` (R363). -/
def sumAddr (x : Bucket) (e : Nat) : Nat := x.workBase + 8 * e

/-- The start member of shard `o` (R365). -/
def startMember (g : Grp) (o : Nat) : Nat := (o + 1) % g.size

/-- The key of a bucket's run. -/
def runKey (key b : Nat) : Nat := key * 65536 + b

/-- A bucket's run in the present step; a run of another step is a new one. -/
def State.run (s : State) (key b : Nat) : BucketRun :=
  let r := tget s.red.buckets (runKey key b)
  if r.started && r.step == s.stepNo then r else { (default : BucketRun) with step := s.stepNo }
def State.setRun (s : State) (key b : Nat) (r : BucketRun) : State :=
  { s with red := { s.red with buckets := tput s.red.buckets (runKey key b) r } }

/-- The first access to a segment in a step zeroes its sums and control word and sets the step (R364). -/
def State.touchSeg (s : State) (x : Bucket) (g : Grp) (o i : Nat) : State :=
  let c := segCtl x g o i
  if s.word c == s.stepNo.toNat then s
  else
    let s := s.store (sumAddr x (segLo x g o i)) (List.replicate (8 * segLen x g o i) 0)
    s.storeWords c [s.stepNo.toNat, 0, 0, 0]

/-- Flags of a segment's control word 2: 0 partial_in, 1 sent, 2 clipped, 3 poisoned (R363). -/
def State.segFlag (s : State) (c i : Nat) : Bool := wfld (s.word (c + 8)) i i == 1
def State.setSegFlag (s : State) (c i : Nat) : State := s.storeNum (c + 8) 4 (s.word (c + 8) ||| 2 ^ i)

/-- The place of a segment in its bucket's order of control words (R363). -/
def segPlace (x : Bucket) (g : Grp) (o i : Nat) : Nat := o * segMax x g + i

/-- The bytes of the work area that a segment uses: its sums and its control word (R363). -/
def segSpans (x : Bucket) (g : Grp) (o i : Nat) : List (Nat × Nat) :=
  [(sumAddr x (segLo x g o i), 8 * segLen x g o i), (segCtl x g o i, 16)]

/-- The larger of two FP32 magnitudes given by their codes. -/
def maxCode (a b : Nat) : Nat := max a b

/-! ### Messages (R366) -/

/-- The fields of a reduction message header. -/
structure RedHdr where
  kind : Nat
  wire64 : Bool
  clipped : Bool
  poisoned : Bool
  group : Nat
  epoch : Nat
  step : Nat
  bucket : Nat
  status : Nat
  shard : Nat
  segment : Nat
  length : Nat
  max : Nat
deriving DecidableEq, Repr, Inhabited

/-- The eight header words (R366). -/
def RedHdr.words (h : RedHdr) : List Nat :=
  [h.kind + h.wire64.toNat * 4 + h.clipped.toNat * 8 + h.poisoned.toNat * 16 + h.group * 2 ^ 8 + h.epoch * 2 ^ 16,
   h.step, h.bucket + h.status * 2 ^ 16, h.shard, h.segment, h.length, h.max, 0]

/-- The header of a message's payload (R366). -/
def redHdrOf (bs : List Byte) : RedHdr :=
  let w (i : Nat) : Nat := leOf ((bs.drop (4 * i)).take 4)
  { kind := wfld (w 0) 1 0, wire64 := wfld (w 0) 2 2 == 1, clipped := wfld (w 0) 3 3 == 1,
    poisoned := wfld (w 0) 4 4 == 1, group := wfld (w 0) 15 8, epoch := wfld (w 0) 31 16, step := w 1,
    bucket := wfld (w 2) 15 0, status := wfld (w 2) 31 16, shard := w 3, segment := w 4, length := wfld (w 5) 12 0,
    max := w 6 }

/-- A reduction message is sent from tower `t` (R366, R404). -/
def State.sendRed (s : State) (t dst : Nat) (h : RedHdr) (elems : List Byte) : State :=
  let body := h.words.flatMap (bytesOf 4) ++ elems
  s.issuePacket t (.reduce h.group h.epoch) .reduce (if h.kind == 2 then 0 else 3) dst 0 body.length body

/-! ### Digests (R381) -/

/-- The CRC-64 of a segment: key and sums. -/
def segDigest (step epoch bucket shard segment : Nat) (sums : List Byte) : Nat :=
  crcMsb 64 0x42F0E1EBA9EA3693 0
    (bytesOf 4 step ++ bytesOf 2 epoch ++ bytesOf 2 bucket ++ bytesOf 4 shard ++ bytesOf 4 segment ++ sums)

/-- Bytes of a wire element (R362). -/
def wireBytes (wire64 : Bool) : Nat := if wire64 then 8 else 6

/-- The int64 sum at an address, and the wire bytes of a run of sums. -/
def State.sumAt (s : State) (a : Nat) : Int := untwos 64 (s.num a 8)
def State.wireSums (s : State) (x : Bucket) (lo n bytes : Nat) : List Byte :=
  (List.range n).flatMap fun j => bytesOf bytes (twos (8 * bytes) (s.sumAt (sumAddr x (lo + j))))

/-! ### Abort (R380) -/

/-- The status an aborted group's records carry. -/
def abortStatus (mismatch : Bool) : Status := if mismatch then .epochMismatch else .groupAborted

/-- part_p of a bucket record: 0 done, 1 failed, 2 empty, 3 not converted (R373, R378, R380). -/
def partCode (r : BucketRun) (k p : Nat) : Nat :=
  let lo := p * k / 16
  let hi := (p + 1) * k / 16
  let fates := (List.range (hi - lo)).map fun i => tget r.segs (lo + i)
  if hi ≤ lo then 2
  else if fates.contains .failed then 1
  else if fates.all (· == .done) then 0
  else 3

/-- A bucket completion record (R373). -/
def State.bucketRecord (s : State) (key b : Nat) (st : Status) : List Nat :=
  let g := s.grp key
  let x := s.bucket g b
  let r := s.run key b
  let k := segCount x g g.rank
  let used := if r.started then r.sUsed else x.sActive
  let parts := (List.range 16).foldl (fun a p => a + partCode r k p * 4 ^ p) 0
  let recvDig := r.received.foldl (fun a y => a ^^^ y.2) 0
  [b + st.code * 2 ^ 16, s.stepNo.toNat, g.epoch + r.clipped.toNat * 2 ^ 16 + g.wire64.toNat * 2 ^ 17, r.max,
   twos 16 used + twos 16 (r.sNext.getD used) * 2 ^ 16, parts, min r.satCount (2 ^ 32 - 1), 0,
   r.sentDig % 2 ^ 32, r.sentDig / 2 ^ 32, recvDig % 2 ^ 32, recvDig / 2 ^ 32, r.shardDig % 2 ^ 32,
   r.shardDig / 2 ^ 32, 0, 0]

/-- The group's completion ring has room. -/
def Grp.ringRoom (g : Grp) : Bool := g.cqSize ≥ 2 && (g.cqTail + 1) % g.cqSize != g.cqHead

/-- A record is written to the group's completion ring, and its tail advances (R350, R372). -/
def State.writeRing (s : State) (key : Nat) (ws : List Nat) : State :=
  let g := s.grp key
  let s := s.storeWords (g.cqBase + 64 * g.cqTail) ws
  s.storeNum (s.grpAddr key + 44) 2 ((g.cqTail + 1) % g.cqSize)

/-- The group's completion ring takes a record now: it has room, and its drum is ready (R20, R372). -/
def State.ringTakes (s : State) (g : Grp) : Bool :=
  g.ringRoom && !s.storesHeld (drumIsland (drumOf g.cqBase)) [(g.cqBase + 64 * g.cqTail, 64)]

/-- Records that wait for room are written while there is room, at most `n` of them. -/
def State.drainRing (s : State) (key n : Nat) : State :=
  match n with
  | 0 => s
  | k + 1 =>
    match tget s.red.rings key with
    | [] => s
    | ws :: rest =>
      if s.ringTakes (s.grp key) then
        State.drainRing (({ s with red := { s.red with rings := tput s.red.rings key rest } }).writeRing key ws) key k
      else s

/-- The records that found a group's ring full are written as far as it takes them (R372, R380). -/
def State.ringTick (s : State) : State :=
  s.each s.red.rings fun s x => s.drainRing x.1 x.2.length

/-- The group is marked aborted with its status, and records are made for its buckets that have not completed (R380). Nothing
more than the status changes in a group already aborted. -/
def State.markAborted (s : State) (key : Nat) (mismatch : Bool) : State :=
  let g := s.grp key
  let w := s.word (s.grpAddr key + 48)
  let wasMis := wfld w 31 16 == Status.epochMismatch.code
  let st := abortStatus (mismatch || (g.aborted && wasMis))
  let s := s.storeNum (s.grpAddr key + 48) 4 (w % 2 + 2 + st.code * 2 ^ 16)
  if g.aborted then s
  else
    let open_ := (List.range g.nBuckets).filter fun b => !(s.run key b).complete
    let s := s.each open_ fun s b =>
      let ws := s.bucketRecord key b (abortStatus mismatch)
      let q := tget s.red.rings key
      let s := { s with red := { s.red with rings := tput s.red.rings key (q ++ [ws]) } }
      s.setRun key b { s.run key b with started := true, complete := true, opened := false }
    s.drainRing key (open_.length)

/-- An abort notice is sent to a member, which RED_ERR of the sending tower notes (R380, R383). -/
def State.sendNotice (s : State) (t dst gi : Nat) (g : Grp) (mismatch : Bool) : State :=
  (s.flag .redErr t 0 redErr_abortSeen).sendRed t dst
    { kind := 2, wire64 := false, clipped := false, poisoned := false, group := gi, epoch := g.epoch,
      step := s.stepNo.toNat, bucket := 0, status := (abortStatus mismatch).code, shard := 0, segment := 0,
      length := 0, max := 0 } []

/-- REDUCTION_GROUP_ABORT: the device that detects the cause, at tower `t`, marks the group and sends an abort notice to
next and to prev (R380). -/
def State.abortGroup (s : State) (t gi e : Nat) (mismatch : Bool) : State :=
  let key := grpKey gi e
  let g := s.grp key
  if !g.valid || (g.aborted && s.red.notices.contains (gi, g.epoch, mismatch)) then s
  else
    let s := s.markAborted key mismatch
    let s := { s with red := { s.red with notices := (gi, g.epoch, mismatch) :: s.red.notices } }
    if g.size ≤ 1 then s
    else (s.sendNotice t g.next gi g mismatch).sendNotice t g.prev gi g mismatch

/-- ABORT_NOTICE_RECEIVE's effect: the slice notes the notice (R383); a distinct one is forwarded once in the direction it came,
and the group is marked (R380). -/
def State.noticeIn (s : State) (t src : Nat) (h : RedHdr) : State :=
  let key := grpKey h.group h.epoch
  let g := s.grp key
  let mis := h.status == Status.epochMismatch.code
  let s := s.flag .redErr t 0 redErr_abortSeen
  if !g.valid || g.epoch != h.epoch || s.red.notices.contains (h.group, h.epoch, mis) then s
  else
    let s := s.markAborted key mis
    let s := { s with red := { s.red with notices := (h.group, h.epoch, mis) :: s.red.notices } }
    let onward := if src == g.prev then g.next else g.prev
    s.sendNotice t onward h.group g mis

/-! ### Completion of segments (R365, R368, R370) -/

/-- The bytes of the own shard that the conversion of segment `i` stores to (R368). -/
def convertSpan (x : Bucket) (g : Grp) (i : Nat) : Nat × Nat := (x.shardBase + 4 * (4096 * i), 4 * segLen x g g.rank i)

/-- SEGMENT_CONVERT: the owner converts a completed segment of its shard to FP32 with stochastic rounding and stores it
(R80, R368); a poisoned segment is marked failed and writes nothing (R378), and a store that memory does not take is an
address fault of the owner (R26, R27, R347, R462). -/
def State.convertSeg (s : State) (key b : Nat) (g : Grp) (x : Bucket) (i : Nat) : State :=
  let o := g.rank
  let lo := segLo x g o i
  let n := segLen x g o i
  let r := s.run key b
  if s.segFlag (segCtl x g o i) 3 then
    s.setRun key b { r with segs := tput r.segs i .failed }
  else
    let dig := segDigest s.stepNo.toNat g.epoch b o i (s.wireSums x lo n 8)
    let codes := (List.range n).map fun j =>
      let off := 4096 * i + j
      let rnd := srShard (s.reg .ctlSrSeedLo 0 0) (s.reg .ctlSrSeedHi 0 0) s.stepNo off b g.stream
      (ffFp32.encode (.stochastic rnd) ((FVal.ofInt (s.sumAt (sumAddr x (lo + j)))).scale x.sActive)).code
    let a := (convertSpan x g i).1
    let s := if s.pathWriteOk (s.sample g.owner) x.home g.owner a (4 * n) then s.storeWords a codes
      else { s with red := { s.red with faults := s.red.faults ++ [(g.owner, x.home, a)] } }
    s.setRun key b { r with segs := tput r.segs i .done, shardDig := r.shardDig ^^^ dig }

/-- A completed segment of another member's shard is forwarded to next as a partial (R365); a poisoned one goes without
payload (R378). -/
def State.forwardSeg (s : State) (key b gi : Nat) (g : Grp) (x : Bucket) (o i : Nat) : State :=
  let c := segCtl x g o i
  let poisoned := s.segFlag c 3
  let n := segLen x g o i
  let sums := if poisoned then [] else s.wireSums x (segLo x g o i) n (wireBytes g.wire64)
  let r := s.run key b
  let dig := if poisoned then 0 else segDigest s.stepNo.toNat g.epoch b o i sums
  let s := s.setRun key b { r with sentDig := r.sentDig ^^^ dig, forwarded := r.forwarded + 1 }
  s.sendRed x.home g.next
    { kind := 0, wire64 := g.wire64, clipped := s.segFlag c 2, poisoned := poisoned, group := gi, epoch := g.epoch,
      step := s.stepNo.toNat, bucket := b, status := 0, shard := o, segment := i, length := n, max := s.word (c + 12) }
    sums

/-- BUCKET_AGREEMENT: with all G summaries the member forms the agreed maximum and clipped flag and, unless the scale is
fixed or the maximum 0, writes s_open (R371). -/
def State.agree (s : State) (key b : Nat) (g : Grp) (x : Bucket) : State :=
  let r := s.run key b
  if r.agreed || r.sums.length < g.size then s
  else
    let mx := r.sums.foldl (fun a y => maxCode a y.max) 0
    let cl := r.sums.any (·.clipped)
    let new : Option Int :=
      if x.fixed || mx == 0 then none
      else
        match ffFp32.decode mx with
        | .fin _ m e => some (clampScale (floorLog2 m e - (if g.narrow then 12 else 28)))
        | _ => none
    let s := match new with
      | some e => s.setScale x 28 e
      | none => s
    s.setRun key b { s.run key b with agreed := true, max := mx, clipped := cl, sNext := new }

/-- When every segment of its shard is converted the owner sends the shard's summary to next and holds it itself (R370). -/
def State.trySummary (s : State) (key b gi : Nat) (g : Grp) (x : Bucket) : State :=
  let r := s.run key b
  let k := segCount x g g.rank
  if r.ownSent || !((List.range k).all fun i => tget r.segs i != .open) then s
  else
    let ctl := (List.range k).map fun i => segCtl x g g.rank i
    let y : RedSum :=
      { shard := g.rank, clipped := ctl.any fun c => s.segFlag c 2, poisoned := ctl.any fun c => s.segFlag c 3,
        max := ctl.foldl (fun a c => maxCode a (s.word (c + 12))) 0 }
    let s := s.setRun key b { r with ownSent := true, sums := r.sums ++ [y] }
    let s := if g.size ≤ 1 then s else
      s.sendRed x.home g.next
        { kind := 1, wire64 := false, clipped := y.clipped, poisoned := y.poisoned, group := gi, epoch := g.epoch,
          step := s.stepNo.toNat, bucket := b, status := 0, shard := g.rank, segment := 0, length := 0, max := y.max } []
    s.agree key b g x

/-- A segment is poisoned: its digests no longer count, and the home slice notes it (R378, R381, R383). -/
def State.poisonSeg (s : State) (key b : Nat) (g : Grp) (x : Bucket) (o i : Nat) : State :=
  let s := (s.flag .redErr x.home 0 redErr_poisoned).setSegFlag (segCtl x g o i) 3
  let r := s.run key b
  s.setRun key b { r with received := tput r.received (segPlace x g o i) 0 }

/-- The home slice reads the byte ranges `l` of a segment's work area: corrections are counted, and an uncorrectable error
poisons the segment (R318, R319, R378). -/
def State.readSeg (s : State) (key b : Nat) (g : Grp) (x : Bucket) (o i : Nat) (l : List (Nat × Nat)) (ecc : Ecc) : State :=
  let s := s.countSpans x.home l ecc
  match s.spansError l ecc with
  | some bad => if s.segFlag (segCtl x g o i) 3 then s else (s.recordUe x.home bad).poisonSeg key b g x o i
  | none => s

/-- The bytes that the forwarding or conversion of a complete segment reads and stores wait (R20, R52, R322, R345). -/
def State.segWaits (s : State) (g : Grp) (x : Bucket) (o i : Nat) : Bool :=
  s.trafficHeld (drumIsland x.home) (segSpans x g o i)
    || (o == g.rank && s.storesHeld (drumIsland x.home) [convertSpan x g i])

/-- SEGMENT_COMPLETE: a segment whose contributions are all in, with the incoming partial unless the device starts the
shard, is forwarded or converted (R365); its reads may meet errors (R378), and while its traffic is held it is due. -/
def State.segDone (s : State) (key b gi : Nat) (g : Grp) (x : Bucket) (o i : Nat) (ecc : Ecc) : State :=
  let c := segCtl x g o i
  let full := s.word (c + 4) == segLen x g o i * g.per
  let partialIn := s.segFlag c 0 || g.rank == startMember g o
  if !full || !partialIn || s.segFlag c 1 then s
  else if s.segWaits g x o i then { s with red := { s.red with due := s.red.due ++ [⟨gi, g.epoch, b, o, i⟩] } }
  else
    let s := s.readSeg key b g x o i (segSpans x g o i) ecc
    let s := if o == g.rank then s.convertSeg key b g x i else s.forwardSeg key b gi g x o i
    (s.setSegFlag c 1).trySummary key b gi g x

/-- A segment that was due is tried again; an aborted group drops it (R380; log entry 76). -/
def State.retrySeg (s : State) (d : SegRef) : State :=
  match s.grpFor d.group d.epoch with
  | none => s
  | some g =>
    if g.aborted then s
    else s.segDone (grpKey d.group d.epoch) d.bucket d.group g (s.bucket g d.bucket) d.shard d.seg .clean

/-- Every segment that is due is tried again. -/
def State.retrySegs (s : State) : State :=
  let l := s.red.due
  ({ s with red := { s.red with due := [] } }).each l State.retrySeg

/-! ### Contributions (R356, R360, R361, R364) -/

/-- A bucket's run begins with the step's first traffic. -/
def State.startRun (s : State) (key b : Nat) (x : Bucket) : State :=
  let r := s.run key b
  if r.started then s else s.setRun key b { r with started := true, sUsed := x.sActive }

/-- Buckets of the group entry that slice `t` keeps locally open (R361). -/
def State.openBuckets (s : State) (key t : Nat) : Nat :=
  let g := s.grp key
  ((List.range g.nBuckets).filter fun b => (s.run key b).opened && (s.bucket g b).home == t).length

/-- A contribution of element `e` may be taken now: its bucket is open, or one of the 64 is free (R361). -/
def State.mayOpen (s : State) (key b : Nat) : Bool :=
  (s.run key b).opened || s.openBuckets key (s.bucket (s.grp key) b).home < 64

/-- CONTRIBUTION_ACCEPT: the home slice converts FP32 code `v` under `sAct` and adds it to element `e`'s segment (R79,
R356); a contribution to a segment already complete or forwarded aborts the group (R360). An uncorrectable read of the
work area poisons the segment (R378). -/
def State.accept (s : State) (gi key b e v : Nat) (sAct : Int) (ecc : Ecc) : State :=
  let g := s.grp key
  let x := s.bucket g b
  let o := shardOf x g e
  let i := (e - shardLo x g o) / 4096
  let c := segCtl x g o i
  let s := (s.startRun key b x).touchSeg x g o i
  if s.segFlag c 1 || s.word (c + 4) ≥ segLen x g o i * g.per then
    (s.flag .redErr x.home 0 redErr_overrun).abortGroup x.home gi g.epoch false
  else
    let lim : Int := if g.narrow then 2 ^ 15 - 1 else 2 ^ 31 - 1
    let val := ffFp32.decode v
    let q := convInt (-lim) lim (val.scale (-sAct))
    let sat := q.sat || q.invalid
    let a := sumAddr x e
    let read := [(a, 8), (c, 16)]
    let s := s.readSeg key b g x o i read ecc
    let s := if s.segFlag c 3 then s else s.storeNum a 8 (twos 64 (s.sumAt a + q.val))
    let s := s.storeNum (c + 4) 4 (s.word (c + 4) + 1)
    let s := if sat then s.setSegFlag c 2 else s
    let s := if val.nonfinite then s else s.storeNum (c + 12) 4 (maxCode (s.word (c + 12)) (v % 2 ^ 31))
    let s := if sat then s.count .redSatCnt x.home 0 redSatCnt_saturated 1 else s
    let r := s.run key b
    let acc := r.accepted + 1
    let s := s.setRun key b
      { r with accepted := acc, opened := acc < x.elements * g.per, satCount := r.satCount + sat.toNat }
    s.segDone key b gi g x o i (ecc.beyond read)

/-! ### Partials and summaries (R367, R370, R375) -/

/-- What a receiver does with a partial or summary (R375). -/
inductive RedTake where
  | accept | hold | mismatch
deriving DecidableEq, Repr

/-- The table of R375. -/
def State.redTake (s : State) (h : RedHdr) : RedTake :=
  let st := s.fld .ctlStepState 0 0 ctlStepState_state
  if (st == 1 || st == 2) && h.step == s.stepNo.toNat && h.epoch == s.activeEpoch then .accept
  else if st == 2 && BitVec.ofNat 32 h.step == s.stepNo + 1 && h.epoch == s.step.staged.epoch.toNat then .hold
  else .mismatch

/-- A partial accepted: it is added to the work area, and partial_in, clipped and max are folded in (R367); a poisoned
one, or an uncorrectable read of the work area, poisons the segment (R378). -/
def State.partialIn (s : State) (h : RedHdr) (body : List Byte) (ecc : Ecc) : State :=
  let key := grpKey h.group h.epoch
  let g := s.grp key
  let x := s.bucket g h.bucket
  let o := h.shard
  let i := h.segment
  let c := segCtl x g o i
  let s := (s.startRun key h.bucket x).touchSeg x g o i
  if s.segFlag c 0 || s.segFlag c 1 then
    -- a second partial overruns the segment
    (s.flag .redErr x.home 0 redErr_overrun).abortGroup x.home h.group g.epoch false
  else
    let n := wireBytes h.wire64
    let lo := segLo x g o i
    let s := s.readSeg key h.bucket g x o i (segSpans x g o i) ecc
    let s := if h.poisoned then s.poisonSeg key h.bucket g x o i else s
    let bad := s.segFlag c 3
    let s := if bad then s
      else s.each (List.range h.length) fun s j =>
        let a := sumAddr x (lo + j)
        s.storeNum a 8 (twos 64 (s.sumAt a + untwos (8 * n) (leOf ((body.drop (n * j)).take n))))
    let s := s.setSegFlag c 0
    let s := if h.clipped then s.setSegFlag c 2 else s
    let s := s.storeNum (c + 12) 4 (maxCode (s.word (c + 12)) h.max)
    let r := s.run key h.bucket
    let dig := if bad then 0 else segDigest h.step h.epoch h.bucket o i body
    let s := s.setRun key h.bucket { r with received := tput r.received (segPlace x g o i) dig }
    s.segDone key h.bucket h.group g x o i .clean

/-- A summary accepted: it is held, and forwarded unless its shard is owned by next (R370). -/
def State.summaryIn (s : State) (h : RedHdr) : State :=
  let key := grpKey h.group h.epoch
  let g := s.grp key
  let x := s.bucket g h.bucket
  let s := s.startRun key h.bucket x
  let r := s.run key h.bucket
  if r.sums.any fun y => y.shard == h.shard then s
  else
    let s := s.setRun key h.bucket
      { r with sums := r.sums ++ [{ shard := h.shard, clipped := h.clipped, poisoned := h.poisoned, max := h.max }] }
    let s := if h.shard == (g.rank + 1) % g.size then s else s.sendRed x.home g.next h []
    (s.trySummary key h.bucket h.group g x).agree key h.bucket g x

/-- A message names a bucket, shard and segment the group has. -/
def State.redKnown (s : State) (h : RedHdr) : Bool :=
  match s.grpFor h.group h.epoch with
  | none => false
  | some g =>
    let x := s.bucket g h.bucket
    h.bucket < g.nBuckets && h.shard < g.size
      && (h.kind != 0 || (h.segment < segCount x g h.shard && h.length == segLen x g h.shard h.segment))

/-- An accepted partial waits while the traffic of its home slice to the work area is held (R20, R322). -/
def State.redWaits (s : State) (h : RedHdr) : Bool :=
  match s.grpFor h.group h.epoch with
  | none => false
  | some g =>
    let x := s.bucket g h.bucket
    !g.aborted && h.kind == 0 && s.redTake h == .accept && s.redKnown h
      && s.trafficHeld (drumIsland x.home) (segSpans x g h.shard h.segment)

/-- A partial or summary handled under R375: accepted, held with its port in that port's receive slots (R376), or answered by
aborting the group; an aborted group discards it (R380). -/
def State.redIn (s : State) (port : Nat) (p : Packet) (ecc : Ecc) : State :=
  let h := redHdrOf p.payload
  let key := grpKey h.group h.epoch
  let t := portTower port
  if (s.grp key).aborted then s.returnSlots port p
  else
    match s.redTake h with
    | .mismatch => ((s.returnSlots port p).flag .redErr t 0 redErr_epochMismatch).abortGroup t h.group s.activeEpoch true
    | .hold =>
      let s := { s with red := { s.red with held := s.red.held ++ [(port, p)] } }
      s.count .redHeld t 0 redHeld_held 1
    | .accept =>
      let s := s.returnSlots port p
      if !s.redKnown h then s
      else if h.kind == 0 then s.partialIn h (p.payload.drop 32) ecc
      else s.summaryIn h

/-- A held message is handled, and RED_HELD counts it no longer. -/
def State.releaseOne (s : State) (x : Nat × Packet) : State :=
  let t := portTower x.1
  (s.setFld .redHeld t 0 redHeld_held (s.fld .redHeld t 0 redHeld_held - 1)).redIn x.1 x.2 .clean

/-- Held messages are handled in the order they came, up to one whose traffic waits (R375). -/
def State.releaseList (s : State) (l : List (Nat × Packet)) : State :=
  match l with
  | [] => s
  | x :: rest =>
    if s.redWaits (redHdrOf x.2.payload) || s.redTake (redHdrOf x.2.payload) == .hold then
      { s with red := { s.red with held := s.red.held ++ x :: rest } }
    else (s.releaseOne x).releaseList rest

/-- REDUCE_HELD_RELEASE: after the commit the held messages are accepted in the order they came (R375). -/
def State.releaseHeld (s : State) : State :=
  ({ s with red := { s.red with held := [] } }).releaseList s.red.held

/-! ### Completion (R372 to R374) -/

/-- Segments of the other members' shards, which this device forwards. -/
def otherSegs (x : Bucket) (g : Grp) : Nat :=
  (List.range g.size).foldl (fun a o => if o == g.rank then a else a + segCount x g o) 0

/-- A reduction message of the bucket still waits in a port or its replay buffer (R372, "accepted by next"). -/
def State.redUnsent (s : State) (gi b : Nat) : Bool :=
  s.fab.ports.any fun x =>
    let mine (p : Packet) : Bool :=
      p.kind == .reduce && p.src == s.fabAddr && (redHdrOf p.payload).group == gi && (redHdrOf p.payload).bucket == b
    (x.2.txq.any fun y => mine y.pkt) || x.2.replay.any fun f => mine f.pkt

/-- BUCKET_COMPLETE: the record is written once the bucket's conditions hold and the ring has room (R372); records that an abort
left waiting are written then (R380). A clipped
bucket makes Lumdom vote under the group's policy (SKIP_VOTE, R374), and a partial one always (R379). -/
def State.bucketComplete (s : State) (gi e b : Nat) : State :=
  let key := grpKey gi e
  match s.grpFor gi e with
  | none => s
  | some g =>
    let x := s.bucket g b
    let r := s.run key b
    if g.aborted then s.drainRing key (tget s.red.rings key).length
    else if !r.started || r.complete || b ≥ g.nBuckets then s
    else if !(r.agreed && r.ownSent && r.forwarded == otherSegs x g && !s.redUnsent gi b) then s
    else if !s.ringTakes g || !(tget s.red.rings key).isEmpty then s
    else
      let bad := r.sums.any (·.poisoned)
      let st : Status := if bad then .reducePartial else .ok
      let s := s.writeRing key (s.bucketRecord key b st)
      let s := s.setRun key b { s.run key b with complete := true }
      if bad || (r.clipped && g.clipSkip) then { s with step := { s.step with vote := true } } else s

/-! ### Scales at the boundary (R47, R354, R355, R377) -/

/-- The keys of the valid entries that serve epoch `e`, with their groups. -/
def State.grpsOf (s : State) (e : Nat) : List (Nat × Grp) :=
  (List.range 256).filterMap fun g => (s.grpFor g e).map fun x => (g, x)

/-- Local arrival copies every bucket's open scale to the staged one (R47). -/
def State.stageScales (s : State) (e : Nat) : State :=
  s.each (s.grpsOf e) fun s (_, g) => s.each (List.range g.nBuckets) fun s b =>
    let x := s.bucket g b
    s.setScale x 26 x.sOpen

/-- An abort discards the staged scales (R44). -/
def State.unstageScales (s : State) (e : Nat) : State :=
  s.each (s.grpsOf e) fun s (_, g) => s.each (List.range g.nBuckets) fun s b =>
    let x := s.bucket g b
    s.setScale x 26 x.sActive

/-- A commit copies every bucket's staged scale to the active one (R41). -/
def State.activateScales (s : State) (e : Nat) : State :=
  s.each (s.grpsOf e) fun s (_, g) => s.each (List.range g.nBuckets) fun s b =>
    let x := s.bucket g b
    s.setScale x 24 x.sStaged

/-- EPOCH_ACTIVATION: the bucket scales of a new epoch `e` are set from the previous epoch's or from init_exp (R355). -/
def State.epochScales (s : State) (e : Nat) : State :=
  let prev := (e + 65535) % 65536
  s.each (s.grpsOf e) fun s (gi, g) => s.each (List.range g.nBuckets) fun s b =>
    let x := s.bucket g b
    let v := match s.grpFor gi prev with
      | some o => if x.carry && b < o.nBuckets then (s.bucket o b).sStaged else x.initExp
      | none => x.initExp
    ((s.setScale x 24 v).setScale x 26 v).setScale x 28 v

/-- Groups with a valid entry for the previous epoch and none for the new one abort with EPOCH_MISMATCH (R377). -/
def State.dropGroups (s : State) (old new : Nat) : State :=
  s.each (s.grpsOf old) fun s (gi, _) =>
    match s.grpFor gi new with
    | some _ => s
    | none => (s.flag .redErr 0 0 redErr_epochMismatch).abortGroup 0 gi old true

end Sys2Proof.Machine
end

