-- ==== Sys2Proof/Machine/StepBoundary.lean ====
section
/-! DEFINITION. The step boundary: local arrival, barrier tokens, commit, abort, the phase table, background promotion and
interference (R32 to R55, R460, R468, R470, R475, R480 to R482). -/

namespace Sys2Proof.Machine

/-- The step group's state: 0 none, 1 running, 2 local arrival, 3 aborted (CTL_STEP_STATE). -/
def State.groupState (s : State) : Nat := s.fld .ctlStepState 0 0 ctlStepState_state
def State.setGroupState (s : State) (n : Nat) : State := s.setFld .ctlStepState 0 0 ctlStepState_state n
/-- This device is the root of the commit tree (CTL_STEP_STATE). -/
def State.isRoot (s : State) : Bool := s.bit .ctlStepState 0 0 ctlStepState_isRoot

/-- The member contexts (R32). -/
def State.members (s : State) : List Nat := (List.range 15).filter fun c => s.member c

/-! ### Bank pairs (R50, R51) -/

/-- LANTERN_BANK_ACCESS: how a lantern-slice access with a step tag to pair `p` is served (R51, R563). -/
def State.lanternDecide (s : State) (p : Nat) (tag : Word) : LanternView :=
  let ca := tget s.step.contentA p
  let cb := tget s.step.contentB p
  if tag == ca then .served p false
  else if tag == cb then .served p true
  else if opposite tag ca || opposite tag cb then .stale
  else if later tag ca && later tag cb then .held p
  else if earlier tag ca && earlier tag cb then .stale
  else .served p (later tag cb)

/-- LANTERN_ACCESS_REDECIDE: held lantern accesses are decided again after a commit (R51). -/
def State.redecide (s : State) : State :=
  let one (a : Acc) : Acc := match a.lantern with
    | .held p => { a with lantern := s.lanternDecide p a.tag }
    | _ => a
  { s with thr := { s.thr with accs := s.thr.accs.map fun x => (x.1, x.2.map one) } }

/-- The used bank pairs. -/
def Shadow.pairs (x : Shadow) : List Nat := (x.banks.filter fun e => e.2.size != 0).map (·.1)

/-- The current bank of every bank pair flips, and the new current bank holds the state of step `n` (R41, step 2). A pair first
entered while a group runs keeps its content steps until a flip writes them (DESIGN CHOICE: log entry 82). -/
def State.flipBanks (s : State) (n : Word) : State :=
  s.each s.step.active.pairs fun s p =>
    let w := s.reg .ctlBankCurrent 0 0
    let toB := !w.toNat.testBit p
    let s := s.setReg .ctlBankCurrent 0 0 (w ^^^ BitVec.ofNat 32 (2 ^ p))
    if toB then { s with step := { s.step with contentB := tput s.step.contentB p n } }
    else { s with step := { s.step with contentA := tput s.step.contentA p n } }

/-! ### The phase table (R54, R55) -/

/-- An offset from the start of the step, saturated (R55). -/
def satOff (start t : DWord) : Word := BitVec.ofNat 32 (min (t - start).toNat (2 ^ 32 - 1))

/-- PHASE_TABLE_ENTRY_WRITE: one entry for step `n` ends now; the counters reset, and the next step's offsets count from
this tick when the boundary committed (R55). The arrival word of an abort before local arrival is 0xFFFF_FFFF (DESIGN CHOICE: log
entry 79). -/
def State.phaseEntry (s : State) (n : Word) (skipped aborted : Bool) : State :=
  let st := s.step.startTick
  let ph := (List.range 16).map fun p =>
    let c := tget s.step.phases p
    match c.first with
    | none => (BitVec.allOnes 32, BitVec.allOnes 32, (0 : Word))
    | some f => (satOff st f, satOff st c.last, BitVec.ofNat 32 (min c.busy.toNat (2 ^ 32 - 1)))
  let e : PhaseEntry :=
    { step := n, startTick := st.truncate 32
      arrival := match s.step.arriveTick with
        | some a => satOff st a
        | none => BitVec.allOnes 32
      commit := satOff st s.refclk, skipped := skipped, aborted := aborted, timedOut := s.step.timedOut, phases := ph }
  let start := if aborted then st else s.refclk
  { s with step := { s.step with table := (e :: s.step.table).take 64, phases := [], startTick := start } }

/-- The 64 words of a phase table entry (R55). -/
def PhaseEntry.words (e : PhaseEntry) : List Nat :=
  [e.step.toNat, e.startTick.toNat, e.arrival.toNat, e.commit.toNat,
   e.skipped.toNat + 2 * e.aborted.toNat + 4 * e.timedOut.toNat]
  ++ e.phases.flatMap (fun (f, l, b) => [f.toNat, l.toNat, b.toNat]) ++ List.replicate 11 0

/-! ### Promotion and interference (R468, R470) -/

/-- A mover transfer is background traffic (R336). -/
def MvJob.bg (j : MvJob) : Bool := wfld (j.words.getD 0 0) 6 6 == 1

/-- BG_PROMOTED: the boundary counter rises, and background transfers that were outstanding at boundary n - 2, begun when the
counter stood below it, and have performed no store since are promoted (R468). -/
def State.promote (s : State) : State :=
  let b := s.step.bounds + 1
  let s := { s with step := { s.step with bounds := b } }
  let stuck (born stored : Nat) : Bool := born + 3 ≤ b && stored + 3 ≤ b
  let js := s.ram.jobs.filter fun (_, j) => j.bg && !j.complete && !j.promoted && stuck j.born j.stored
  let s := s.each js fun s (n, j) =>
    let s := { s with ram := { s.ram with jobs := tput s.ram.jobs n { j with promoted := true } } }
    (s.count .ctlCtxPromo 0 j.c ctlCtxPromo_promotions 1).raise (48 + j.c) (ctxTower j.c j.t)
  match s.ram.snap with
  | some x =>
    if !x.promoted && stuck x.born x.stored then
      let s := { s with ram := { s.ram with snap := some { x with promoted := true } } }
      s.flag .memSnapStat 0 0 memSnapStat_promoted
    else s
  | none => s

/-- INTERFERENCE_LATCH: the active and lost cycle counts of the period, which depend on timing and are free values, are
latched with their ratio (R470; log entry 3). -/
def State.latchInterference (s : State) : State :=
  s.each (List.range 16) fun s c =>
    let (act, s) := s.free
    let (lost, s) := s.free
    let (r0, s) := s.free
    let cap (n : Nat) : Nat := min (n / 1024) (2 ^ 32 - 1)
    let s := s.setFld .ctlCtxAct 0 c ctlCtxAct_cycles (cap act)
    let s := s.setFld .ctlCtxLost 0 c ctlCtxLost_cycles (cap lost)
    s.setFld .ctlCtxIntf 0 c ctlCtxIntf_ratio (if act == 0 then r0 else min (lost * 65536 / act) 0xFFFF)

/-! ### Settings becoming active (R41, R47, R49) -/

/-- The registers that show the active settings: layout epoch, spread spectrum (CLK_SSC) and snapshot schedule. -/
def State.showActive (s : State) : State :=
  let a := s.step.active
  let s := s.setFld .ctlStepState 0 0 ctlStepState_layoutEpoch a.epoch.toNat
  let s := (s.setFld .clkSsc 0 0 clkSsc_depth a.sscDepth).setFld .clkSsc 0 0 clkSsc_rateKhz a.sscRate
  let s := s.setFld .ctlSnapSched 0 0 ctlSnapSched_mode a.snap.mode
  let s := s.setFld .ctlSnapSched 0 0 ctlSnapSched_interval (if a.snap.mode == 0 then 0 else a.snap.interval)
  s.setFld .ctlSnapSched 0 0 ctlSnapSched_computed (a.snap.computed && a.snap.mode == 2).toNat

/-- The schedule selects boundary `n` (R480). -/
def SnapSched.selects (x : SnapSched) (n : Word) : Bool := x.mode != 0 && x.interval != 0 && n.toNat % x.interval == 0

/-- The staged copies become the active ones (R41, step 1); the bucket scales with them, under R355 and R377 where the
layout epoch changes. -/
def State.activate (s : State) : State :=
  let old := s.step.active.epoch.toNat
  let new := s.step.staged.epoch.toNat
  let s := { s with step := { s.step with active := s.step.staged } }
  let s := s.showActive
  if new == old then s.activateScales new else (s.epochScales new).dropGroups old new

/-- Threads of a context parked with reason BAR.EOS become READY in ascending index with a wake value (R187, R475). -/
def State.wakeEos (s : State) (c : Nat) (v : DWord) : State :=
  s.each (s.threadsWhere fun _ r => r.ctx == c && r.st == .parked && r.reason == .barEos) fun s k => s.wake k v

/-- EOS_RELEASE: the queues of a context held under R89 resume issue. -/
def State.eosRelease (s : State) (c : Nat) : State :=
  s.each [QKind.matrix, .sleeve, .mover, .reduction] fun s k => s.each (List.range 8) fun s t =>
    s.setFld (qRegs k).head t c mtxQHead_eosWait 0

/-- The codec queues of a context resume. -/
def State.eosReleaseCodec (s : State) (c : Nat) : State :=
  s.each [QKind.decode, .encode] fun s k => s.setFld (qRegs k).head 0 c mtxQHead_eosWait 0

/-! ### Snapshot interval (R481) -/

/-- floor(sqrt(2 C M) / T + 1/2) with M = num / den and T = sum / k, in exact arithmetic, clamped to 2 to 240: the largest
v with (2 v - 1)^2 T^2 at most 8 C M (log entry 34: the spec computes in binary64). -/
def intervalOf (c num den sum k : Nat) : Nat :=
  let lim := 8 * c * num * k * k
  let v := (List.range 241).foldl (fun acc n =>
    if (2 * n - 1) * (2 * n - 1) * sum * sum * den ≤ lim && n ≥ 1 then n else acc) 0
  max 2 (min 240 v)

/-- SNAPSHOT_INTERVAL_COMPUTE: the root computes I from the last failure report and the phase table, writes it to the open
schedule and sends it down the tree (R481, R482). The mode and the cost are those of the open copy, which the result is written to
(DESIGN CHOICE: log entry 83). With failures, none is computed before the members have been counted. -/
def State.computeInterval (s : State) : State :=
  let tab := s.step.table.filter fun e => !e.aborted
  let x := s.step.openSet.snap
  if x.mode != 2 || !s.isRoot || !s.step.reported || s.groupState == 0 || tab.isEmpty
    || (s.step.failures != 0 && s.step.size == 0) then s
  else
    let sum := tab.foldl (fun a e => a + e.commit.toNat) 0
    let num := s.step.hours.toNat * 360000000000
    let den := s.step.failures.toNat * s.step.size
    let v := if s.step.failures == 0 || den == 0 || sum == 0 then 240
             else intervalOf x.cost.toNat num den sum tab.length
    let sec := if s.step.failures == 0 || den == 0 then 0xFFFFFFFF else min (num / den / 100000000) 0xFFFFFFFF
    let s := s.setReg .ctlSnapMtbf 0 0 (BitVec.ofNat 32 sec)
    let o := { s.step.openSet with snap := { x with interval := v, computed := true } }
    let s := { s with step := { s.step with openSet := o, interval := v } }
    s.each s.step.children fun s c => s.sendMgmt c.toNat (.interval v)

/-! ### Abort (R44, R471, R475) -/

/-- STEP_GROUP_ABORT: a group that runs or is at local arrival is aborted: the staged state is discarded, the phase table notes
it, the interference counts are latched (R470), and Lumdom tells the parent and the children, apart from the device the word
came from (R40, R44). -/
def State.stepAbort (s : State) (src : Option Nat) : State :=
  if s.groupState == 1 || s.groupState == 2 then
    let s := s.unstageScales s.activeEpoch
    let s := { s with step := { s.step with staged := s.step.active } }
    let s := (s.phaseEntry s.stepNo false true).latchInterference
    let s := (s.setGroupState 3).flag .ctlStepErr 0 0 ctlStepErr_aborted
    let peers := (if s.isRoot then [] else [s.step.parent.toNat]) ++ s.step.children.map (·.toNat)
    s.each (peers.filter fun p => src != some p) fun s p => s.sendMgmt p (.stepAborted s.step.groupTag)
  else s

/-- STEP_TOKEN_ERR: a token fails its check: token_mismatch is set, the event raised and the group aborted (R40). -/
def State.tokenErr (s : State) : State :=
  ((s.flag .ctlStepErr 0 0 ctlStepErr_tokenMismatch).raise 3 s.stepNo.toNat).stepAbort none

/-! ### Commit (R41, R42) -/

/-- COMMIT_OPERATION: steps 1 to 5 of R41 for the step now running; SKIPPED_BOUNDARY omits steps 2 and 3 (R42). -/
def State.commitStep (s : State) (skipped : Bool) : State :=
  let n := s.stepNo
  let s := s.activate
  let s := if skipped then s else s.flipBanks n
  let s := if !skipped && s.step.active.snap.selects n then s.startSnap n else s
  let s := s.setReg .ctlStepNumber 0 0 (n + 1)
  let s := s.phaseEntry n skipped false
  let s := s.setFld .ctlStepState 0 0 ctlStepState_lastSkipped skipped.toNat
  let s := s.setGroupState 1
  let s := { s with step := { s.step with
    vote := false, arrives := [], arriveSent := false, arriveTick := none, timedOut := false } }
  let s := s.each s.members fun s c => ((s.wakeEos c ((n + 1).zeroExtend 64)).eosRelease c).eosReleaseCodec c
  let s := (s.redecide).releaseHeld
  let s := s.promote.latchInterference
  if n.toNat % 64 == 0 then s.computeInterval else s

/-- COMMIT is forwarded to every child (R38, R39). -/
def State.sendCommit (s : State) (n : Word) (epoch : Half) (vote : Bool) : State :=
  s.each s.step.children fun s c =>
    s.sendToken c.toNat { commit := true, vote := vote, tag := s.step.groupTag, epoch := epoch, step := n }

/-- ARRIVE_SEND and ROOT_COMMIT: once this device has arrived and every child's ARRIVE is in, their epochs are checked;
the root commits and sends COMMIT, and any other member sends ARRIVE with the combined vote to its parent (R35, R37, R38,
R40). -/
def State.tryArrive (s : State) : State :=
  let have_ (c : Half) : Bool := s.step.arrives.any fun a => a.child == c
  if s.groupState != 2 || s.step.arriveSent || !(s.step.children.all have_) then s
  else if s.step.arrives.any fun a => a.epoch != s.step.staged.epoch then s.tokenErr
  else
    let v := s.step.vote || s.step.arrives.any (·.vote)
    let n := s.stepNo
    let e := s.step.staged.epoch
    let s := { s with step := { s.step with arriveSent := true } }
    if s.isRoot then (s.commitStep v).sendCommit n e v
    else s.sendToken s.step.parent.toNat { commit := false, vote := v, tag := s.step.groupTag, epoch := e, step := n }

/-! ### Local arrival (R34, R35) -/

/-- Context `c` has arrived at the step: every thread has parked on BAR.EOS or exited, no descriptor of any of its queues is
outstanding (R88, R276, R358), every bucket it contributed to has completed, and all its stores are performed (R34). -/
def State.arrived (s : State) (c : Nat) : Bool :=
  (s.threadsWhere fun k r => r.ctx == c && r.st != .free
      && !(r.st == .parked && r.reason == .barEos) && !(s.seat k).exited).isEmpty
  && (List.range 8).all (fun t =>
      !s.qOutstanding .matrix t c && !s.qOutstanding .sleeve t c && !s.qOutstanding .mover t c
        && !s.qOutstanding .reduction t c)
  && !s.qOutstanding .decode 0 c && !s.qOutstanding .encode 0 c
  && s.red.buckets.all (fun (k, r) =>
      !((s.grp (k / 65536)).owner == c && r.step == s.stepNo && r.accepted != 0 && !r.complete))
  && s.thr.accs.all (fun (k, l) => (s.trec k).ctx != c || l.all fun a => a.kind == .load)

/-- Every member context has arrived while the group runs. -/
def State.allArrived (s : State) : Bool := s.groupState == 1 && s.members.all s.arrived

/-- LOCAL_ARRIVAL: open is copied to staged, and the device goes on to ARRIVE or, at the root, to the commit (R35). -/
def State.localArrival (s : State) : State :=
  if s.allArrived then
    let s := s.stageScales s.activeEpoch
    let s := { s with step := { s.step with staged := s.step.openSet, arriveTick := some s.refclk } }
    (s.setGroupState 2).tryArrive
  else s

/-! ### Tokens received (R39, R40, R411) -/

/-- The token's source, kind, tag and step (R411). -/
def tokenId (src : Nat) (k : Token) : Half × Bool × Byte × Word := (BitVec.ofNat 16 src, k.commit, k.tag, k.step)

/-- A resent token that the device already holds is discarded and counted (TOKEN_DUPLICATE_DISCARD, R411); any other is
noted and handled by `f` when it passes the checks of tag and step (R40). A token at a device without a step group fails them, and
one from a sender that is neither child nor parent is a mismatch too (DESIGN CHOICE: log entry 81). -/
def State.tokenIn (s : State) (p : Packet) (commit : Bool) (f : State → Token → State) : State :=
  match s.hasLocal p with
  | none => s
  | some x =>
    match p.kind, tokenOf p.payload with
    | .token, some k =>
      if k.commit != commit then s
      else
        let s := s.dropLocal x
        let id := tokenId p.src k
        if p.resent && s.step.seen.contains id then s.count .plynDupToken (portTower x.1) 0 plynDupToken_count 1
        else
          let s := { s with step := { s.step with seen := id :: s.step.seen } }
          if k.tag != s.step.groupTag || k.step != s.stepNo || s.groupState == 0 then s.tokenErr else f s k
    | .token, none => if commit then s else (s.dropLocal x).tokenErr
    | _, _ => s

/-- ARRIVE_TOKEN_RECEIVE: an ARRIVE from a child is held until this device's own arrival (R37, R40). -/
def State.arriveIn (s : State) (p : Packet) : State :=
  s.tokenIn p false fun s k =>
    let c := BitVec.ofNat 16 p.src
    if !s.step.children.contains c || (s.step.arrives.any fun a => a.child == c) then s.tokenErr
    else
      let a : ChildArrive := { child := c, vote := k.vote, epoch := k.epoch }
      ({ s with step := { s.step with arrives := s.step.arrives ++ [a] } }).tryArrive

/-- COMMIT_TOKEN_RECEIVE: a non-root member at local arrival commits and forwards COMMIT to its children (R39, R40). -/
def State.commitIn (s : State) (p : Packet) : State :=
  s.tokenIn p true fun s k =>
    if s.isRoot || BitVec.ofNat 16 p.src != s.step.parent || k.epoch != s.step.staged.epoch || s.groupState != 2 then
      s.tokenErr
    else (s.commitStep k.vote).sendCommit k.step k.epoch k.vote

/-- STEP_TIMEOUT: at local arrival for CTL_STEP_TIMEOUT ticks without a COMMIT, timeout is set and the event raised, once
for the step (R46). -/
def State.stepTimeout (s : State) : State :=
  let lim := (s.reg .ctlStepTimeout 0 0).toNat
  match s.step.arriveTick with
  | some a =>
    if s.groupState == 2 && lim != 0 && !s.step.timedOut && lim ≤ (s.refclk - a).toNat then
      let s := { s with step := { s.step with timedOut := true } }
      (s.flag .ctlStepErr 0 0 ctlStepErr_timeout).raise 4 s.stepNo.toNat
    else s
  | none => s

/-- NO_GROUP_PERIOD_TICK: while no step group exists, each 100,000,000 refclk ticks count as a boundary for promotion and
latch the interference counts (R468, R470). -/
def State.periodTick (s : State) : State :=
  if s.groupState == 0 && 100000000 ≤ (s.refclk - s.ctx.periodTick).toNat then
    let s := { s with ctx := { s.ctx with periodTick := s.ctx.periodTick + 100000000 } }
    s.promote.latchInterference
  else s

/-! ### The commands -/

/-- LOCAL_ARRIVAL (R35). -/
def execLocalArrival (s : State) : Host.Outcome State Fault Refusal := .next s.localArrival
/-- ARRIVE_TOKEN_RECEIVE (R37). -/
def execArriveTokenReceive (p : Packet) (s : State) : Host.Outcome State Fault Refusal := .next (s.arriveIn p)
/-- COMMIT_TOKEN_RECEIVE (R39). -/
def execCommitTokenReceive (p : Packet) (s : State) : Host.Outcome State Fault Refusal := .next (s.commitIn p)
/-- STEP_TIMEOUT (R46). -/
def execStepTimeout (s : State) : Host.Outcome State Fault Refusal := .next s.stepTimeout
/-- NO_GROUP_PERIOD_TICK (R468). -/
def execNoGroupPeriodTick (s : State) : Host.Outcome State Fault Refusal := .next s.periodTick

end Sys2Proof.Machine
end

