-- ==== Sys2Proof/Machine/Contexts.lean ====
section
/-! DEFINITION. Contexts: slots, creation, faults, teardown and return to NONE (R455 to R476, R570). -/

namespace Sys2Proof.Machine

/-! ### Slots (R96, R97, R570) -/

/-- The physical slots context `c` holds in tower `t`, lowest first (R570). -/
def State.slotsOf (s : State) (c t : Nat) : List Nat :=
  (List.range 32).filter fun p => (tget s.ctx.slotMask c).testBit (32 * t + p)

/-- Physical slots of tower `t` that no context holds, lowest first. -/
def State.freeSlots (s : State) (t : Nat) : List Nat :=
  (List.range 32).filter fun p => (List.range 16).all fun c => !(tget s.ctx.slotMask c).testBit (32 * t + p)

def State.slotSt (s : State) (t p : Nat) : SlotSt := tget s.mtx.slots (t * 32 + p)
def State.setSlot (s : State) (t p : Nat) (x : SlotSt) : State :=
  { s with mtx := { s.mtx with slots := tput s.mtx.slots (t * 32 + p) x } }

/-! ### Queues of a context -/

/-- Every descriptor queue a context has: the kind and tower. -/
def ctxQueues : List (QKind × Nat) :=
  ([QKind.matrix, .sleeve, .mover, .reduction].flatMap fun k => (List.range 8).map fun t => (k, t))
  ++ [(.decode, 0), (.encode, 0)]

/-- Every queue of the context halts, and nothing of it stays outstanding (R473, steps 1 and 2). -/
def State.haltQueues (s : State) (c : Nat) : State :=
  s.each ctxQueues fun s (k, t) =>
    (s.flag (qRegs k).head t c mtxQHead_halted).setQ k t c default

/-- The queues of a context leave the halt, as it returns to NONE. -/
def State.unhaltQueues (s : State) (c : Nat) : State :=
  s.each ctxQueues fun s (k, t) =>
    (s.setFld (qRegs k).head t c mtxQHead_halted 0).setFld (qRegs k).head t c mtxQHead_eosWait 0

/-! ### Stopping the units (R121, R167, R473) -/

/-- A job that ends leaves its stage and spill areas undefined (R148). -/
def State.spoilJob (s : State) (j : MtxJob) : State :=
  (s.spoil j.stageArea.1 j.stageArea.2).spoil j.spillArea.1 j.spillArea.2

/-- The context's jobs stop: matrix, sleeve, codec, reduction and mover jobs are dropped, their slots become FREE, and the
array, the sleeve engine and the codec engines are free of them (R121, R167, R311, R473 step 2). -/
def State.dropJobs (s : State) (c : Nat) : State :=
  let s := s.cdcStop c
  let mine := (s.mtx.jobs.filter fun x => x.2.c == c).map (·.1)
  let s := s.each (s.mtx.jobs.filter fun x => x.2.c == c) fun s x => s.spoilJob x.2
  let s := s.each (List.range 8) fun s t => s.each (s.slotsOf c t) fun s p =>
    if s.slotSt t p == .held then s else s.setSlot t p .free
  let arr := s.mtx.array.filter fun x => match x.2 with
    | some g => !mine.contains g.job
    | none => true
  let slvMine := (s.slv.jobs.filter fun x => x.2.c == c).map (·.1)
  let cur := s.slv.cur.filter fun x => match x.2 with
    | some j => !slvMine.contains j
    | none => true
  let redMine := (s.red.jobs.filter fun x => x.2.c == c).map (·.1)
  let waiting := s.red.waiting.filter fun x => match x with
    | .tile j _ => !mine.contains j
    | .desc j => !redMine.contains j
  let s := { s with mtx := { s.mtx with jobs := s.mtx.jobs.filter fun x => x.2.c != c, array := arr } }
  let s := { s with slv := { s.slv with jobs := s.slv.jobs.filter fun x => x.2.c != c, cur := cur } }
  let s := { s with red := { s.red with jobs := s.red.jobs.filter fun x => x.2.c != c, waiting := waiting } }
  let mvMine := (s.ram.jobs.filter fun x => x.2.c == c).map (·.1)
  let flying := (s.fab.reqs.filter fun x => match x.2 with
    | some r => r.kind == .write && (match r.what with
      | .part j _ => mvMine.contains j
      | _ => false)
    | none => false).map (·.1)
  let s := { s with ctx := { s.ctx with remoteStores := tput s.ctx.remoteStores c flying } }
  { s with ram := { s.ram with jobs := s.ram.jobs.filter fun x => x.2.c != c } }

/-- The context's threads stop before their next instruction and free their seats (R473, step 1); stores and atomics
already issued stay to be performed, loads are dropped (step 4). -/
def State.stopThreads (s : State) (c : Nat) : State :=
  let keys := s.threadsWhere fun _ r => r.ctx == c && r.st != .free
  let s := s.each keys fun s k =>
    (s.setSeat k default).setAccs k ((s.accs k).filter fun a => match a.kind with
      | .load => false
      | _ => true)
  { s with thr := { s.thr with ready := s.thr.ready.filter fun k => !keys.contains k } }

/-- The groups the context owns that are not aborted yet: number and epoch. -/
def State.ownGroups (s : State) (c : Nat) : List (Nat × Nat) :=
  (List.range 512).filterMap fun key =>
    let g := s.grp key
    if g.valid && g.owner == c && !g.aborted then some (key / 2, g.epoch) else none

/-- Threads of a context that are not FREE, in all towers. -/
def State.ctxThreads (s : State) (c : Nat) : List Nat := s.threadsWhere fun _ r => r.ctx == c && r.st != .free

/-- A step group with this context as a member aborts, where it runs or is at local arrival (R471). -/
def State.abortIfMember (s : State) (c : Nat) : State := if s.member c then s.stepAbort none else s

/-- Teardown begins: steps 1 to 3 of R473. -/
def State.beginTeardown (s : State) (c : Nat) : State :=
  let s := s.setFld .ctlCtxState 0 c ctlCtxState_state 2
  let s := ((s.haltQueues c).stopThreads c).dropJobs c
  s.each (s.ownGroups c) fun s (g, e) => s.abortGroup 0 g e false

/-- CONTEXT_FAULT: an ACTIVE context enters TEARDOWN with its fault noted, and the step group aborts for a member (R471,
R473); a fault on a context in TEARDOWN or FAULTED adds 1 to further_faults (R457). -/
def State.ctxFault (s : State) (c : Nat) (f : FaultRec) : State :=
  match s.ctxState c with
  | 1 =>
    let rec_ : FaultRec :=
      { f with threadsFreed := (s.ctxThreads c).length, groupsAborted := (s.ownGroups c).length, further := 0,
               step := s.stepNo, tick := s.refclk }
    let s := { s with ctx := { s.ctx with faults := tput s.ctx.faults c (some rec_) } }
    let s := s.setFld .ctlCtxState 0 c ctlCtxState_cause f.cause
    (s.beginTeardown c).abortIfMember c
  | 0 => s
  | _ =>
    match tget s.ctx.faults c with
    | none => s
    | some r =>
      let r2 : FaultRec := { r with further := min (r.further + 1) (2 ^ 32 - 1) }
      { s with ctx := { s.ctx with faults := tput s.ctx.faults c (some r2) } }

/-- A context fault raised by a unit on a data address (R121, R476): unit 1 matrix, 2 sequencer, 3 sleeve, 4 attention,
5 mover, 6 reduction, 7 codec. -/
def State.unitFault (s : State) (c t unit cause addr tag index : Nat) : State :=
  s.ctxFault c
    { cause := cause, tower := t, unit := unit, remote := false, thread := 0x3FFFF, pc := 0, addr := addr,
      jobTag := tag, descIndex := index, step := 0, tick := 0, further := 0, threadsFreed := 0, groupsAborted := 0 }

/-- Shard stores that memory did not take fault the owners of their groups, in unit 6 (R27, R347, R368). -/
def State.settleRed (s : State) : State :=
  let l := s.red.faults
  let s := { s with red := { s.red with faults := [] } }
  s.each l fun s x => s.unitFault x.1 x.2.1 6 0x10 x.2.2 0 0

/-- A unit's read meets an uncorrectable error: it is recorded and faults the context with MEM_UE or MEM_SRAM_UE (R319,
R321). -/
def State.unitUe (s : State) (c t unit addr tag index : Nat) : State :=
  (s.recordUe t addr).unitFault c t unit (if inDrum addr then 0x12 else 0x11) addr tag index

/-- The context that owns the accumulator slot at an address (R570). -/
def State.slotOwner (s : State) (t a : Nat) : Option Nat :=
  (List.range 16).find? fun c => (tget s.ctx.slotMask c).testBit (32 * t + a % 0x02000000 / 0x100000)

/-- A thread, a mover or a device that reads memory at `a`, HBM decoded at the drum of tower `v`, meets an uncorrectable error:
the drum records it (R319, R321); in accumulator memory MTX_ACC_UE is raised and the context that owns the slot faults (R120;
log entry 48). -/
def State.readUe (s : State) (v a : Nat) : State :=
  match regionOf a with
  | .acc t =>
    let s := s.raise 128 (2 ^ t)
    (match s.slotOwner t a with
     | some c => s.unitFault c t 1 0x13 a 0 0
     | none => s)
  | _ => s.recordUe v a

/-- The cause codes of unit faults (R476): an address fault, and an uncorrectable accumulator error. -/
def causeAddress : Nat := 0x10
def causeAcc : Nat := 0x13

/-- The words of a fault record (R476). -/
def FaultRec.words (f : FaultRec) : List Nat :=
  [f.cause + f.tower * 2 ^ 8 + f.unit * 2 ^ 11 + f.remote.toNat * 2 ^ 15, f.thread, f.pc % 2 ^ 32, f.pc / 2 ^ 32,
   f.addr % 2 ^ 32, f.addr / 2 ^ 32, f.jobTag + f.descIndex * 2 ^ 16, f.step.toNat, f.tick.toNat % 2 ^ 32,
   f.tick.toNat / 2 ^ 32, f.further, f.threadsFreed, f.groupsAborted, 0, 0, 0]

/-! ### Defaults and return to NONE (R459 to R461) -/

/-- The scheduling defaults of a context (R459): priority 4, no reserved core, every core of every tower allowed; the
lantern slice has priority 0, and its cores reserved and allowed (R461). -/
def defaultSched : Sched := { prio := 4, reserved := 0, allowed := 2 ^ 512 - 1 }

/-- The cores of the lantern slice: the highest-numbered `n` of every tower (R461). -/
def lanternCores (n : Nat) : Nat :=
  (List.range 8).foldl (fun a t => a + (2 ^ 64 - 2 ^ (64 - n)) * 2 ^ (64 * t)) 0

/-- The scheduling settings of the lantern slice with `n` cores per tower (R461). -/
def lanternSched (n : Nat) : Sched := { prio := 0, reserved := lanternCores n, allowed := lanternCores n }

/-- The lantern settings at their defaults: 4 cores, one window in 16, an empty region (R461). -/
def defaultLantern : Lantern := { cores := 4, windows := 1, base := 0, size := 0 }

/-- A change made to the open, staged and active copies at once (R460). -/
def State.allCopies (s : State) (f : Shadow → Shadow) : State :=
  { s with step := { s.step with openSet := f s.step.openSet, staged := f s.step.staged, active := f s.step.active } }

/-- A context's settings at their defaults in all three copies (R460). -/
def State.defaultSettings (s : State) (c : Nat) : State :=
  if c == 15 then
    s.allCopies fun x => { x with sched := tput x.sched 15 (lanternSched 4), lantern := defaultLantern }
  else s.allCopies fun x => { x with sched := tput x.sched c defaultSched }

/-- The settings of a context that returns to NONE take their defaults in all three copies, the lantern settings for context 15
too, and it reserves no core (R460). -/
def State.releaseCores (s : State) (c : Nat) : State :=
  if c == 15 then
    s.allCopies fun x =>
      { x with sched := tput x.sched 15 { lanternSched 4 with reserved := 0 }, lantern := defaultLantern }
  else s.allCopies fun x => { x with sched := tput x.sched c { defaultSched with reserved := 0 } }

/-- The context returns to NONE: its fault record is discarded, its slots return to the free set with their contents, its
settings take the defaults, its membership ends and its queues leave the halt (R456, R460, R476, R570). -/
def State.toNone (s : State) (c : Nat) : State :=
  let s := (s.setFld .ctlCtxState 0 c ctlCtxState_state 0).setFld .ctlCtxState 0 c ctlCtxState_member 0
  let s := { s with ctx := { s.ctx with
    faults := tput s.ctx.faults c none, destroying := tput s.ctx.destroying c false,
    slotMask := tput s.ctx.slotMask c 0 } }
  let s := s.releaseCores c
  let s := s.each (List.range 8) fun s t => s.setReg .vecThrRange t c 0
  s.unhaltQueues c

/-- A store of the context's threads is not performed yet, or a remote store of its mover transfers is neither answered nor timed
out (R405, R473 step 4). -/
def State.storesOut (s : State) (c : Nat) : Bool :=
  (s.thr.accs.any fun (k, l) => (s.trec k).ctx == c && !l.isEmpty)
    || (tget s.ctx.remoteStores c).any fun tag => (tget s.fab.reqs tag).isSome

/-- The context's threads become FREE, its barriers are reset and its slots become FREE with their contents kept (R473,
step 5). -/
def State.freeAll (s : State) (c : Nat) : State :=
  let keys := s.ctxThreads c
  let s := s.each keys fun s k => (s.setRec k default).setSeat k default
  let bars := s.thr.bars.filter fun x => x.1 / 64 % 16 != c
  let s := { s with thr := { s.thr with bars := bars, ready := s.thr.ready.filter fun k => !keys.contains k } }
  let starved := s.atn.starved.filter fun x => x.1 % 16 != c
  let parked := s.atn.parked.filter fun x => !keys.contains x.1
  let s := { s with atn := { s.atn with starved := starved, parked := parked } }
  s.each (List.range 8) fun s t => s.each (s.slotsOf c t) fun s p => s.setSlot t p .free

/-- TEARDOWN_COMPLETE: once every store is performed, steps 5 and 6 of R473: after a fault CTX_FAULT is raised and the context is
FAULTED, or NONE where CTX_DESTROY came meanwhile; after CTX_DESTROY alone it is NONE (R456). -/
def State.teardownComplete (s : State) (c : Nat) : State :=
  if s.ctxState c != 2 || s.storesOut c then s
  else
    let s := s.freeAll c
    let s := if (tget s.ctx.faults c).isSome then s.raise (16 + c) c else s
    if tget s.ctx.destroying c then s.toNone c else s.setFld .ctlCtxState 0 c ctlCtxState_state 3

/-- CTX_DESTROY's effect: an ACTIVE context is torn down, aborting the step group of a member while it runs or is at local
arrival; a FAULTED one returns to NONE (R456, R471, R473). -/
def State.destroyCtx (s : State) (c : Nat) : State :=
  match s.ctxState c with
  | 1 =>
    let s := { s with ctx := { s.ctx with destroying := tput s.ctx.destroying c true } }
    (s.beginTeardown c).abortIfMember c
  | 2 => { s with ctx := { s.ctx with destroying := tput s.ctx.destroying c true } }
  | 3 => s.toNone c
  | _ => s

/-- The context an arbiter serves next among `cands`, contexts with the priority their first unit sampled: highest priority, then
round-robin in context number after the one served last (R41, R464, R465). -/
def nextCtx (last : Nat) (cands : List (Nat × Nat)) : Option Nat :=
  let prio (c : Nat) : Option Nat := (cands.find? fun x => x.1 == c).map (·.2)
  let order := ((List.range 16).map fun i => (last + 1 + i) % 16).filter fun c => (prio c).isSome
  order.foldl (fun best c =>
    match best with
    | none => some c
    | some b => if (prio c).getD 0 > (prio b).getD 0 then some c else best) none

/-! ### The commands -/

/-- CONTEXT_FAULT: a unit outside the other commands of the table raises a fault on a context (R471). -/
def execContextFault (c : CtxId) (f : FaultInfo) (s : State) : Host.Outcome State Fault Refusal :=
  .next (s.ctxFault c.val
    { cause := f.cause.toNat, tower := f.tower.val, unit := f.unit.toNat, remote := f.remote, thread := f.thread,
      pc := f.pc.toNat, addr := f.addr.toNat, jobTag := f.jobTag.toNat, descIndex := f.descIndex.toNat, step := 0,
      tick := 0, further := 0, threadsFreed := 0, groupsAborted := 0 })

/-- TEARDOWN_COMPLETE (R473). -/
def execTeardownComplete (c : CtxId) (s : State) : Host.Outcome State Fault Refusal := .next (s.teardownComplete c.val)

end Sys2Proof.Machine
end

