-- ==== Sys2Proof/Machine/Threads.lean ====
section
/-! DEFINITION. Running an instruction on a seat, thread exceptions, park, spawn and the shared shape of the vector
operations (07, 08). -/

namespace Sys2Proof.Machine

/-- THREAD_EXCEPTION: the thread stops before the instruction changes anything and its context faults (R201, R233). -/
def State.thrException (s : State) (k cause addr : Nat) : State :=
  let r := s.trec k
  s.ctxFault r.ctx
    { cause := cause, tower := keyTower k, unit := 0, remote := false, thread := keyIndex k, pc := (s.seat k).sc.pc,
      addr := addr, jobTag := 0, descIndex := 0, step := s.stepNo, tick := s.refclk, further := 0, threadsFreed := 0,
      groupsAborted := 0 }

/-- The thread occupies a seat, its record has reached it, it has not exited, its context is ACTIVE and its cupola is ready
(R22). -/
def State.canRun (s : State) (k : Nat) : Bool :=
  let r := s.trec k
  let x := s.seat k
  r.st == .running && x.loaded && !x.exited && s.ctxActive r.ctx && s.islandReady (cupolaIsland (keyTower k))

/-- Bytes an access touches. -/
def Acc.len (a : Acc) : Nat := (a.shift + a.bits + 7) / 8

/-- The access touches one of the byte ranges. -/
def Acc.hits (a : Acc) (l : List (Nat × Nat)) : Bool := l.any fun x => x.1 < a.addr + a.len && a.addr < x.1 + x.2

/-- A float atomic in flight, whose conditions the thread's flags take when it is performed (R223, R232). -/
def Acc.raises (a : Acc) : Bool := a.kind == .amoFadd || (a.kind == .vamoAdd && a.float)

/-- Every earlier instruction of thread `k` has put its conditions into the flags (R232). -/
def State.flagsSettled (s : State) (k : Nat) : Bool := !((s.accs k).any Acc.raises)

/-- An access of thread `k` in flight comes before one that reads the byte ranges `rs` and writes `ws`: it touches the same
bytes, or it is an acquire (R179, R194, R195). -/
def State.ownEarlier (s : State) (k : Nat) (rs ws : List (Nat × Nat)) : Bool :=
  (s.accs k).any fun a => a.acquire || a.hits ws || (a.kind != .load && a.hits rs)

/-- One instruction of thread `i` of tower `t` (R172, R202, R205): nothing happens unless the thread runs; a fetch
outside HBM and scratch and an illegal instruction raise their exceptions; an instruction whose operands are not
ready waits; otherwise `body` is its effect on the state, given the thread's key and seat. -/
def thrRun (t : Tower) (i : Nat) (f : Fields) (shape : Seat → Shape) (body : Nat → Seat → State → State)
    (s : State) : State :=
  let k := thrKey t.val i
  let x := s.seat k
  if !s.canRun k then s
  else if !fetchOk x.sc.pc then s.thrException k 3 x.sc.pc
  else if !(shape x).legal f then s.thrException k 1 0
  else if !operandsReady (s.accs k) (shape x) f then s
  else body k x s

/-- An instruction that changes its seat alone, then goes on to the next (R172). -/
def thrOp (t : Tower) (i : Nat) (f : Fields) (shape : Seat → Shape) (g : Seat → Seat) (s : State) : State :=
  thrRun t i f shape (fun k x s => s.setSeat k (g x).adv) s

/-- The context selected the given slot B unit: 0 conversion, 1 saturating integer (R192). -/
def State.slotB (s : State) (t i : Nat) : Nat := s.fld .vecCtxCfg t (s.trec (thrKey t i)).ctx vecCtxCfg_slotb

/-! ### Element-wise operations -/

/-- Destination element `i` is `op i` for each active element; the conditions are ORed into the flags. -/
def Seat.vecOp (x : Seat) (f : Fields) (w : Nat) (op : Nat → Nat × FFlags) : Seat :=
  (x.writeElems f w fun i => if x.active f i then some (op i).1 else none).orFlags
    (orAll x.sc.vl fun i => if x.active f i then (op i).2 else FFlags.none)

/-- As `vecOp` for operations without conditions. -/
def Seat.vecBits (x : Seat) (f : Fields) (w : Nat) (op : Nat → Nat) : Seat :=
  x.writeElems f w fun i => if x.active f i then some (op i) else none

/-- A floating-point operand element, exactly (R57, R58). -/
def Seat.fp (x : Seat) (ff : FloatFmt) (r i : Nat) : FVal := ff.decode (x.elem r x.w i)

/-- An integer operand element, by the signedness of the vtype. -/
def Seat.int (x : Seat) (r i : Nat) : Int :=
  let n := x.elem r x.w i
  if vtUnsigned x.sc.vtype then n else untwos x.w n

/-- The floating-point group's vtypes: FP32, FP16 and BF16 (R212). -/
def vtFp (x : Seat) : Bool := vtCode x.sc.vtype ≤ 2 && vtOk x.sc.vtype
/-- The integer groups' vtypes: int32, int16 and int8 (R215, R219). -/
def vtIntOp (x : Seat) : Bool :=
  (vtCode x.sc.vtype == 0x10 || vtCode x.sc.vtype == 0x11 || vtCode x.sc.vtype == 0x0D) && vtOk x.sc.vtype

/-- The layout of a floating-point vtype. -/
def vtLayout (x : Seat) : FloatFmt := (codeFloat (vtCode x.sc.vtype)).getD ffFp32

/-- Predicates 0 EQ, 1 NE, 2 LT, 3 LE, 4 GT, 5 GE of an order (R210, R213, R215). -/
def predOf (p : Nat) (o : Ordering) : Bool :=
  match p with
  | 0 => o == .eq | 1 => o != .eq | 2 => o == .lt | 3 => o != .gt | 4 => o == .gt | _ => o != .lt

/-! ### Park and spawn (R177, R178, R183) -/

/-- The vector and mask registers take free values: they are undefined after a may-park instruction (R177). -/
def State.freeVectors (s : State) (k : Nat) : State :=
  let x := s.seat k
  let s := s.setSeat k { x with epoch := s.freeCtr, v := [], m := [] }
  let s := s.setAccs k ((s.accs k).map fun a => match a.dst with
    | .vec _ _ _ => { a with stale := true }
    | _ => a)
  { s with freeCtr := s.freeCtr + 1 }

/-- The thread's earlier loads into scalar registers have completed (R178, step 1). -/
def scalarsBack (l : List Acc) : Bool := l.all fun a => match a.dst with
  | .scalar _ _ => false
  | _ => true

/-- Every store and atomic that thread `g.1` issued before its access number `g.2` has been performed (R184, R198). -/
def State.storesDone (s : State) (g : Nat × Nat) : Bool :=
  (s.accs g.1).all fun a => g.2 ≤ a.seq || a.kind == .load

/-- THREAD_PARK: the scalar state is captured in the record with the pc at the next instruction, vector loads are
abandoned, the seat is freed and the record is written with state `st` (R178). -/
def State.park (s : State) (k : Nat) (st : ThrState) (reason : Reason) (wakeDst : Nat) (g : ThrRec → ThrRec) : State :=
  let r := s.trec k
  let x := s.seat k
  let s := s.setRec k (g { r with
    sc := x.adv.sc, st := st, reason := reason, wakeDst := wakeDst, deadlineEn := false,
    waitArg := 0, waitVal := 0, deadline := 0, wakeValue := 0, parkTick := s.refclk.truncate 32, deadlineTick := 0,
    guard := none })
  let s := s.setAccs k ((s.accs k).filter fun a => match a.kind with
    | .load => false
    | _ => true)
  s.setSeat k default

/-- The indices among the `n` from `i` that are FREE, at most `count` of them, in ascending order. -/
def freeIndices (s : State) (t : Nat) (n i count : Nat) : List Nat :=
  match n with
  | 0 => []
  | j + 1 =>
    match count with
    | 0 => []
    | c + 1 =>
      if (s.trec (thrKey t i)).st == .free then i :: freeIndices s t j (i + 1) c
      else freeIndices s t j (i + 1) (c + 1)

/-- Threads of context `c` in tower `t` that are not FREE (VEC_THR_LIVE). -/
def State.liveThreads (s : State) (t c : Nat) : Nat :=
  (s.threadsWhere fun k r => keyTower k == t && r.ctx == c && r.st != .free).length

/-- The context's thread range: first index and size (R173). -/
def State.thrBase (s : State) (t c : Nat) : Nat := 64 * s.fld .vecThrRange t c vecThrRange_baseUnits
def State.thrCount (s : State) (t c : Nat) : Nat := 64 * s.fld .vecThrRange t c vecThrRange_countUnits

/-- A spawned thread's record (R183): ordinal in s0, argument in s1, the spawner's phase. -/
def spawnRec (c pc ordinal : Nat) (arg : DWord) (phaseId : Nat) (phaseEn : Bool) (spawner : Nat)
    (guard : Option (Nat × Nat)) : ThrRec :=
  { (default : ThrRec) with
    sc := { (default : Scalars) with
      s := tput (tput [] 0 (BitVec.ofNat 64 ordinal)) 1 arg, pc := pc, phaseId := phaseId, phaseEn := phaseEn },
    st := .ready, ctx := c, spawner := spawner, guard := guard }

/-- `count` threads are created in context `c` of tower `t` in the lowest FREE indices of its range, READY in
ascending index; more than the FREE indices spawns nothing, returns LENGTH_RANGE and sets spawn_refused (R183). -/
def State.spawnThreads (s : State) (t c count pc : Nat) (arg : DWord) (phaseId : Nat) (phaseEn : Bool)
    (spawner : Nat) (guard : Option (Nat × Nat)) : Status × State :=
  let live := s.liveThreads t c
  if count + live > s.thrCount t c then (.lengthRange, s.flag .vecErr t c vecErr_spawnRefused)
  else
    let idx := freeIndices s t (count + live) (s.thrBase t c) count
    let s := s.each idx.zipIdx fun s (i, ord) =>
      s.setRec (thrKey t i) (spawnRec c pc ord arg phaseId phaseEn spawner guard)
    (.ok, { s with thr := { s.thr with ready := s.thr.ready ++ idx.map (thrKey t) } })

end Sys2Proof.Machine
end

