-- ==== Sys2Proof/Machine/MemIsa.lean ====
section
/-! DEFINITION. Loads, stores, gathers, scatters and atomics of the vector cores, up to their issue (R222 to R225);
what an access in flight does when it is performed stands in Machine/Accesses.lean. -/

namespace Sys2Proof.Machine

/-! ### Lantern views (R51) -/

/-- The view of an access by context `c` to an address (R51). -/
def State.lanternView (s : State) (c a : Nat) (tag : Word) : LanternView :=
  if c == 15 then
    match s.pairOf a with
    | some (p, _, _) => s.lanternDecide p tag
    | none => .no
  else .no

/-! ### Addresses (R222, R225, R462) -/

/-- The kinds of access that the region table of R225 tells apart. -/
inductive AccessClass where
  | load | store | atomic
deriving DecidableEq, Repr

/-- The region table of R225 for the byte at `a`; `word` marks LDS and STS with sz 2. -/
def regionAllows (a : Nat) (k : AccessClass) (word : Bool) : Bool :=
  match regionOf a with
  | .hbm => true
  | .scratch _ => true
  | .queueMem _ => true
  | .ctxStore _ => k == .load
  | .acc _ => k == .load
  | .regSpace => k != .atomic && word && (regAt a).isSome
  | .reserved => false

/-- A store or atomic of context 15 to HBM or drum SRAM stays inside the region its thread sampled (R41, R462). -/
def Sampled.threadOk (l : Sampled) (c a n : Nat) (k : AccessClass) : Bool :=
  k == .load || regionOf a == .regSpace || l.regionOk c a n

/-- The exception an access of `n` bytes aligned to `al` raises, if any, in the order of R222 and R225; register space takes
aligned words alone (R28). -/
def Sampled.accessCause (l : Sampled) (c a n al : Nat) (k : AccessClass) (word : Bool) : Option Nat :=
  if a ≥ 2 ^ 48 then some 3
  else if a % al != 0 then some (if regionOf a == .regSpace then 3 else 2)
  else if !regionAllows a k word || (!word && !regionAllows (a + n - 1) k false) then some 3
  else if !l.threadOk c a n k then some 3
  else none

/-- One element of a memory instruction: its number, address, bit offset in the first byte and bits. -/
structure Elem where
  i : Nat
  addr : Nat
  shift : Nat
  bits : Nat
deriving DecidableEq, Repr

/-- Bytes an element touches. -/
def Elem.bytes (e : Elem) : Nat := (e.shift + e.bits + 7) / 8
/-- Alignment an element needs: its width where that is 16 or 32 bits (R222). -/
def Elem.align (e : Elem) : Nat := if e.bits == 16 || e.bits == 32 then e.bits / 8 else 1

/-- The first exception of a list of elements, with its address. -/
def Sampled.elemsCause (l : Sampled) (c : Nat) (k : AccessClass) (es : List Elem) : Option (Nat × Nat) :=
  es.findSome? fun e => (l.accessCause c e.addr e.bytes e.align k false).map fun cause => (cause, e.addr)

/-- Accesses join the thread's list in program order, numbered one after another (R194). -/
def State.issue (s : State) (k : Nat) (l : List Acc) : State :=
  let n := tget s.thr.nextAcc k
  let l := l.zipIdx.map fun (a, j) => { a with seq := n + j }
  let s := s.setAccs k (s.accs k ++ l)
  { s with thr := { s.thr with nextAcc := tput s.thr.nextAcc k (n + l.length) } }

/-- sa + off of a memory instruction (R222). -/
def memAddr (x : Seat) (f : Fields) : Nat := (x.s f.a.toNat + f.off).toNat

/-! ### Scalar loads, stores and atomics -/

/-- A scalar access: the checks of R222 and R225, then the access is in flight. -/
def scalarMem (t : Tower) (i : Nat) (f : Fields) (shape : Shape) (kind : AccKind) (cls : AccessClass) (tag : Word)
    (s : State) : State :=
  thrRun t i f (fun _ => shape) (fun k x s =>
    let a := memAddr x f
    let n := 2 ^ f.sz
    let r := s.trec k
    match x.sampled.accessCause r.ctx a n n cls (f.sz == 2 && cls != .atomic) with
    | some cause => s.thrException k cause a
    | none =>
      let acc : Acc :=
        { (default : Acc) with
          kind := kind, addr := a, bits := 8 * n, data := (x.s f.b.toNat).toNat % 2 ^ (8 * n),
          cmp := (x.s f.c.toNat).toNat % 2 ^ (8 * n), sgn := f.sgn,
          dst := if kind == .store then Dest.none else .scalar f.d.toNat (kind == .load && f.sgn),
          acquire := f.ord % 2 == 1, release := f.ord / 2 == 1, pc := x.sc.pc, tag := tag,
          lantern := if kind == .load then s.lanternView r.ctx a tag else .no }
      (s.issue k [acc]).setSeat k x.adv) s

/-- LDS: sd = the sz-wide value at the address, extended per sgn; ord 0 or 1 (R222, R223). `tag` is the step tag of a
lantern-slice access (R51). -/
def execLds (t : Tower) (i : Nat) (f : Fields) (tag : Word) (s : State) : Host.Outcome State Fault Refusal :=
  .next (scalarMem t i f { form := .mem, d := .s, a := .s, ok := f.ord ≤ 1 } .load .load tag s)

/-- STS: the low sz bits of sb are stored at the address; ord 0 or 2 (R222, R223). -/
def execSts (t : Tower) (i : Nat) (f : Fields) (s : State) : Host.Outcome State Fault Refusal :=
  .next (scalarMem t i f { form := .mem, a := .s, b := .s, ok := f.ord % 2 == 0 && !f.sgn } .store .store 0 s)

/-- The shape of an atomic on 32 or 64 bits (R223). -/
def shapeAmo (f : Fields) : Shape := { form := .mem, d := .s, a := .s, b := .s, ok := 2 ≤ f.sz && !f.sgn }

/-- AMOADD: sd = old; word = old + sb (R223). -/
def execAmoadd (t : Tower) (i : Nat) (f : Fields) (s : State) : Host.Outcome State Fault Refusal :=
  .next (scalarMem t i f (shapeAmo f) .amoAdd .atomic 0 s)
/-- AMOMIN: sd = old; word = lesser of old and sb, signed per sgn (R223). -/
def execAmomin (t : Tower) (i : Nat) (f : Fields) (s : State) : Host.Outcome State Fault Refusal :=
  .next (scalarMem t i f { shapeAmo f with ok := 2 ≤ f.sz } .amoMin .atomic 0 s)
/-- AMOMAX: sd = old; word = greater of old and sb, signed per sgn (R223). -/
def execAmomax (t : Tower) (i : Nat) (f : Fields) (s : State) : Host.Outcome State Fault Refusal :=
  .next (scalarMem t i f { shapeAmo f with ok := 2 ≤ f.sz } .amoMax .atomic 0 s)
/-- AMOSWAP: sd = old; word = sb (R223). -/
def execAmoswap (t : Tower) (i : Nat) (f : Fields) (s : State) : Host.Outcome State Fault Refusal :=
  .next (scalarMem t i f (shapeAmo f) .amoSwap .atomic 0 s)
/-- AMOCAS: sd = old; word = sb if old equals sc (R223). -/
def execAmocas (t : Tower) (i : Nat) (f : Fields) (s : State) : Host.Outcome State Fault Refusal :=
  .next (scalarMem t i f { shapeAmo f with c := .s } .amoCas .atomic 0 s)
/-- AMOAND: sd = old; word = old AND sb (R223). -/
def execAmoand (t : Tower) (i : Nat) (f : Fields) (s : State) : Host.Outcome State Fault Refusal :=
  .next (scalarMem t i f (shapeAmo f) .amoAnd .atomic 0 s)
/-- AMOOR: sd = old; word = old OR sb (R223). -/
def execAmoor (t : Tower) (i : Nat) (f : Fields) (s : State) : Host.Outcome State Fault Refusal :=
  .next (scalarMem t i f (shapeAmo f) .amoOr .atomic 0 s)
/-- AMOFADD: sd = old; word = old + sb as FP32; sz must be 2 (R223). -/
def execAmofadd (t : Tower) (i : Nat) (f : Fields) (s : State) : Host.Outcome State Fault Refusal :=
  .next (scalarMem t i f { shapeAmo f with ok := f.sz == 2 && !f.sgn } .amoFadd .atomic 0 s)

/-! ### Vector loads and stores -/

/-- The upper word of a vector memory instruction: ord, sz and sgn are 0 (R222). -/
def vecMemOk (f : Fields) : Bool := f.ord == 0 && f.sz == 0 && !f.sgn

/-- The vtype's elements are whole bytes (R223). -/
def vtWhole (x : Seat) : Bool := codeBits (vtCode x.sc.vtype) % 8 == 0

/-- The elements of a unit-stride access, packed by R62 from the address (R223). -/
def unitElems (x : Seat) (f : Fields) : List Elem :=
  let eb := codeBits (vtCode x.sc.vtype)
  ((List.range x.sc.vl).filter (x.active f)).map fun j =>
    { i := j, addr := memAddr x f + j * eb / 8, shift := j * eb % 8, bits := eb }

/-- The elements of a strided access, `stride` a signed number of bytes (R223). -/
def strideElems (x : Seat) (f : Fields) (stride : DWord) : List Elem :=
  ((List.range x.sc.vl).filter (x.active f)).map fun j =>
    { i := j, addr := (BitVec.ofNat 64 (memAddr x f) + BitVec.ofNat 64 j * stride).toNat, shift := 0, bits := x.w }

/-- The elements of an indexed access: unsigned 32-bit byte indices in the group at `g` (R209, R223). -/
def indexElems (x : Seat) (f : Fields) (g : Nat) : List Elem :=
  ((List.range x.sc.vl).filter (x.active f)).map fun j =>
    { i := j, addr := memAddr x f + x.elem g 32 j, shift := 0, bits := x.w }

/-- Registers in the index group (R209). -/
def idxGroup (x : Seat) : Nat := if x.w == 0 then 1 else 32 / x.w

/-- A vector load: each active element is one access in flight; under zeroing the others below vl become 0 (R208). -/
def vecLoad (t : Tower) (i : Nat) (f : Fields) (shape : Seat → Shape) (es : Seat → List Elem) (tag : Word)
    (s : State) : State :=
  thrRun t i f shape (fun k x s =>
    let r := s.trec k
    let l := es x
    if memAddr x f ≥ 2 ^ 48 && x.sc.vl != 0 then s.thrException k 3 (memAddr x f)
    else
      match x.sampled.elemsCause r.ctx .load l with
      | some (cause, a) => s.thrException k cause a
      | none =>
        let accs := l.map fun e =>
          { (default : Acc) with
            kind := .load, addr := e.addr, shift := e.shift, bits := e.bits, dst := .vec (f.d.toNat) e.i x.w,
            pc := x.sc.pc, tag := tag, lantern := s.lanternView r.ctx e.addr tag }
        let y := if f.z then x.writeElems f x.w fun j => if x.active f j then some (x.elem f.d.toNat x.w j) else none
          else x
        (s.issue k accs).setSeat k y.adv) s

/-- A vector store: each active element is one access in flight (R223, R224). -/
def vecStore (t : Tower) (i : Nat) (f : Fields) (shape : Seat → Shape) (es : Seat → List Elem) (kind : AccKind)
    (cls : AccessClass) (s : State) : State :=
  thrRun t i f shape (fun k x s =>
    let r := s.trec k
    let l := es x
    if memAddr x f ≥ 2 ^ 48 && x.sc.vl != 0 then s.thrException k 3 (memAddr x f)
    else
      match x.sampled.elemsCause r.ctx cls l with
      | some (cause, a) => s.thrException k cause a
      | none =>
        let accs := l.map fun e =>
          { (default : Acc) with
            kind := kind, addr := e.addr, shift := e.shift, bits := e.bits,
            data := x.elem f.b.toNat x.w e.i % 2 ^ e.bits, float := vtCode x.sc.vtype == 0,
            acquire := f.ord % 2 == 1, release := f.ord / 2 == 1, pc := x.sc.pc }
        (s.issue k accs).setSeat k x.adv) s

/-- VLD: element i of vd = element i at address + i × element bytes, packed for 6- and 4-bit types (R223). -/
def execVld (t : Tower) (i : Nat) (f : Fields) (tag : Word) (s : State) : Host.Outcome State Fault Refusal :=
  .next (vecLoad t i f (fun x =>
    { form := .mem, d := .v 1, a := .s, z := true, mu := true, ok := vtOk x.sc.vtype && vecMemOk f })
    (fun x => unitElems x f) tag s)

/-- VLDS: element i of vd = element at address + i × sb, sb signed bytes (R223). -/
def execVlds (t : Tower) (i : Nat) (f : Fields) (tag : Word) (s : State) : Host.Outcome State Fault Refusal :=
  .next (vecLoad t i f (fun x =>
    { form := .mem, d := .v 1, a := .s, b := .s, z := true, mu := true
      ok := vtOk x.sc.vtype && vtWhole x && vecMemOk f })
    (fun x => strideElems x f (x.s f.b.toNat)) tag s)

/-- VGATHER: element i of vd = element at address + index i, the indices in the group at b (R223, R224). -/
def execVgather (t : Tower) (i : Nat) (f : Fields) (tag : Word) (s : State) : Host.Outcome State Fault Refusal :=
  .next (vecLoad t i f (fun x =>
    { form := .mem, d := .v 1, a := .s, b := .v (idxGroup x), z := true, mu := true
      ok := vtOk x.sc.vtype && vtWhole x && vecMemOk f })
    (fun x => indexElems x f f.b.toNat) tag s)

/-- VST: element i of vb is stored at address + i × element bytes, packed for 6- and 4-bit types (R223). -/
def execVst (t : Tower) (i : Nat) (f : Fields) (s : State) : Host.Outcome State Fault Refusal :=
  .next (vecStore t i f (fun x =>
    { form := .mem, a := .s, b := .v 1, mu := true, ok := vtOk x.sc.vtype && vecMemOk f })
    (fun x => unitElems x f) .store .store s)

/-- VSTS: element i of vb is stored at address + i × sc (R223). -/
def execVsts (t : Tower) (i : Nat) (f : Fields) (s : State) : Host.Outcome State Fault Refusal :=
  .next (vecStore t i f (fun x =>
    { form := .mem, a := .s, b := .v 1, c := .s, mu := true, ok := vtOk x.sc.vtype && vtWhole x && vecMemOk f })
    (fun x => strideElems x f (x.s f.c.toNat)) .store .store s)

/-- VSCATTER: element i of vb is stored at address + index i, the indices in the group at c (R223, R224). -/
def execVscatter (t : Tower) (i : Nat) (f : Fields) (s : State) : Host.Outcome State Fault Refusal :=
  .next (vecStore t i f (fun x =>
    { form := .mem, a := .s, b := .v 1, c := .v (idxGroup x), mu := true
      ok := vtOk x.sc.vtype && vtWhole x && vecMemOk f })
    (fun x => indexElems x f f.c.toNat) .store .store s)

/-- VAMOADD: for each active i in ascending order, element at address + index i += element i of vb; int32 or FP32
(R223, R224). -/
def execVamoadd (t : Tower) (i : Nat) (f : Fields) (s : State) : Host.Outcome State Fault Refusal :=
  .next (vecStore t i f (fun x =>
    { form := .mem, a := .s, b := .v 1, c := .v (idxGroup x), mu := true
      ok := vtOk x.sc.vtype && (vtCode x.sc.vtype == 0x10 || vtCode x.sc.vtype == 0) && f.sz == 0 && !f.sgn })
    (fun x => indexElems x f f.c.toNat) .vamoAdd .atomic s)

end Sys2Proof.Machine
end

