-- ==== Sys2Proof/Machine/Irq.lean ====
section
/-! DEFINITION. The interrupt controller: configuration, claims, completions and host records (R437, R438, R499 to
R507). -/

namespace Sys2Proof.Machine

/-- Records the host event queue holds (R437). -/
def eventSlots : Nat := 1024

/-- The context a record carries: bits [3:0] of the argument for the sources whose argument carries a context, else 0
(R500, R506). -/
def srcContext (n : Nat) (arg : DWord) : Nat :=
  if (16 ≤ n && n < 112) || (192 ≤ n && n < 224) then arg.toNat % 16 else 0

/-- A field of a source's configuration. -/
def State.srcFld (s : State) (n : Nat) (f : Fld) : Nat := s.fld .irqSrcCfg 0 n f

/-- Source `n` can be delivered to control core `k` (R500). -/
def State.deliverable (s : State) (k n : Nat) : Bool :=
  srcListed n && (tget s.irq.srcs n).st == .pending && s.srcFld n irqSrcCfg_mask == 0 && s.srcFld n irqSrcCfg_target == k

/-- A record joins the host event queue under the next event_seq (R437). -/
def State.appendEvent (s : State) (n : Nat) (arg : DWord) : State :=
  let r : EvtRec := { seq := s.host.nextSeq, source := n, ctx := srcContext n arg, arg := arg, sentTick := none }
  { s with host := { s.host with events := s.host.events ++ [r], nextSeq := s.host.nextSeq + 1 } }

/-- A source becomes ACTIVE with its merged argument (R500). -/
def State.activateSrc (s : State) (n : Nat) : State :=
  { s with irq := { s.irq with srcs := tmod s.irq.srcs n fun x => { x with st := .active, act := x.arg, arg := 0 } } }

/-- IRQ_CLAIM: a read of core `k`'s claim register returns its lowest-numbered deliverable source, which becomes ACTIVE with
its argument latched; with none deliverable it returns 0 and nothing changes (R500). -/
def State.claim (s : State) (k : Nat) : Word × State :=
  match (List.range 1024).find? (s.deliverable k) with
  | none => (0, s)
  | some n =>
    let s := s.activateSrc n
    let arg := (tget s.irq.srcs n).act
    let s := (s.setReg .irqArgLo 0 k (arg.truncate 32)).setReg .irqArgHi 0 k (BitVec.ofNat 32 (arg.toNat / 2 ^ 32))
    (BitVec.ofNat 32 (n + 2 ^ 31), s)

/-- Source `n` awaits a completion. -/
def IrqSrc.live (x : IrqSrc) : Bool := x.st == .active || x.st == .activePending

/-- A completion written by control core `k` (R501). One for a source that is not ACTIVE, or not of that core, adds 1 to its
spurious counter (R502). A forwarded source that core has handled is forwarded with its argument (R503). -/
def State.coreComplete (s : State) (k n : Nat) : State :=
  let x := tget s.irq.srcs n
  if x.live && s.srcFld n irqSrcCfg_target == k then
    let s := s.complete n
    if s.srcFld n irqSrcCfg_forwarded == 1 then { s with irq := { s.irq with forwards := s.irq.forwards ++ [(n, x.act)] } }
    else s
  else s.count .irqSrcStat 0 n irqSrcStat_spurious 1

/-- HOST_EVENT_RECORD_APPEND: a PENDING source whose target is the host queue is delivered while its host mask is 0 and the
queue has room (R500, R438). -/
def State.hostDeliver (s : State) (n : Nat) : State :=
  let x := tget s.irq.srcs n
  if srcListed n && x.st == .pending && s.srcFld n irqSrcCfg_hostMask == 0 && s.srcFld n irqSrcCfg_target == 4
      && s.host.events.length < eventSlots then
    (s.activateSrc n).appendEvent n x.arg
  else s

/-- FORWARDED_RECORD_APPEND: Lumdom appends the record of a forwarded source it has handled, under the same mask and room
(R503). -/
def State.forwardDeliver (s : State) (n : Nat) : State :=
  match s.irq.forwards.find? fun f => f.1 == n with
  | none => s
  | some f =>
    if s.srcFld n irqSrcCfg_hostMask == 0 && s.host.events.length < eventSlots then
      ({ s with irq := { s.irq with forwards := s.irq.forwards.erase f } }).appendEvent n f.2
    else s

/-- A write to the configuration of source `n`: the masks take effect at once; the other fields are stored while the lock is
0, reserved targets and merges apart; a reserved source keeps its reset value (R499, R504, R506). -/
def State.writeSrcCfg (s : State) (n : Nat) (v : Word) : State :=
  if !srcListed n then s
  else
    let keep (s : State) (f : Fld) : State := s.setFld .irqSrcCfg 0 n f (fldOf v f)
    let s := keep (keep s irqSrcCfg_mask) irqSrcCfg_hostMask
    if s.bit .irqLock 0 0 irqLock_lock then s
    else
      let s := keep (keep s irqSrcCfg_sense) irqSrcCfg_forwarded
      let s := if fldOf v irqSrcCfg_target ≤ 4 then keep s irqSrcCfg_target else s
      if fldOf v irqSrcCfg_merge ≤ 2 then keep s irqSrcCfg_merge else s

/-- IRQ_SRC_CFG_WRITE: the write takes effect; a delivery that had begun before it may still complete, once (R504, R505). -/
def State.srcCfgWrite (s : State) (n : Nat) (v : Word) (begun : Bool) : State :=
  let t := s.srcFld n irqSrcCfg_target
  let begunOk := begun && (if t == 4 then s.srcFld n irqSrcCfg_hostMask == 0 else s.srcFld n irqSrcCfg_mask == 0)
  let s1 := s.writeSrcCfg n v
  if begunOk && srcListed n && (tget s.irq.srcs n).st == .pending then
    if t == 4 then
      if s1.host.events.length < eventSlots then (s1.activateSrc n).appendEvent n (tget s.irq.srcs n).arg else s1
    else if (List.range n).any (s.deliverable t) then s1
    else
      let arg := (tget s.irq.srcs n).arg
      let s2 := s1.activateSrc n
      (s2.setReg .irqArgLo 0 t (arg.truncate 32)).setReg .irqArgHi 0 t (BitVec.ofNat 32 (arg.toNat / 2 ^ 32))
  else s1

/-- What IRQ_SRC_STAT of source `n` reads: its state, whether a level condition is present, and the spurious count. -/
def State.srcStat (s : State) (n : Nat) : Word :=
  let x := tget s.irq.srcs n
  let st : Nat := match x.st with
    | .idle => 0 | .pending => 1 | .active => 2 | .activePending => 3
  BitVec.ofNat 32 (st + 4 * x.cond.isSome.toNat) ||| s.reg .irqSrcStat 0 n

/-! ### The commands -/

/-- IRQ_CLAIM: a read of IRQ_CLAIM of core `k`, whose value is what the read returns (R500). -/
def execIrqClaim (k : Fin 4) (s : State) : Host.Outcome State Fault Refusal :=
  .next (let r := s.claim k.val; { r.2 with readData := r.1 })
/-- IRQ_COMPLETE: a write of source `n` to IRQ_COMPLETE of core `k` (R501). -/
def execIrqComplete (k : Fin 4) (n : Fin 1024) (s : State) : Host.Outcome State Fault Refusal :=
  .next (s.coreComplete k.val n.val)
/-- HOST_EVENT_RECORD_APPEND (R500). -/
def execHostEventRecordAppend (n : Fin 1024) (s : State) : Host.Outcome State Fault Refusal := .next (s.hostDeliver n.val)
/-- FORWARDED_RECORD_APPEND (R503). -/
def execForwardedRecordAppend (n : Fin 1024) (s : State) : Host.Outcome State Fault Refusal :=
  .next (s.forwardDeliver n.val)
/-- IRQ_SRC_CFG_WRITE: `begun` says that a delivery of the source had begun when the write took effect (R504, R505). -/
def execIrqSrcCfgWrite (n : Fin 1024) (v : Word) (begun : Bool) (s : State) : Host.Outcome State Fault Refusal :=
  .next (s.srcCfgWrite n.val v begun)
/-- IRQ_LOCK_WRITE: a 1 sets lock until reset (R499). -/
def execIrqLockWrite (v : Word) (s : State) : Host.Outcome State Fault Refusal :=
  .next (if v.toNat % 2 == 1 then s.flag .irqLock 0 0 irqLock_lock else s)

end Sys2Proof.Machine
end

