-- ==== Sys2Proof/Machine/MatrixData.lean ====
section
/-! DEFINITION. Tile-job and loop descriptors, operand elements, chunk sums and output elements of the matrix engine
(R71 to R74, R90, R94 to R109, R125, R134 to R142). -/

namespace Sys2Proof.Machine

/-- Bits [hi:lo] of word `i` of a descriptor. -/
def dfld (d : List Nat) (i hi lo : Nat) : Nat := d.getD i 0 / 2 ^ lo % 2 ^ (hi - lo + 1)
/-- A 48-bit address in words `i` and `i + 1` (R91). -/
def daddr (d : List Nat) (i : Nat) : Nat := d.getD i 0 + d.getD (i + 1) 0 % 2 ^ 16 * 2 ^ 32
/-- The reserved bits [31:16] of an address field's upper word are 0 (R91). -/
def daddrOk (d : List Nat) (i : Nat) : Bool := d.getD (i + 1) 0 / 2 ^ 16 == 0

/-- Fields of a tile-job descriptor (R90). -/
def MtxJob.kind (j : MtxJob) : Nat := dfld j.desc 0 3 0
def MtxJob.fmtA (j : MtxJob) : Fmt := (Fmt.ofCode (dfld j.desc 0 7 4)).getD .e4m3
def MtxJob.fmtB (j : MtxJob) : Fmt := (Fmt.ofCode (dfld j.desc 0 11 8)).getD .e4m3
def MtxJob.fmtOut (j : MtxJob) : Fmt := (Fmt.ofCode (dfld j.desc 0 15 12)).getD .fp32
def MtxJob.route (j : MtxJob) : Nat := dfld j.desc 0 19 18
def MtxJob.accInit (j : MtxJob) : Bool := dfld j.desc 0 20 20 == 1
def MtxJob.skipEn (j : MtxJob) : Bool := dfld j.desc 0 21 21 == 1
def MtxJob.slotBase (j : MtxJob) : Nat := dfld j.desc 1 4 0
def MtxJob.srStream (j : MtxJob) : Nat := dfld j.desc 1 31 16
def MtxJob.sparse24 (j : MtxJob) : Bool := j.kind == 1 || j.kind == 3 || j.kind == 5
def MtxJob.hasOcc (j : MtxJob) : Bool := j.kind == 2 || j.kind == 3
def MtxJob.ragged (j : MtxJob) : Bool := j.kind == 4 || j.kind == 5
def MtxJob.intJob (j : MtxJob) : Bool := j.fmtA.isInt

/-- Rows and columns of a tile shape (R90, R123). -/
def shapeDims (shape : Nat) : Nat × Nat :=
  match shape with
  | 0 => (512, 512) | 1 => (256, 1024) | 2 => (1024, 256) | _ => (2048, 128)

def MtxJob.rows (j : MtxJob) : Nat := (shapeDims (dfld j.desc 0 17 16)).1
def MtxJob.cols (j : MtxJob) : Nat := (shapeDims (dfld j.desc 0 17 16)).2

/-- Dense K elements per chunk of a format's rate class: the class of the slower operand has the fewer (R82). -/
def classChunk (f : Fmt) : Nat :=
  match f with
  | .e3m2 => 1024 | .e2m3 => 1024 | .e2m1 => 1024 | .mxE3m2 => 1024 | .mxE2m3 => 1024 | .mxE2m1 => 1024
  | .e4m3 => 512 | .e5m2 => 512 | .mxE4m3 => 512 | .mxE5m2 => 512
  | .fp16 => 256 | .bf16 => 256 | .int8 => 256 | .int4 => 256 | .fp32 => 256

/-- K elements per chunk of two operand formats, doubled for a 2:4 kind (R82). -/
def chunkLenOf (a b : Fmt) (sparse : Bool) : Nat := (min (classChunk a) (classChunk b)) * (if sparse then 2 else 1)

def MtxJob.chunkLen (j : MtxJob) : Nat := chunkLenOf j.fmtA j.fmtB j.sparse24

/-- Chunks of a tile (R141). -/
def MtxJob.chunks (j : MtxJob) : Nat := (j.k + j.chunkLen - 1) / j.chunkLen

/-- Loop descriptor fields (R125). -/
def MtxJob.lda (j : MtxJob) : Nat := j.loop.getD 9 0
def MtxJob.ldb (j : MtxJob) : Nat := j.loop.getD 10 0
def MtxJob.ldo (j : MtxJob) : Nat := j.loop.getD 11 0
def MtxJob.aMantle (j : MtxJob) : Nat := dfld j.loop 0 11 10
def MtxJob.outMantle (j : MtxJob) : Nat := dfld j.loop 0 13 12

/-! ### Operand elements (R94, R101 to R108, R135, R136, R138) -/

/-- Element `i` of the stored row at `row`, scaled: a mantle row, an MX row with its scale bytes at `srow`, or a plain
row under exponent `e` (R63, R65, R135). -/
def State.operand (s : State) (fmt : Fmt) (mantle row srow : Nat) (e : Int) (i : Nat) : FVal :=
  if mantle != 0 then fmt.decode (s.mantleRead row mantle fmt i)
  else if fmt.isMx then mxDecode fmt (s.byte (srow + i / 32)).toNat (s.elemCode row fmt.bits i)
  else (fmt.decode (s.elemCode row fmt.bits i)).scale (-e)

/-- Input position and channel of element (m, k) in convolution mode, `none` where the hem unit supplies it (R136). -/
def convPos (l : List Nat) (m k : Nat) : Option (Nat × Nat) :=
  let outW := dfld l 20 15 0; let outH := dfld l 20 31 16; let outT := dfld l 21 15 0; let cIn := dfld l 21 31 16
  let inW : Int := dfld l 18 15 0; let inH : Int := dfld l 18 31 16; let inT : Int := dfld l 19 15 0
  let kx := dfld l 22 3 0; let ky := dfld l 22 7 4
  let sx := dfld l 22 15 12; let sy := dfld l 22 19 16; let st := dfld l 22 23 20
  let dilX := dfld l 22 27 24; let dilY := dfld l 22 31 28; let dilT := dfld l 23 3 0
  let padX := dfld l 23 11 4; let padY := dfld l 23 19 12; let padT := dfld l 23 27 20
  let xo := m % outW; let yo := m / outW % outH; let tO := m / outW / outH % outT; let b := m / outW / outH / outT
  let c := k % cIn; let dx := k / cIn % kx; let dy := k / cIn / kx % ky; let dt := k / cIn / kx / ky
  let xi : Int := xo * sx - padX + dx * dilX
  let yi : Int := yo * sy - padY + dy * dilY
  let ti : Int := tO * st - padT + dt * dilT
  if xi < 0 || xi ≥ inW || yi < 0 || yi ≥ inH || ti < 0 || ti ≥ inT then none
  else some ((((b : Int) * inT + ti) * inH + yi) * inW + xi |>.toNat, c)

/-- Scale bytes of one stored row of `n` elements (R566). -/
def scaleRow (n : Nat) : Nat := (n + 31) / 32

/-- Element (m, k) of A (R135, R136, R138). -/
def State.aElem (s : State) (j : MtxJob) (m k : Nat) : FVal :=
  let base := daddr j.desc 6
  let sbase := daddr j.desc 12
  if m ≥ j.m || k ≥ j.k then .zero
  else if j.conv then
    match convPos j.loop m k with
    | none => .zero
    | some (pos, c) =>
      let cs := dfld j.loop 24 15 0
      if j.aMantle != 0 then j.fmtA.decode (s.mantleRead base j.aMantle j.fmtA (pos * cs + c))
      else if j.fmtA.isMx then
        mxDecode j.fmtA (s.byte (sbase + pos * scaleRow cs + c / 32)).toNat (s.elemCode base j.fmtA.bits (pos * cs + c))
      else (j.fmtA.decode (s.elemCode base j.fmtA.bits (pos * cs + c))).scale (-j.ea)
  else s.operand j.fmtA j.aMantle (base + m * j.lda) (sbase + m * scaleRow (j.loop.getD 8 0)) j.ea k

/-- B's base, scale base and metadata base of a ragged group (R103, R115). -/
def MtxJob.bBase (j : MtxJob) (g : Nat) : Nat := daddr j.desc 8 + (if j.ragged then g * j.desc.getD 27 0 * 256 else 0)
def MtxJob.bScale (j : MtxJob) (g : Nat) : Nat := daddr j.desc 14 + (if j.ragged then g * j.desc.getD 28 0 * 16 else 0)
def MtxJob.metaBase (j : MtxJob) (g : Nat) : Nat := daddr j.desc 18 + (if j.ragged then g * j.desc.getD 29 0 * 256 else 0)

/-- Stored elements behind a row of B (R566). -/
def MtxJob.bStored (j : MtxJob) : Nat := let kc := j.loop.getD 8 0; if j.sparse24 then (kc + 1) / 2 else kc

/-- The occupancy bit of block (nb, kb) of B (R106). -/
def State.occBit (s : State) (j : MtxJob) (nb kb : Nat) : Bool :=
  s.word (daddr j.desc 20 + 4 * (nb * ((j.k + 1023) / 1024) + kb / 32)) / 2 ^ (kb % 32) % 2 == 1

/-- The metadata entry of group `g` of column `n`: the first and second kept position (R102, R103). -/
def State.metaEntry (s : State) (j : MtxJob) (grp n g : Nat) : Nat × Nat :=
  let w := s.word (j.metaBase grp + 4 * (n * ((j.k + 31) / 32) + g / 8)) / 2 ^ (4 * (g % 8))
  (w % 4, w / 4 % 4)

/-- Element (n, k) of B in group `grp`: a dead block and an invalid metadata entry give zero (R105, R108, R138), and so does a
position that a 2:4 group does not keep (R101). Only a dead block's products are zero whatever A holds (R108): the other zeros are
multiplied as any operand, so that an infinite or NaN element of A gives NaN under R74 (DEDUCED, log entry 20). -/
def State.bElem (s : State) (j : MtxJob) (grp n k : Nat) : FVal :=
  let e : Int := if j.intJob then 0 else j.eb.getD grp 0
  let row := j.bBase grp + n * j.ldb
  let srow := j.bScale grp + n * scaleRow j.bStored
  if n ≥ j.n || k ≥ j.k then .zero
  else if j.hasOcc && !s.occBit j (n / 32) (k / 32) then .zero
  else if j.sparse24 then
    let (p, q) := s.metaEntry j grp n (k / 4)
    if p ≥ q then .zero
    else if k % 4 == p then s.operand j.fmtB 0 row srow e (2 * (k / 4))
    else if k % 4 == q then s.operand j.fmtB 0 row srow e (2 * (k / 4) + 1)
    else .zero
  else s.operand j.fmtB 0 row srow e k

/-- A metadata entry of column `n` in the K positions of chunk `c` is invalid, dead blocks apart, whose entries the device does
not read (R105, R108). -/
def State.metaBad (s : State) (j : MtxJob) (grp n c : Nat) : Bool :=
  j.sparse24 && (List.range (j.chunkLen / 4)).any fun g =>
    let gg := c * (j.chunkLen / 4) + g
    4 * gg < j.k && !(j.hasOcc && !s.occBit j (n / 32) (gg / 8)) && (let (p, q) := s.metaEntry j grp n gg; p ≥ q)

/-! ### Attention operands (R237, R242, R260) -/

/-- Fields of an attention descriptor (R243). -/
def Att.pass (a : Att) : Nat := dfld a.words 0 1 0
def Att.causal (a : Att) : Bool := dfld a.words 0 3 3 == 1
def Att.biasEn (a : Att) : Bool := dfld a.words 0 4 4 == 1
def Att.fmtP (a : Att) : Fmt := (Fmt.ofCode (dfld a.words 0 15 12)).getD .bf16
def Att.fmtO (a : Att) : Fmt := (Fmt.ofCode (dfld a.words 0 19 16)).getD .fp32
def Att.nGlobalQ (a : Att) : Nat := dfld a.words 1 10 0
def Att.nGlobalK (a : Att) : Nat := dfld a.words 1 26 16
/-- FWD (R235). -/
def Att.fwd (a : Att) : Bool := a.pass == 0
/-- The half of a paged token row the score product contracts with: values in GRAD, keys otherwise (R237, R258). -/
def Att.scoreHalf (a : Att) : Nat := if a.pass == 2 then 1 else 0

/-- Bytes of one P tile of the stage, and the address of element (r, j) of the tile of visit parity `par` (R242; log entry
35: the tile is stored row by row). -/
def MtxJob.stageTile (j : MtxJob) (a : Att) : Nat := j.rows * j.cols * (a.fmtP.bits / 8)
def MtxJob.stageAddr (j : MtxJob) (a : Att) (par r col : Nat) : Nat :=
  daddr a.words 20 + par * j.stageTile a + (r * j.cols + col) * (a.fmtP.bits / 8)

/-- Element `d` of the key row (`half` 0) or value row (`half` 1) of token `i` in a page: the element times its FP16 block
scale, exactly (R258, R260). -/
def State.kvElem (s : State) (fmt : Fmt) (page scale half i d : Nat) : FVal :=
  let e := fmt.decode (s.elemCode (page + 256 * i + 128 * half) fmt.bits d)
  e.mul (ffFp16.decode (s.num (scale + 16 * i + 8 * half + 2 * (d / 64)) 2))

/-- Element (key, d) of the keys or values of a paged job. -/
def State.pagedElem (s : State) (j : MtxJob) (a : Att) (half key d : Nat) : FVal :=
  let (page, scale) := a.pages.getD (key / 256) (0, 0)
  s.kvElem j.fmtB page scale half (key % 256) d

/-- The value tile's operand A: P of the stage, under tensor exponent 8 for E4M3 (R242). -/
def State.pElem (s : State) (j : MtxJob) (a : Att) (x : Tile) (m key : Nat) : FVal :=
  let par := x.visit % 2
  let v := a.fmtP.decode (s.num (j.stageAddr a par (m - x.row0) (key % j.cols)) (a.fmtP.bits / 8))
  if a.fmtP == .e4m3 then v.scale (-8) else v

/-- Element (key, d) of dense V: it shares the format, the row stride and the scales of K (R237). -/
def State.vElem (s : State) (j : MtxJob) (a : Att) (key d : Nat) : FVal :=
  s.operand j.fmtB 0 (daddr a.words 12 + key * j.ldb) (daddr j.desc 14 + key * scaleRow (j.loop.getD 8 0))
    (j.eb.getD 0 0) d

/-! ### A tile job's chunks -/

/-- The contracted length of a tile job: K, or in an attention job the head dimension for a score product and the keys of
the key tile for a value product (R236). -/
def MtxJob.tileK (j : MtxJob) (x : Tile) : Nat :=
  match x.role with
  | .matrix => j.k
  | .score _ => j.n
  | .value kt => min j.cols (j.k - kt * j.cols)

/-- The chunk length of a tile job (R82, R242). -/
def MtxJob.tileLen (j : MtxJob) (x : Tile) : Nat :=
  match x.role, j.att with
  | .value _, some a => chunkLenOf a.fmtP j.fmtB false
  | _, _ => j.chunkLen

/-- Chunks of a tile job (R141, R236). -/
def MtxJob.tileChunks (j : MtxJob) (x : Tile) : Nat := (j.tileK x + j.tileLen x - 1) / j.tileLen x

/-- Operand A of a tile job at row `m` and contracted position `k`. -/
def State.opA (s : State) (j : MtxJob) (x : Tile) (m k : Nat) : FVal :=
  match x.role, j.att with
  | .score _, _ => s.aElem { j with k := j.n } m k
  | .value kt, some a => s.pElem j a x m (kt * j.cols + k)
  | _, _ => s.aElem { j with ea := if j.intJob then 0 else j.ea } m k

/-- Operand B of a tile job at column `n` and contracted position `k`. -/
def State.opB (s : State) (j : MtxJob) (x : Tile) (n k : Nat) : FVal :=
  match x.role, j.att with
  | .score _, some a => if a.paged then s.pagedElem j a a.scoreHalf n k else s.bElem { j with n := j.k, k := j.n } 0 n k
  | .value kt, some a =>
    if a.paged then s.pagedElem j a 1 (kt * j.cols + k) n else s.vElem j a (kt * j.cols + k) n
  | _, _ => s.bElem j x.group n k

/-- The contracted positions of chunk `c` of a tile job that are in bounds. -/
def MtxJob.chunkKs (j : MtxJob) (x : Tile) (c : Nat) : List Nat :=
  let n := j.tileLen x
  (List.range n).filterMap fun i => if c * n + i < j.tileK x then some (c * n + i) else none

/-- Element (n, k) of B lies in a dead block (R108). -/
def State.deadAt (s : State) (j : MtxJob) (x : Tile) (n k : Nat) : Bool :=
  match x.role with
  | .matrix => j.hasOcc && n < j.n && k < j.k && !s.occBit j (n / 32) (k / 32)
  | _ => false

/-- The operand chunks of a tile group as they arrive (R132): the rows and columns its tiles have within the bounds. -/
def State.stageOf (s : State) (j : MtxJob) (tiles : List Tile) (tg c : Nat) : Staged :=
  let ms := (tiles.flatMap fun x => (List.range (x.row1 - x.row0)).map (x.row0 + ·)).eraseDups
  let ns := (tiles.flatMap fun x => (List.range (x.col1 - x.col0)).map (x.col0 + ·)).eraseDups
  let x := tiles.headD default
  let ks := j.chunkKs x c
  { tgroup := tg, chunk := c
    a := ms.map fun m => (m, ks.map (s.opA j x m))
    b := ns.map fun n => (n, ks.map fun k => if s.deadAt j x n k then none else some (s.opB j x n k))
    metaErr := x.role == .matrix && ns.any fun n => s.metaBad j x.group n c }

/-! ### What a chunk fetch touches (R121, R132, R135, R138, R319) -/

/-- The bytes of a packed element: address and length. -/
def elemSpan (row bits i : Nat) : Nat × Nat := (row + bits * i / 8, (bits * i % 8 + bits + 7) / 8)

/-- The bytes behind element `k` of a row, its MX scale byte included. -/
def rowSpans (fmt : Fmt) (mantle row srow k : Nat) : List (Nat × Nat) :=
  if mantle != 0 then [(row + k / 128 * mantleBytes mantle, mantleBytes mantle)]
  else if fmt.isMx then [elemSpan row fmt.bits k, (srow + k / 32, 1)]
  else [elemSpan row fmt.bits k]

/-- The bytes read for element (m, k) of A. -/
def MtxJob.aSpans (j : MtxJob) (m k : Nat) : List (Nat × Nat) :=
  let base := daddr j.desc 6
  let sbase := daddr j.desc 12
  if m ≥ j.m || k ≥ j.k then []
  else if j.conv then
    match convPos j.loop m k with
    | none => []
    | some (pos, c) =>
      let cs := dfld j.loop 24 15 0
      if j.aMantle != 0 then rowSpans j.fmtA j.aMantle base 0 (pos * cs + c)
      else if j.fmtA.isMx then [elemSpan base j.fmtA.bits (pos * cs + c), (sbase + pos * scaleRow cs + c / 32, 1)]
      else [elemSpan base j.fmtA.bits (pos * cs + c)]
  else rowSpans j.fmtA j.aMantle (base + m * j.lda) (sbase + m * scaleRow (j.loop.getD 8 0)) k

/-- The bytes read for element (n, k) of B: occupancy bit, metadata entry and stored element (R103, R106, R108). -/
def State.bSpans (s : State) (j : MtxJob) (grp n k : Nat) : List (Nat × Nat) :=
  let row := j.bBase grp + n * j.ldb
  let srow := j.bScale grp + n * scaleRow j.bStored
  if n ≥ j.n || k ≥ j.k then []
  else
    let occ := if j.hasOcc then [(daddr j.desc 20 + 4 * (n / 32 * ((j.k + 1023) / 1024) + k / 1024), 4)] else []
    if j.hasOcc && !s.occBit j (n / 32) (k / 32) then occ
    else if j.sparse24 then
      let w := (j.metaBase grp + 4 * (n * ((j.k + 31) / 32) + k / 32), 4)
      let (p, q) := s.metaEntry j grp n (k / 4)
      let i := 2 * (k / 4) + (if k % 4 == p then 0 else 1)
      if p < q && (k % 4 == p || k % 4 == q) then occ ++ w :: rowSpans j.fmtB 0 row srow i else occ ++ [w]
    else occ ++ rowSpans j.fmtB 0 row srow k

/-- The bytes of element (key, d) of paged keys or values. -/
def MtxJob.kvSpans (j : MtxJob) (a : Att) (half key d : Nat) : List (Nat × Nat) :=
  let (page, scale) := a.pages.getD (key / 256) (0, 0)
  let i := key % 256
  [elemSpan (page + 256 * i + 128 * half) j.fmtB.bits d, (scale + 16 * i + 8 * half + 2 * (d / 64), 2)]

/-- The bytes read for operand A of a tile job. -/
def MtxJob.opASpans (j : MtxJob) (x : Tile) (m k : Nat) : List (Nat × Nat) :=
  match x.role, j.att with
  | .score _, _ => ({ j with k := j.n }).aSpans m k
  | .value kt, some a => [(j.stageAddr a (x.visit % 2) (m - x.row0) ((kt * j.cols + k) % j.cols), a.fmtP.bits / 8)]
  | _, _ => j.aSpans m k

/-- The bytes read for operand B of a tile job. -/
def State.opBSpans (s : State) (j : MtxJob) (x : Tile) (n k : Nat) : List (Nat × Nat) :=
  match x.role, j.att with
  | .score _, some a => if a.paged then j.kvSpans a a.scoreHalf n k else s.bSpans { j with n := j.k, k := j.n } 0 n k
  | .value kt, some a =>
    let key := kt * j.cols + k
    if a.paged then j.kvSpans a 1 key n
    else rowSpans j.fmtB 0 (daddr a.words 12 + key * j.ldb) (daddr j.desc 14 + key * scaleRow (j.loop.getD 8 0)) n
  | _, _ => s.bSpans j x.group n k

/-- Every byte range of operand A that the fetch of chunk `c` for a tile group reads. -/
def MtxJob.stageA (j : MtxJob) (tiles : List Tile) (c : Nat) : List (Nat × Nat) :=
  let ms := (tiles.flatMap fun x => (List.range (x.row1 - x.row0)).map (x.row0 + ·)).eraseDups
  let x := tiles.headD default
  ms.flatMap fun m => (j.chunkKs x c).flatMap (j.opASpans x m)

/-- Every byte range of operand B that the fetch of chunk `c` for a tile group reads. -/
def State.stageB (s : State) (j : MtxJob) (tiles : List Tile) (c : Nat) : List (Nat × Nat) :=
  let ns := (tiles.flatMap fun x => (List.range (x.col1 - x.col0)).map (x.col0 + ·)).eraseDups
  let x := tiles.headD default
  ns.flatMap fun n => (j.chunkKs x c).flatMap (s.opBSpans j x n)

/-- Every byte range the fetch of chunk `c` for a tile group reads. -/
def State.stageSpans (s : State) (j : MtxJob) (tiles : List Tile) (c : Nat) : List (Nat × Nat) :=
  j.stageA tiles c ++ s.stageB j tiles c

/-- The fetch of operand A goes through the mantle compressor (R135, R334). -/
def MtxJob.mantleA (j : MtxJob) (x : Tile) : Bool :=
  j.aMantle != 0 && (match x.role with
    | .value _ => false
    | _ => true)

/-- The unit that fetches operand B: the sequencer, or the KV reader of the attention engine for a paged operand and for the V of
a value product (R121, R237, R258). -/
def MtxJob.unitB (j : MtxJob) (x : Tile) : Nat :=
  match x.role, j.att with
  | .value _, some _ => 4
  | .score _, some a => if a.paged then 4 else 2
  | _, _ => 2

/-! ### Chunk sums and folds (R71 to R75) -/

/-- The bits of m × 2^e from position `lo` up, toward zero, as a multiple of 2^lo. -/
def truncAt (m : Nat) (e lo : Int) : Nat := if lo ≤ e then m * 2 ^ (e - lo).toNat else m / 2 ^ (lo - e).toNat

/-- A product of the chunk: zero in a dead block, whatever A holds (R108). -/
def prodOf (a : FVal) (b : Option FVal) : FVal :=
  match b with
  | some v => a.mul v
  | none => .zero

/-- The sum of one K-chunk: products exact, aligned to the leading bit of the largest, cut 48 positions below it,
and added exactly; special values by IEEE 754 (R71, R74). -/
def chunkSum (as : List FVal) (bs : List (Option FVal)) : FVal :=
  let ps := List.zipWith prodOf as bs
  if ps.any FVal.nonfinite then ps.foldl FVal.add .zero
  else
    let top := ps.foldl (fun (t : Option Int) p =>
      match p with
      | .fin _ m e => if m == 0 then t else some (max (t.getD (floorLog2 m e)) (floorLog2 m e))
      | _ => t) none
    match top with
    | none => .zero
    | some l =>
      let lo := l - 48
      let sum := ps.foldl (fun (a : Int) p =>
        match p with
        | .fin neg m e => let v : Int := truncAt m e lo; if neg then a - v else a + v
        | _ => a) 0
      .fin (sum < 0) sum.natAbs lo

/-- The new FP32 accumulator code: old value plus chunk sum, rounded stochastically with `r` (R72). -/
def foldFp (old : Nat) (sum : FVal) (r : Nat) : Nat :=
  (ffFp32.encode (.stochastic r) ((ffFp32.decode old).add sum)).code

/-- The new int32 accumulator code and whether it saturated (R73). -/
def foldInt (old : Nat) (sum : FVal) : Nat × Bool :=
  match sum with
  | .fin neg m e =>
    let v : Int := (m * 2 ^ e.toNat / 2 ^ (-e).toNat : Nat)
    let t := untwos 32 old + (if neg then -v else v)
    let c := if t > 2 ^ 31 - 1 then 2 ^ 31 - 1 else if t < -(2 ^ 31) then -(2 ^ 31) else t
    (twos 32 c, c != t)
  | _ => (old, false)

/-- Address of physical slot `p` of tower `t` (R570). -/
def slotAddr (t p : Nat) : Nat := accBase t + p * 0x100000

/-- Address of an output element of a tile in its slot (R96; log entry 12). -/
def MtxJob.accAddr (j : MtxJob) (p : Nat) (x : Tile) (m n : Nat) : Nat :=
  slotAddr j.t p + ((m - x.row0) * j.cols + (n - x.col0)) * 4

/-- The rows and columns of a tile within the bounds (R139, R140). -/
def Tile.rowsIn (x : Tile) : List Nat := (List.range (x.row1 - x.row0)).map (x.row0 + ·)
def Tile.colsIn (x : Tile) : List Nat := (List.range (x.col1 - x.col0)).map (x.col0 + ·)

/-- The chunk counter word of R77: the chunk index, 0 in a score product, the key tile index in a value product (R240). -/
def Tile.counter (x : Tile) (c : Nat) : Nat :=
  match x.role with
  | .matrix => c | .score _ => 0 | .value kt => kt

/-- One element of a fold: the accumulator is replaced and the data conditions noted. -/
def State.foldElem (s : State) (j : MtxJob) (p : Nat) (x : Tile) (c m n : Nat) (sum : FVal) :
    State × Bool × Bool :=
  let a := j.accAddr p x m n
  let old := s.word a
  if j.intJob then
    let (v, sat) := foldInt old sum
    (s.putBytes a (bytesOf 4 v), sat, false)
  else
    let r := srFold (s.reg .ctlSrSeedLo 0 0) (s.reg .ctlSrSeedHi 0 0) j.srStep n m (x.counter c) j.srStream
    let v := foldFp old sum r
    (s.putBytes a (bytesOf 4 v), false, (ffFp32.decode v).nonfinite)

/-- A chunk folded into every in-bounds element of a tile; the flags are saturated and nonfinite. -/
def State.foldTile (s : State) (j : MtxJob) (p : Nat) (x : Tile) (st : Staged) : State × Bool × Bool :=
  (x.rowsIn.flatMap fun m => x.colsIn.map fun n => (m, n)).foldl (fun (acc : State × Bool × Bool) mn =>
    let as := sparseGet st.a [] mn.1
    let bs := sparseGet st.b [] mn.2
    let r := acc.1.foldElem j p x st.chunk mn.1 mn.2 (chunkSum as bs)
    (r.1, acc.2.1 || r.2.1, acc.2.2 || r.2.2)) (s, false, false)

/-- The slabs of chunk `c` that begin below K: 32 K positions each (R107, R141). -/
def MtxJob.slabs (j : MtxJob) (x : Tile) (c : Nat) : List Nat :=
  let n := j.tileLen x / 32
  (List.range n).filterMap fun i =>
    let kb := c * n + i
    if kb * 32 < j.tileK x then some kb else none

/-- A slab is live for a tile: some block that meets its in-bounds columns is live (R107). -/
def State.slabLive (s : State) (j : MtxJob) (x : Tile) (kb : Nat) : Bool :=
  !j.hasOcc || (List.range ((x.col1 + 31) / 32 - x.col0 / 32)).any fun i => s.occBit j (x.col0 / 32 + i) kb

/-! ### Output (R94, R95, R100, R140, R142) -/

/-- Some of the codes is a NaN or an infinity of the format. -/
def codesNonfinite (f : Fmt) (l : List Nat) : Bool := l.any fun c => (f.decode c).nonfinite

/-- The value of an accumulator element: FP32, or an int32 under the operands' exponents (R95). -/
def State.accValue (s : State) (j : MtxJob) (p : Nat) (x : Tile) (m n : Nat) : FVal :=
  let w := s.word (j.accAddr p x m n)
  if j.intJob then (FVal.ofInt (untwos 32 w)).scale (-(j.ea + j.eb.getD x.group 0)) else ffFp32.decode w

/-- Address of output row `m` (R134). -/
def MtxJob.outRow (j : MtxJob) (m : Nat) : Nat := daddr j.desc 10 + m * j.ldo

/-- Bytes of an output row between two columns that are multiples of the format block (R94, R135). -/
def MtxJob.outSpan (j : MtxJob) (col0 col1 : Nat) : Nat × Nat :=
  if j.outMantle != 0 then
    (col0 / 128 * mantleBytes j.outMantle, ((col1 + 127) / 128 - col0 / 128) * mantleBytes j.outMantle)
  else
    let b := j.fmtOut.bits / 8
    let c1 := if j.fmtOut.isMx then (col1 + 31) / 32 * 32 else col1
    (col0 * b, (c1 - col0) * b)

/-- Values extended with zeros to a multiple of `n` (R142). -/
def padTo (n : Nat) (vs : List FVal) : List FVal := vs ++ List.replicate ((n - vs.length % n) % n) .zero

/-- `vs` cut into runs of `n`. -/
def runsOf (n : Nat) (vs : List FVal) : List (List FVal) :=
  (List.range ((vs.length + n - 1) / n)).map fun i => (vs.drop (n * i)).take n

/-- One output row of a tile stored: the values, converted under R95; answers whether a conversion saturated, and whether one
overflowed to an infinity or wrote a NaN (R60). -/
def State.storeRow (s : State) (j : MtxJob) (m col0 : Nat) (vs : List FVal) : State × Bool × Bool :=
  let row := j.outRow m
  let f := j.fmtOut
  if j.outMantle != 0 then
    let bb := mantleBytes j.outMantle
    let rs := (runsOf 128 (padTo 128 vs)).map fun r => r.map fun v => (f.encode v).code
    (rs.zipIdx.foldl (fun s (r, i) => s.mantleWrite j.t (row + (col0 / 128 + i) * bb) j.outMantle f r) s, false,
     rs.any (codesNonfinite f))
  else if f.isMx then
    (runsOf 32 (padTo 32 vs)).zipIdx.foldl (fun (acc : State × Bool × Bool) (r, i) =>
      let (sc, cs) := mxEncode f r
      let s := acc.1.store (row + (col0 + 32 * i)) (packCodes f.bits (cs.map (·.code)))
      let s := s.storeNum (daddr j.desc 16 + m * scaleRow (j.loop.getD 7 0) + col0 / 32 + i) 1 sc
      (s, acc.2.1 || cs.any (·.sat), acc.2.2 || codesNonfinite f (cs.map (·.code)))) (s, false, false)
  else
    let cs := vs.map fun v => f.encode (if f.delayed then v.scale j.eo else v)
    (s.store (row + col0 * f.bits / 8) (packCodes f.bits (cs.map (·.code))), cs.any (·.sat), codesNonfinite f (cs.map (·.code)))

/-- What a list of written values offers: its largest magnitude, which is that of a NaN or an infinity where there is one (R67).
-/
def maxOffer (vs : List FVal) : List FVal :=
  match vs.find? FVal.nonfinite with
  | some v => [v]
  | none => if vs.isEmpty then [] else [FVal.fin false (amaxOf vs).1 (amaxOf vs).2]

/-- Values written to a delayed-scaled output: the maximum offered and the saturation noted in its record (R67, R70). -/
def State.offerAll (s : State) (a : Nat) (step : Word) (vs : List FVal) (sat : Bool) : State :=
  let s := s.each (maxOffer vs) fun s v => s.offerMax a step v
  if sat then s.setSaturated a else s

/-- A tile stored through its output addresses, from physical slot `p` (R95, R100); answers saturation, and whether a NaN or an
infinity stood in the slot or reached the output (R118). An omitted tile offers no maximum (R112). -/
def State.storeTile (s : State) (j : MtxJob) (p : Nat) (x : Tile) : State × Bool × Bool :=
  let vals := x.rowsIn.map fun m => (m, x.colsIn.map (s.accValue j p x m))
  let (s, sat, nonfin) := vals.foldl (fun (acc : State × Bool × Bool) (m, vs) =>
    let r := acc.1.storeRow j m x.col0 vs
    (r.1, acc.2.1 || r.2.1, acc.2.2 || r.2.2)) (s, false, false)
  let all := vals.flatMap (·.2)
  let s := if j.fmtOut.delayed then s.offerAll (daddr j.desc 16) j.step (if x.omitted then [] else all) sat else s
  (s, sat, nonfin || all.any FVal.nonfinite)

/-- The byte ranges of a tile's output rows. -/
def MtxJob.rowSpans (j : MtxJob) (x : Tile) : List (Nat × Nat) :=
  let (o, n) := j.outSpan x.col0 x.col1
  x.rowsIn.map fun m => (j.outRow m + o, n)

/-- The byte ranges a tile's stores touch beside its rows: MX scale bytes, and the output's scale record (R66, R566). -/
def MtxJob.sideSpans (j : MtxJob) (x : Tile) : List (Nat × Nat) :=
  if j.fmtOut.isMx then
    x.rowsIn.map fun m =>
      (daddr j.desc 16 + m * scaleRow (j.loop.getD 7 0) + x.col0 / 32, (x.col1 + 31) / 32 - x.col0 / 32)
  else if j.fmtOut.delayed then offerSpans (daddr j.desc 16) j.step
  else []

/-- The byte ranges a tile's stores touch. -/
def MtxJob.tileSpans (j : MtxJob) (x : Tile) : List (Nat × Nat) := j.rowSpans x ++ j.sideSpans x

/-- The first byte range of a tile's stores that the job's context may not store to (R25, R26, R121, R328, R347, R462). -/
def State.tileWriteBad (s : State) (j : MtxJob) (x : Tile) : Option (Nat × Nat) :=
  (j.rowSpans x ++ j.sideSpans x).find? fun y =>
    !s.pathWriteOk j.sampled j.t j.c y.1 y.2 || (j.outMantle != 0 && !mantleSpanOk y.1 y.2)

/-- Every byte the tile's stores touch may be stored to by the job's context. -/
def State.tileWriteOk (s : State) (j : MtxJob) (x : Tile) : Bool := (s.tileWriteBad j x).isNone

end Sys2Proof.Machine
end

