-- ==== Sys2Proof/Machine/MatrixIssue.lean ====
section
/-! DEFINITION. Issue of a tile-job descriptor: fetch, checks, bounds, groups, tiles (R83, R90 to R93, R109 to R117, R125 to
R147, R357). -/

namespace Sys2Proof.Machine

/-- The physical slot of slot `i` of the context's allocation (R570). -/
def State.physSlot (s : State) (c t i : Nat) : Nat := (s.slotsOf c t).getD i 0

def State.job (s : State) (n : Nat) : MtxJob := tget s.mtx.jobs n
def State.setJob (s : State) (n : Nat) (j : MtxJob) : State := { s with mtx := { s.mtx with jobs := tput s.mtx.jobs n j } }
/-- The job exists. -/
def State.hasJob (s : State) (n : Nat) : Bool := s.mtx.jobs.any fun x => x.1 == n

/-! ### Why an issue stops (R93, R121, R319) -/

/-- What ends an issue: an address fault of a unit, an uncorrectable error in what the unit reads, a rejection, or traffic that
has to wait, which leaves the descriptor to be issued later (R20, R322). -/
inductive Stop where
  | fault (unit addr : Nat)
  | ue (unit addr : Nat)
  | reject (st : Status)
  | wait
deriving DecidableEq, Repr

/-- The first status of a list of checks that fails. -/
def firstFail (l : List (Bool × Status)) : Option Status := (l.find? (·.1)).map (·.2)

/-- A list of checks: the first that fails rejects. -/
def checks (l : List (Bool × Status)) : Except Stop Unit :=
  match firstFail l with
  | some st => .error (.reject st)
  | none => .ok ()

/-- A unit of island `i` reads byte ranges at issue: one it may not read is an address fault, one whose traffic is held waits, and
one that holds an uncorrectable error fails (R20, R121, R319, R322). -/
def State.reads (s : State) (i unit : Nat) (l : List (Nat × Nat)) : Except Stop Unit :=
  match l.find? fun x => !unitReadOk x.1 x.2 with
  | some x => .error (.fault unit x.1)
  | none =>
    if s.trafficHeld i l then .error .wait
    else
      match l.findSome? fun x => s.knownBad x.1 x.2 with
      | some a => .error (.ue unit a)
      | none => .ok ()

/-- A unit of island `i` in context `c` is to store to byte ranges at issue: one it may not store to is an address fault, one
that is held waits (R25, R52, R347, R462). -/
def State.writesOk (s : State) (i unit c : Nat) (l : List (Nat × Nat)) : Except Stop Unit :=
  match l.find? fun x => !s.ctxWriteOk (s.sample c) c x.1 x.2 with
  | some x => .error (.fault unit x.1)
  | none => if s.storesHeld i l then .error .wait else .ok ()

/-- The words of a structure of `n` words at `a`. -/
def State.wordsAt (s : State) (a n : Nat) : List Nat := (List.range n).map fun i => s.word (a + 4 * i)

/-! ### Checks at issue (R93, R127) -/

/-- The formats allowed in a 2:4 B (R93). -/
def sparseFmtOk (f : Fmt) : Bool :=
  f == .e4m3 || f == .e5m2 || f == .mxE4m3 || f == .mxE5m2 || f == .e2m1 || f == .mxE2m1 || f == .bf16

/-- The output formats of the table of R95. -/
def outFmtOk (intJob : Bool) (code : Nat) : Bool :=
  if intJob then code == 0 || code == 2 || code == 0xD else code ≤ 4 || code == 8 || code == 9

/-- The format of a scale address is used: a delayed-scaled or MX operand. -/
def Fmt.scaled (f : Fmt) : Bool := f.delayed || f.isMx

/-- Fields of a tile-job descriptor at issue (R90). -/
def descRagged (d : List Nat) : Bool := dfld d 0 3 0 == 4 || dfld d 0 3 0 == 5
def descSparse (d : List Nat) : Bool := dfld d 0 3 0 == 1 || dfld d 0 3 0 == 3 || dfld d 0 3 0 == 5
def descOcc (d : List Nat) : Bool := dfld d 0 3 0 == 2 || dfld d 0 3 0 == 3
def descRoute (d : List Nat) : Nat := dfld d 0 19 18
def descSkip (d : List Nat) : Bool := dfld d 0 21 21 == 1
def descFmtA (d : List Nat) : Fmt := (Fmt.ofCode (dfld d 0 7 4)).getD .fp32
def descFmtB (d : List Nat) : Fmt := (Fmt.ofCode (dfld d 0 11 8)).getD .fp32
def descFmtOut (d : List Nat) : Fmt := (Fmt.ofCode (dfld d 0 15 12)).getD .fp32

/-- The reserved bits of a tile-job descriptor and of the address fields its kind and route use are 0 (R90, R91). -/
def mtxReservedOk (d : List Nat) : Bool :=
  let route := descRoute d
  dfld d 0 31 30 == 0 && dfld d 1 15 5 == 0 && dfld d 2 31 16 == 0 && dfld d 3 31 24 == 0
  && d.getD 30 0 == 0 && d.getD 31 0 == 0 && daddrOk d 4 && daddrOk d 6 && daddrOk d 8
  && (route != 0 || daddrOk d 10) && (route != 1 || d.getD 11 0 == 0)
  && (!(descFmtA d).scaled || daddrOk d 12) && (!(descFmtB d).scaled || daddrOk d 14)
  && (!(route == 0 && (descFmtOut d).scaled) || daddrOk d 16)
  && (!descSparse d || daddrOk d 18) && (!descOcc d || daddrOk d 20)
  && (!descSkip d || daddrOk d 22) && (!(descRagged d || route == 2) || daddrOk d 24)

/-- Alignment of a scale address: a record to 16 bytes, an MX scale array to 32 (R90). -/
def scaleAligned (f : Fmt) (a : Nat) : Bool := if f.isMx then a % 32 == 0 else !f.delayed || a % 16 == 0

/-- The first three rows of R93's table. -/
def mtxFormatChecks (d : List Nat) : List (Bool × Status) :=
  let fa := descFmtA d
  let fb := descFmtB d
  [ (dfld d 0 3 0 ≥ 6 || !mtxReservedOk d, .badDescriptor),
    ((Fmt.ofCode (dfld d 0 7 4)).isNone || (Fmt.ofCode (dfld d 0 11 8)).isNone || fa == .fp32 || fb == .fp32
      || fa.isInt != fb.isInt || (descSparse d && !sparseFmtOk fb), .badFormat),
    (descRoute d == 0 && !outFmtOk fa.isInt (dfld d 0 15 12), .badFormat) ]

/-- The scale records a descriptor names outside a group table, with the format code each must hold (R66, R93); paged
operands (`pg`) have no record (R260). -/
def mtxRecords (d : List Nat) (pg : Bool) : List (Nat × Nat) :=
  (if (descFmtA d).delayed then [(daddr d 12, dfld d 0 7 4)] else [])
  ++ (if (descFmtB d).delayed && !descRagged d && !pg then [(daddr d 14, dfld d 0 11 8)] else [])
  ++ (if descRoute d == 0 && (descFmtOut d).delayed then [(daddr d 16, dfld d 0 15 12)] else [])

/-- The rows of R93's table from the record formats on that need neither a bound nor the group table. -/
def State.mtxFieldChecks (s : State) (t c : Nat) (d : List Nat) (pg : Bool) : List (Bool × Status) :=
  let store := descRoute d == 0
  [ ((mtxRecords d pg).any fun r => s.recordFmt r.1 != r.2, .badFormat),
    (daddr d 4 % 64 != 0 || daddr d 6 % 256 != 0 || daddr d 8 % 256 != 0 || (store && daddr d 10 % 256 != 0)
      || !scaleAligned (descFmtA d) (daddr d 12) || !scaleAligned (descFmtB d) (daddr d 14)
      || (store && !scaleAligned (descFmtOut d) (daddr d 16))
      || (descSparse d && daddr d 18 % 256 != 0) || (descOcc d && daddr d 20 % 4 != 0)
      || (descSkip d && daddr d 22 % 4 != 0) || (descRagged d && daddr d 24 % 16 != 0)
      || (descRoute d == 2 && daddr d 24 % 128 != 0), .badDescriptor),
    (dfld d 1 4 0 ≥ (s.slotsOf c t).length, .badDescriptor),
    (descSkip d && (!store || descRagged d || d.getD 26 0 == 0), .badDescriptor),
    ((descRoute d == 1 || descRoute d == 2) && (descFmtA d).isInt, .badDescriptor) ]

/-- A source of a bound is memory (R125). -/
def boundsUsed (l : List Nat) : Bool := dfld l 0 25 24 == 1 || dfld l 0 27 26 == 1 || dfld l 0 29 28 == 1

/-- Convolution mode (R125). -/
def loopConv (l : List Nat) : Bool := dfld l 0 1 0 == 1

/-- The reserved fields of a loop descriptor are 0 (R91, R125). -/
def loopReservedOk (l : List Nat) : Bool :=
  dfld l 0 3 3 == 0 && dfld l 0 15 14 == 0 && dfld l 0 31 30 == 0
  && (List.range 3).all (fun i => dfld l 0 (25 + 2 * i) (24 + 2 * i) != 2 || l.getD (1 + i) 0 < 4)
  && (!boundsUsed l || daddrOk l 4)
  && (!loopConv l || (dfld l 22 11 11 == 0 && dfld l 23 31 28 == 0 && dfld l 24 31 16 == 0))
  && (List.range 7).all fun i => l.getD (25 + i) 0 == 0

/-- A convolution field that must not be 0, or a window side above its limit, or c_stride below c_in (R125, R127). -/
def convFieldsBad (l : List Nat) : Bool :=
  let f (w hi lo : Nat) : Bool := dfld l w hi lo == 0
  f 18 15 0 || f 18 31 16 || f 19 15 0 || f 19 31 16 || f 20 15 0 || f 20 31 16 || f 21 15 0 || f 21 31 16
  || f 22 3 0 || f 22 7 4 || f 22 10 8 || f 22 15 12 || f 22 19 16 || f 22 23 20 || f 22 27 24 || f 22 31 28
  || f 23 3 0 || dfld l 22 3 0 > 11 || dfld l 22 7 4 > 11 || dfld l 24 15 0 < dfld l 21 31 16

/-- A mantle row stride breaks R135. -/
def mantleStrideBad (d l : List Nat) : Bool :=
  (dfld l 0 11 10 != 0 && (if loopConv l then dfld l 24 15 0 % 128 != 0
    else l.getD 9 0 % mantleBytes (dfld l 0 11 10) != 0))
  || (descRoute d == 0 && dfld l 0 13 12 != 0 && l.getD 11 0 % mantleBytes (dfld l 0 13 12) != 0)

/-- BF16 or FP16. -/
def half16 (f : Fmt) : Bool := f == .bf16 || f == .fp16

/-- The rows of the sequencer's table that lie above the bound checks (R127, step 1). -/
def loopChecks (t : Nat) (d l : List Nat) : List (Bool × Status) :=
  let conv := loopConv l
  let cin := dfld l 21 31 16
  let fa := descFmtA d
  [ (dfld l 0 1 0 ≥ 2 || dfld l 0 25 24 == 3 || dfld l 0 27 26 == 3 || dfld l 0 29 28 == 3 || !loopReservedOk l,
      .badDescriptor),
    (conv && (dfld l 0 25 24 != 0 || dfld l 0 29 28 != 0 || descRagged d), .badDescriptor),
    (conv && convFieldsBad l, .badDescriptor),
    (conv && ((fa.isMx && cin % 32 != 0) || (fa.bits == 6 && cin % 4 != 0) || (fa.bits == 4 && cin % 2 != 0)),
      .badDescriptor),
    ((!conv && l.getD 9 0 % 16 != 0) || l.getD 10 0 % 16 != 0 || (descRoute d == 0 && l.getD 11 0 % 16 != 0)
      || (boundsUsed l && daddr l 4 % 16 != 0), .badDescriptor),
    (boundsUsed l && !(inDrum (daddr l 4) && drumOf (daddr l 4) == t && inDrum (daddr l 4 + 11)
      && drumOf (daddr l 4 + 11) == t), .badDescriptor),
    ((dfld l 0 11 10 != 0 && !half16 fa) || (descRoute d == 0 && dfld l 0 13 12 != 0 && !half16 (descFmtOut d)),
      .badFormat),
    (mantleStrideBad d l, .badDescriptor),
    (descRagged d && dfld l 0 6 4 != 0, .badDescriptor) ]

/-- Step 1 of R127: the loop descriptor is fetched and every check that needs neither a bound nor the group table made;
a scale record outside a drum SRAM window faults (R565). With paged operands (`pg`) the loop's K source and k_cap are
ignored (R245). -/
def State.issueStep1 (s : State) (t c : Nat) (d : List Nat) (pg : Bool) : Except Stop (List Nat) := do
  s.reads (cupolaIsland t) 2 [(daddr d 4, 128)]
  let l := s.wordsAt (daddr d 4) 32
  let l := if pg then ((l.set 0 (l.getD 0 0 - dfld l 0 29 28 * 2 ^ 28)).set 3 0).set 8 0xFFFFFFFF else l
  checks (mtxFormatChecks d)
  match (mtxRecords d pg).find? fun r => !recordOk r.1 with
  | some r => .error (.fault 2 r.1)
  | none => do
    s.reads (cupolaIsland t) 2 ((mtxRecords d pg).map fun r => (r.1, 144))
    checks (s.mtxFieldChecks t c d pg)
    checks (loopChecks t d l)
    return l

/-! ### Bounds (R127 step 2, R128, R136, R137) -/

/-- Bound `i` (0 M, 1 N, 2 K) from its source. -/
def State.bound (s : State) (t c : Nat) (l : List Nat) (i : Nat) : Nat :=
  match dfld l 0 (25 + 2 * i) (24 + 2 * i) with
  | 0 => l.getD (1 + i) 0
  | 1 => s.word (daddr l 4 + 4 * i)
  | _ => (s.reg .seqBnd t (4 * c + l.getD (1 + i) 0 % 4)).toNat

/-- The descriptor is a pointwise convolution that is issued in matrix mode (R137). -/
def pointwise (d l : List Nat) : Bool :=
  loopConv l && dfld l 22 10 0 == 0x111 && dfld l 22 31 12 == 0x11111 && dfld l 23 27 0 == 1
  && dfld l 20 15 0 == dfld l 18 15 0 && dfld l 20 31 16 == dfld l 18 31 16 && dfld l 21 15 0 == dfld l 19 15 0
  && dfld l 24 15 0 * (descFmtA d).bits % 128 == 0

/-- Resolved bounds: whether the job runs in convolution mode, its loop words, M, N and K. -/
structure Bounds where
  conv : Bool
  loop : List Nat
  m : Nat
  n : Nat
  k : Nat
deriving DecidableEq, Repr

/-- Step 2 of R127. -/
def State.resolve (s : State) (t c : Nat) (d l : List Nat) : Bounds :=
  let n := s.bound t c l 1
  if pointwise d l then
    let m := dfld l 19 31 16 * dfld l 19 15 0 * dfld l 18 31 16 * dfld l 18 15 0
    { conv := false, loop := l.set 9 (dfld l 24 15 0 * (descFmtA d).bits / 8), m := m, n := n, k := dfld l 21 31 16 }
  else if loopConv l then
    { conv := true, loop := l, m := dfld l 19 31 16 * dfld l 21 15 0 * dfld l 20 31 16 * dfld l 20 15 0, n := n
      k := dfld l 22 10 8 * dfld l 22 7 4 * dfld l 22 3 0 * dfld l 21 31 16 }
  else { conv := false, loop := l, m := s.bound t c l 0, n := n, k := s.bound t c l 2 }

/-! ### Ragged groups (R114 to R117) -/

/-- The words of the group table at `a`. -/
def State.groupTable (s : State) (a : Nat) : List (Nat × Nat) :=
  (List.range (s.word a % 2 ^ 12)).map fun j => (s.word (a + 8 + 8 * j), s.word (a + 12 + 8 * j))

/-- The groups are in ascending order and do not overlap (R117). -/
def groupsOrdered (gs : List (Nat × Nat)) : Bool :=
  match gs with
  | [] => true
  | [_] => true
  | x :: y :: rest => x.1 + x.2 ≤ y.1 && groupsOrdered (y :: rest)

/-- The scale record of group `g`'s B (R115). -/
def groupRecord (d : List Nat) (g : Nat) : Nat := daddr d 14 + g * d.getD 28 0 * 16

/-- Step 3 of R127 and the checks of step 4 on the group table and on the groups' scale records: the groups, one of the
whole output for a kind that is not ragged. -/
def State.groups (s : State) (t : Nat) (d : List Nat) (m : Nat) : Except Stop (List (Nat × Nat)) := do
  if !descRagged d then return [(0, m)]
  let a := daddr d 24
  s.reads (cupolaIsland t) 2 [(a, 8)]
  let n := s.word a % 2 ^ 12
  s.reads (cupolaIsland t) 2 [(a, 8 + 8 * n)]
  let gs := s.groupTable a
  let recs := if (descFmtB d).delayed then
      gs.zipIdx.filterMap fun x => if x.1.2 == 0 then none else some (groupRecord d x.2)
    else []
  match recs.find? fun r => !recordOk r with
  | some r => .error (.fault 2 r)
  | none => do
    s.reads (cupolaIsland t) 2 (recs.map fun r => (r, 144))
    checks [ (recs.any fun r => s.recordFmt r != dfld d 0 11 8, .badFormat),
      (n == 0 || s.word a / 2 ^ 12 != 0 || s.word (a + 4) != 0 || !groupsOrdered gs, .badDescriptor),
      (gs.any fun g => g.1 + g.2 > m, .lengthRange) ]
    return gs

/-! ### Tiles (R116, R130, R131, R143, R147) -/

/-- The tile rows of a job: first row, end row and group (R116, R130). -/
def tileRows (groups : List (Nat × Nat)) (rows : Nat) : List (Nat × Nat × Nat) :=
  groups.zipIdx.flatMap fun x =>
    let (start, count) := x.1
    (List.range ((count + rows - 1) / rows)).map fun i =>
      (start + i * rows, min (start + (i + 1) * rows) (start + count), x.2)

/-- The tile groups in visit order: first tile row and first tile column of each (R131). -/
def tileBands (nr nc gm gn order : Nat) : List (Nat × Nat) :=
  let rb := (List.range ((nr + gm - 1) / gm)).map (· * gm)
  let cb := (List.range ((nc + gn - 1) / gn)).map (· * gn)
  if order == 0 then rb.flatMap fun r => cb.map fun c => (r, c)
  else cb.flatMap fun c => rb.map fun r => (r, c)

/-- A job is slot-bound (R143). -/
def slotBound (d : List Nat) : Bool := dfld d 0 20 20 == 1 || descRoute d == 3

/-- The tiles of a job in tile order (R131), with their slots within the allocation (R143, R147). -/
def tilesOf (d l : List Nat) (groups : List (Nat × Nat)) (n avail : Nat) : List Tile :=
  let (rows, cols) := shapeDims (dfld d 0 17 16)
  let gm := dfld l 0 6 4 + 1
  let gn := dfld l 0 9 7 + 1
  let rs := tileRows groups rows
  let nc := (n + cols - 1) / cols
  let grid := (tileBands rs.length nc gm gn (dfld l 0 2 2)).zipIdx.flatMap fun x =>
    let (r0, c0) := x.1
    let cells := ((rs.drop r0).take gm).flatMap fun r =>
      (List.range (min gn (nc - c0))).map fun i => (r, c0 + i)
    cells.zipIdx.map fun y =>
      ({ row0 := y.1.1.1, row1 := y.1.1.2.1, col0 := y.1.2 * cols, col1 := min n ((y.1.2 + 1) * cols),
         group := y.1.1.2.2, tgroup := x.2, place := y.2, slot := 0, st := .waiting, chunk := 0, omitted := false,
         begun := false, role := .matrix, due := false, sent := 0, visit := 0 } : Tile)
  grid.zipIdx.map fun x =>
    let slot := if slotBound d then dfld d 1 4 0 + x.2 else dfld d 1 4 0 + x.2 % (max 1 avail)
    { x.1 with slot := slot }

/-! ### Stage area, footprint and spill (R133, R143, R144) -/

/-- Bytes of one row of a chunk with its MX scale bytes (R123, R133). -/
def chunkRow (f : Fmt) (stored : Nat) : Nat := stored * f.bits / 8 + (if f.isMx then stored / 32 else 0)

/-- The largest number of tiles, of tile rows and of tile columns an existing group holds. -/
def groupExtent (ts : List Tile) : Nat × Nat × Nat :=
  ts.foldl (fun e x =>
    let mine := ts.filter fun y => y.tgroup == x.tgroup
    let rs := (mine.map (·.row0)).eraseDups.length
    let cs := (mine.map (·.col0)).eraseDups.length
    (max e.1 mine.length, max e.2.1 rs, max e.2.2 cs)) (0, 0, 0)

/-- [a, a + n) lies wholly in tower `t`'s general scratch (R127). -/
def inScratch (t a n : Nat) : Bool := n == 0 || (regionOf a == .scratch t && regionOf (a + n - 1) == .scratch t)

/-- What steps 4's footprint checks decide: stage area, spill area, whether the job spills and its segment length. -/
structure Footprint where
  stage : Nat × Nat
  spill : Nat × Nat
  spills : Bool
  segLen : Nat
  bad : List (Bool × Status)
deriving Repr

/-- Stage size, footprint and spill of a job (R133, R143, R144), with the checks of R127's table from stage_base on. Whether
stage_base and spill_base are used depends on the bounds, so a misaligned one is reported first among the checks of step 4,
although its row stands above the bound rows; and the stage area that must lie in general scratch is the whole of stage_kib, as
R144 says of the spill area (both DEDUCED, log entry 75). -/
def footprint (t : Nat) (d : List Nat) (b : Bounds) (ts : List Tile) (avail : Nat) : Footprint :=
  let l := b.loop
  let (rows, cols) := shapeDims (dfld d 0 17 16)
  let (f, gm, gn) := groupExtent ts
  let n := chunkLenOf (descFmtA d) (descFmtB d) (descSparse d)
  let chunks := (b.k + n - 1) / n
  let seg := if dfld l 0 23 16 == 0 then 8 else dfld l 0 23 16
  let spills := !slotBound d && f > avail && chunks > seg
  let ca := chunkRow (descFmtA d) n
  let cb := chunkRow (descFmtB d) (if descSparse d then n / 2 else n)
  let kib := (2 * (if spills then seg else 1) * (gm * rows * ca + gn * cols * cb) + 1023) / 1024
  let staged := f > 1
  let stage := if staged then (daddr l 12, l.getD 14 0 * 1024) else (0, 0)
  let spill := if spills then (daddr l 16, l.getD 15 0 * 0x100000) else (0, 0)
  { stage := stage, spill := spill, spills := spills, segLen := seg
    bad := [ ((staged && !daddrOk l 12) || (spills && !daddrOk l 16), .badDescriptor),
      ((staged && daddr l 12 % 4096 != 0) || (spills && daddr l 16 % 4096 != 0), .badDescriptor),
      (b.m > l.getD 6 0 || b.n > l.getD 7 0 || b.k > l.getD 8 0, .lengthRange),
      (staged && (kib > l.getD 14 0 || !inScratch t stage.1 stage.2), .lengthRange),
      (slotBound d && ts.length > avail, .accSpace),
      (spills && (l.getD 15 0 < f || !inScratch t spill.1 spill.2), .accSpace) ] }

/-! ### Masks (R106, R109 to R111) -/

/-- What the masks of a job read: the skip mask and the occupancy bitmap. -/
def maskSpans (d : List Nat) (b : Bounds) : List (Nat × Nat) :=
  (if descSkip d then [(daddr d 22, (b.m + 7) / 8)] else [])
  ++ (if descOcc d then [(daddr d 20, 4 * ((b.n + 31) / 32 * ((b.k + 1023) / 1024)))] else [])

/-- Row `m` is live under the skip mask (R109, R110). -/
def State.rowLive (s : State) (d : List Nat) (m : Nat) : Bool :=
  m < d.getD 26 0 || (s.byte (daddr d 22 + m / 8)).getLsbD (m % 8)

/-- Every mask supplied marks the tile dead (R111). -/
def State.tileOmitted (s : State) (d : List Nat) (j : MtxJob) (x : Tile) : Bool :=
  let skipLive := x.rowsIn.any (s.rowLive d)
  let occLive := (List.range j.chunks).any fun c => (j.slabs x c).any (s.slabLive j x)
  (descSkip d || descOcc d) && !(descSkip d && skipLive) && !(descOcc d && occLive)

/-! ### The job (R41, R69, R76) -/

/-- The job of a descriptor whose checks passed, before its tiles (R127, step 5). -/
def State.newJob (s : State) (t c : Nat) (d : List Nat) (b : Bounds) (groups : List (Nat × Nat)) (pg : Bool) : MtxJob :=
  let exp (f : Fmt) (a : Nat) : Int := if f.delayed then s.scaleExp a f s.stepNo else 0
  let store := descRoute d == 0
  let eb := groups.zipIdx.map fun x =>
    if pg || (descRagged d && x.1.2 == 0) then 0 else exp (descFmtB d) (groupRecord d (if descRagged d then x.2 else 0))
  { (default : MtxJob) with
    t := t, c := c, desc := d, loop := b.loop, index := s.qHead .matrix t c, status := .ok, m := b.m, n := b.n, k := b.k,
    conv := b.conv, groups := groups, sampled := s.sample c, ea := exp (descFmtA d) (daddr d 12), eb := eb,
    eo := if store then exp (descFmtOut d) (daddr d 16) else 0,
    srStep := if s.member c then s.stepNo else 0, step := s.stepNo, member := s.member c,
    avail := (s.slotsOf c t).length - dfld d 1 4 0 }

/-- The route 1 checks (R357). -/
def State.routeChecks (s : State) (c : Nat) (d : List Nat) (b : Bounds) : List (Bool × Status) :=
  if descRoute d == 1 then
    match s.grpFor (dfld d 3 23 16) s.activeEpoch with
    | none => [(true, .badDescriptor)]
    | some g =>
      [ (g.owner != c || g.aborted || dfld d 3 15 0 ≥ g.nBuckets, .badDescriptor),
        (d.getD 10 0 + b.m * b.n > (s.bucket g (dfld d 3 15 0)).elements, .lengthRange) ]
  else []

/-- The bound words a job reads: the word of each source of 1 (R127, step 2). -/
def boundSpans (l : List Nat) : List (Nat × Nat) :=
  (List.range 3).filterMap fun i => if dfld l 0 (25 + 2 * i) (24 + 2 * i) == 1 then some (daddr l 4 + 4 * i, 4) else none

/-- The byte ranges of the records' last_exp that the issue stores to (R68). -/
def expSpans (d : List Nat) (groups : List (Nat × Nat)) (pg : Bool) : List (Nat × Nat) :=
  (mtxRecords d pg).map (fun r => (r.1 + 5, 1))
  ++ (if (descFmtB d).delayed && descRagged d && !pg then
        groups.zipIdx.filterMap fun x => if x.1.2 == 0 then none else some (groupRecord d x.2 + 5, 1)
      else [])

/-- Steps 1 to 6 of R127 up to the job with its tiles. -/
def State.issueJob (s : State) (t c : Nat) (d : List Nat) : Except Stop MtxJob := do
  let l ← s.issueStep1 t c d false
  s.reads (cupolaIsland t) 2 (boundSpans l)
  let b := s.resolve t c d l
  let gs ← s.groups t d b.m
  let j := s.newJob t c d b gs false
  let ts := tilesOf d b.loop gs b.n j.avail
  let f := footprint t d b ts j.avail
  checks f.bad
  checks (s.routeChecks c d b)
  s.reads (cupolaIsland t) 2 (maskSpans d b)
  s.writesOk (cupolaIsland t) 2 c (expSpans d gs false)
  let ts := ts.map fun x =>
    if s.tileOmitted d j x then { x with omitted := true, st := if descSkip d then .copying else .waiting } else x
  let g := s.grp (grpKey (dfld d 3 23 16) s.activeEpoch)
  return { j with
    tiles := ts, spills := f.spills, segLen := f.segLen, stageArea := f.stage, spillArea := f.spill,
    redEpoch := s.activeEpoch, sAct := if descRoute d == 1 then (s.bucket g (dfld d 3 15 0)).sActive else 0,
    tilesOmitted := (ts.filter (·.omitted)).length }

/-- The units write the exponents they sampled to the records' last_exp (R68). -/
def State.writeExps (s : State) (d : List Nat) (j : MtxJob) (pg : Bool) : State :=
  let s := if (descFmtA d).delayed then s.setLastExp (daddr d 12) j.ea else s
  let s := if (descFmtB d).delayed && !pg then
      s.each j.groups.zipIdx fun s x =>
        if x.1.2 == 0 && descRagged d then s
        else s.setLastExp (groupRecord d (if descRagged d then x.2 else 0)) (j.eb.getD x.2 0)
    else s
  if descRoute d == 0 && (descFmtOut d).delayed then s.setLastExp (daddr d 16) j.eo else s

/-- A stopped issue takes its effect: a context fault, or a completion record with the status (R93, R121, R319). -/
def State.stopIssue (s : State) (t c : Nat) (d : List Nat) (e : Stop) : State :=
  let index := s.qHead .matrix t c
  let tag := dfld d 2 15 0
  match e with
  | .fault unit a => s.unitFault c t unit causeAddress a tag index
  | .ue unit a => s.unitUe c t unit a tag index
  | .wait => s
  | .reject st =>
    let s := s.setFld .seqIssueStat t c seqIssueStat_lastStatus st.code
    let s := if st == .accSpace then s.flag .seqIssueStat t c seqIssueStat_accSpaceSeen else s
    s.qReject .matrix t c (dfld d 0 22 22 == 1) (dfld d 0 23 23 == 1)
      [tag + st.code * 2 ^ 16, 0, 0, 0, 0, 0, index, 0]

/-- A job enters the machine: its queue moves on and its records are written (R87, R127). -/
def State.startJob (s : State) (t c : Nat) (d : List Nat) (j : MtxJob) (pg : Bool) : State :=
  let s := s.writeExps d j pg
  let n := s.mtx.nextJob
  let s := s.qIssued .matrix t c n (dfld d 0 22 22 == 1 && s.member c)
  { s with mtx := { s.mtx with jobs := tput s.mtx.jobs n j, nextJob := n + 1 } }

/-- The matrix queue may issue: R87 to R89, with wait_prev. -/
def State.mtxReady (s : State) (t c : Nat) : Bool :=
  s.qCanIssue .matrix t c && (dfld (s.descWords .matrix t c) 0 24 24 == 0 || s.qIdle .matrix t c)

/-- TILE_JOB_ISSUE: the descriptor at the head of the matrix queue is fetched, checked and issued (R86, R87, R127); one of
route 2 is issued by ATTENTION_JOB_ISSUE. -/
def State.tileJobIssue (s : State) (t c : Nat) : State :=
  let a := s.descAddr .matrix t c
  let d := s.descWords .matrix t c
  if !s.mtxReady t c then s
  else if !descRegionOk .matrix t a then s.unitFault c t 1 causeAddress a 0 (s.qHead .matrix t c)
  else if descRoute d == 2 then s
  else if s.trafficHeld (cupolaIsland t) [(a, 128)] then s
  else
    match s.knownBad a 128 with
    | some b => s.unitUe c t 1 b 0 (s.qHead .matrix t c)
    | none =>
      match s.issueJob t c d with
      | .error e => s.stopIssue t c d e
      | .ok j => s.startJob t c d j false

/-- TILE_JOB_ISSUE (R127). -/
def execTileJobIssue (t : Tower) (c : CtxId) (s : State) : Host.Outcome State Fault Refusal :=
  .next (s.tileJobIssue t.val c.val)

end Sys2Proof.Machine
end

