-- ==== Sys2Proof/Machine/Matrix.lean ====
section
/-! DEFINITION. The matrix engine at work: slots, stage, array grants, folds, spills, copies and completion (R84, R87, R88,
R97 to R100, R105 to R113, R118 to R120, R132, R141, R145 to R147, R465, R467). -/

namespace Sys2Proof.Machine

/-! ### Which tile jobs may go on (R132, R145, R236 to R240) -/

/-- A tile job still to claim, fill or reload. -/
def Tile.active (x : Tile) : Bool :=
  match x.st with
  | .waiting => true
  | .filling => true
  | .spilled => true
  | .draining => false
  | .copying => false
  | .done => false

/-- The segment and pass of a tile job, in one number that rises in the order they run (R145). -/
def MtxJob.turn (j : MtxJob) (x : Tile) : Nat :=
  if j.spills then x.chunk / j.segLen * (j.tiles.length + 1) + x.place / max 1 j.avail
  else if slotBound j.desc then 0
  else x.place / max 1 j.avail

/-- The least of a list of numbers, 0 for none. -/
def leastOf (l : List Nat) : Nat := l.foldl min (l.headD 0)

/-- The tile jobs of a matrix job that may claim, fetch or issue now: the present pass of the first tile group that still
fills (R132, R145). -/
def MtxJob.runTiles (j : MtxJob) : List (Tile × Nat) :=
  let xs := j.tiles.zipIdx.filter fun x => x.1.active
  match xs with
  | [] => []
  | y :: _ =>
    let g := xs.filter fun x => x.1.tgroup == y.1.tgroup
    let turn := leastOf (g.map fun x => j.turn x.1)
    g.filter fun x => j.turn x.1 == turn

/-- The tile jobs of an attention job that may go on: the first score product still to fold, and the first value product if
its score tile has been drained (R238, R240). -/
def MtxJob.runAtt (j : MtxJob) : List (Tile × Nat) :=
  let isScore (x : Tile) : Bool := match x.role with
    | .score _ => true
    | _ => false
  let scores := (j.tiles.zipIdx.filter fun x => x.1.active && isScore x.1).take 1
  let values := (j.tiles.zipIdx.filter fun x => x.1.active && !isScore x.1).take 1
  scores ++ values.filter fun x => (j.tiles.getD (x.2 - 1) default).st == .done

/-- The tile jobs of a job that may go on. -/
def MtxJob.running (j : MtxJob) : List (Tile × Nat) :=
  match j.att with
  | none => j.runTiles
  | some _ => j.runAtt

/-- Those of them whose next chunk is the least of their group: chunk c is folded into every tile before chunk c + 1
begins (R132). -/
def MtxJob.nextTiles (j : MtxJob) : List (Tile × Nat) :=
  let xs := j.running
  xs.filter fun x => xs.all fun y => y.1.tgroup != x.1.tgroup || x.1.chunk ≤ y.1.chunk

/-- Tile `i` of a job, and the job with that tile changed. -/
def MtxJob.tile (j : MtxJob) (i : Nat) : Tile := j.tiles.getD i default
def MtxJob.setTile (j : MtxJob) (i : Nat) (x : Tile) : MtxJob := { j with tiles := j.tiles.set i x }
def State.setTile (s : State) (n i : Nat) (x : Tile) : State := s.setJob n ((s.job n).setTile i x)

/-- The physical slot of a tile job. -/
def State.tileSlot (s : State) (j : MtxJob) (x : Tile) : Nat := s.physSlot j.c j.t x.slot

/-! ### What a slot held before (R200) -/

/-- The parts of undefined ranges within [a, a + n). -/
def within (l : List (Nat × Nat × Nat)) (a n : Nat) : List (Nat × Nat × Nat) :=
  l.filterMap fun u =>
    let b := max u.1 a
    let e := min (u.1 + u.2.1) (a + n)
    if b < e then some (b, e - b, u.2.2) else none

/-- The present contents of physical slot `p` of tower `t`. -/
def State.slotNow (s : State) (t p : Nat) : SlotPast :=
  let a := slotAddr t p
  { cells := s.mem.filter fun c => a ≤ c.1 && c.1 < a + 0x100000, undef := within s.ram.undef a 0x100000 }

/-- What the slot has held since it was claimed, beside its present contents (R200). -/
def State.slotPast (s : State) (t p : Nat) : List SlotPast := tget s.mtx.past (32 * t + p)
def State.setPast (s : State) (t p : Nat) (l : List SlotPast) : State :=
  { s with mtx := { s.mtx with past := tput s.mtx.past (32 * t + p) l } }

/-- The present contents of a slot are kept before they change (R200). -/
def State.keepPast (s : State) (t p : Nat) : State := s.setPast t p (s.slotPast t p ++ [s.slotNow t p])

/-- `s` with memory as a slot held it. -/
def State.asHeld (s : State) (x : SlotPast) : State :=
  { s with mem := x.cells, ram := { s.ram with undef := x.undef } }

/-! ### Claiming a slot (R97 to R99, R112, R147, R239) -/

/-- A tile job waits for a slot. -/
def Tile.wantsSlot (x : Tile) : Bool := x.st == .waiting || (x.st == .spilled && !x.begun)

/-- A value product that finds its query tile's output slot already claimed by an earlier one (R239). -/
def Tile.sharesSlot (x : Tile) : Bool :=
  match x.role with
  | .value _ => x.place != 0
  | _ => false

/-- An earlier job of the tower waits for slot `p` now (R98). -/
def State.slotAwaited (s : State) (n t p : Nat) : Bool :=
  s.mtx.jobs.any fun y =>
    y.1 < n && y.2.t == t && y.2.running.any fun x => x.1.wantsSlot && !x.1.sharesSlot && s.tileSlot y.2 x.1 == p

/-- The tile job may claim its slot: it is FREE or HELD, and no earlier job waits for it (R98). -/
def State.canClaim (s : State) (n i : Nat) : Bool :=
  let j := s.job n
  let x := j.tile i
  let p := s.tileSlot j x
  s.hasJob n && x.wantsSlot && (j.running.any fun y => y.2 == i)
    && (x.sharesSlot || ((s.slotSt j.t p == .free || s.slotSt j.t p == .held) && !s.slotAwaited n j.t p))

/-- A tile job has folded its last chunk: it drains, or under route 3 is held (R97, R100). The output slot of a query tile
stays claimed until it is finalised (R239). -/
def State.tileFilled (s : State) (n i : Nat) : State :=
  let j := s.job n
  let x := j.tile i
  let p := s.tileSlot j x
  match x.role with
  | .value _ => s.setTile n i { x with st := .done }
  | _ =>
    if j.route == 3 then (s.setSlot j.t p .held).setTile n i { x with st := .done }
    else (s.setSlot j.t p .draining).setTile n i { x with st := .draining }

/-- SLOT_CLAIM: the tile job claims its slot; under acc_init 0 the slot starts at zero (R98, R99). A tile with no chunk,
and one omitted by its occupancy bitmap alone, is routed with the slot's initial contents (R112, R126); the second counts in
tiles_omitted alone, not in tiles_computed or slabs_skipped (DEDUCED, log entry 86). -/
def State.slotClaim (s : State) (n i : Nat) : State :=
  if s.canClaim n i then
    let j := s.job n
    let x := j.tile i
    let p := s.tileSlot j x
    let s := if x.sharesSlot then s else (s.setSlot j.t p .filling).setPast j.t p []
    if x.st == .spilled then s.setTile n i { x with begun := true }
    else
      let zero := (!j.accInit || j.att.isSome) && !x.sharesSlot
      let s := if zero then s.clearRange (slotAddr j.t p) 0x100000 else s
      let j := j.setTile i { x with st := .filling, begun := true }
      let s := s.setJob n { j with tilesComputed := j.tilesComputed + (if x.omitted then 0 else 1) }
      if x.omitted || j.tileChunks x == 0 then s.tileFilled n i else s
  else s

/-! ### The stage (R121, R132, R138, R319) -/

/-- The tiles whose operands the fetch of a chunk of tile group `tg` brings: every tile of the group that is not omitted, those of
later passes included, so that each chunk is read once (R124, R132, R145); in an attention job the tile that runs (R236). -/
def MtxJob.stageTiles (j : MtxJob) (tg : Nat) : List Tile :=
  match j.att with
  | none => j.tiles.filter fun x => x.tgroup == tg && !x.omitted
  | some _ => (j.running.filter fun x => x.1.tgroup == tg).map (·.1)

/-- The chunk that arrives next for tile group `tg`: the first not staged of those the group still needs, at most two
segments ahead (R132, R133). -/
def MtxJob.nextStage (j : MtxJob) (tg : Nat) : Option Nat :=
  let xs := (j.running.filter fun x => x.1.tgroup == tg).map (·.1)
  match xs with
  | [] => none
  | x :: _ =>
    let least := leastOf (xs.map (·.chunk))
    let ahead := 2 * (if j.spills then j.segLen else 1)
    ((List.range ahead).map (least + ·)).find? fun c =>
      c < j.tileChunks x && !(j.staged.any fun y => y.tgroup == tg && y.chunk == c)

/-- The job tag of a matrix descriptor. -/
def MtxJob.tag (j : MtxJob) : Nat := dfld j.desc 2 15 0

/-- The first byte range a chunk fetch may not touch, with the unit that faults: operand A is the sequencer's, operand B the
sequencer's or the KV reader's, a mantle operand lies in HBM or general scratch, and the stage area is written by the sequencer
(R25, R121, R237, R328, R462). -/
def State.stageBad (s : State) (j : MtxJob) (tiles : List Tile) (c : Nat) : Option (Nat × Nat) :=
  let x := tiles.headD default
  let aBad (y : Nat × Nat) : Bool := !unitReadOk y.1 y.2 || (j.mantleA x && !mantleSpanOk y.1 y.2)
  match (j.stageA tiles c).find? aBad with
  | some y => some (2, y.1)
  | none =>
    match (s.stageB j tiles c).find? fun y => !unitReadOk y.1 y.2 with
    | some y => some (j.unitB x, y.1)
    | none => if s.ctxWriteOk j.sampled j.c j.stageArea.1 j.stageArea.2 then none else some (2, j.stageArea.1)

/-- The first uncorrectable error a chunk fetch meets, with the unit whose read it is (R319). -/
def State.stageUe (s : State) (j : MtxJob) (tiles : List Tile) (c : Nat) (ecc : Ecc) : Option (Nat × Nat) :=
  match s.spansError (j.stageA tiles c) ecc with
  | some a => some (2, a)
  | none => (s.spansError (s.stageB j tiles c) ecc).map fun a => (j.unitB (tiles.headD default), a)

/-- STAGE_CHUNK_ARRIVE: the next chunk's operands of a tile group arrive, unless the traffic waits on its way (R20, R322). An
address a unit may not touch is an address fault, and an uncorrectable error faults likewise (R121, R319). -/
def State.stageArrive (s : State) (n tg : Nat) (ecc : Ecc) : State :=
  let j := s.job n
  match (if s.hasJob n then j.nextStage tg else none) with
  | none => s
  | some c =>
    let tiles := j.stageTiles tg
    let spans := s.stageSpans j tiles c
    match s.stageBad j tiles c with
    | some (unit, a) => s.unitFault j.c j.t unit causeAddress a j.tag j.index
    | none =>
      if s.trafficHeld (cupolaIsland j.t) spans then s
      else
        match s.stageUe j tiles c ecc with
        | some (unit, a) => s.unitUe j.c j.t unit a j.tag j.index
        | none =>
          let st := s.stageOf j tiles tg c
          (s.countSpans j.t spans ecc).setJob n
            { j with staged := j.staged ++ [st], metaError := j.metaError || st.metaErr }

/-! ### The array (R84, R107, R141, R465, R467) -/

/-- Tile jobs of a job whose next chunk is ready to issue: slot claimed, operands staged. -/
def MtxJob.ready (j : MtxJob) : List (Tile × Nat) :=
  j.nextTiles.filter fun x =>
    x.1.st == .filling && !x.1.due && x.1.chunk < j.tileChunks x.1
      && j.staged.any fun y => y.tgroup == x.1.tgroup && y.chunk == x.1.chunk

/-- Numbers of the jobs of tower `t` with a chunk ready, in order of issue. -/
def State.readyJobs (s : State) (t : Nat) : List Nat :=
  (s.mtx.jobs.filter fun y => y.2.t == t && !y.2.ready.isEmpty).map (·.1)

/-- The job whose chunk the array of tower `t` grants in window `win`: context 15 in its windows, then a request of
normal class that has waited 4,096 cycles, oldest first (`aged` names the oldest), then by the priority each job sampled at its
issue and round-robin (R41, R465, R467). -/
def State.grantJob (s : State) (t win : Nat) (aged : Option Nat) : Option Nat :=
  let js := s.readyJobs t
  let lantern := js.find? fun n => (s.job n).c == 15
  if win % 16 < s.step.active.lantern.windows && lantern.isSome then lantern
  else
    let js := js.filter fun n => (s.job n).c != 15
    match aged.filter js.contains with
    | some n => some n
    | none =>
      match nextCtx (tget s.mtx.lastCtx t) (js.map fun n => ((s.job n).c, (s.job n).sampled.prio)) with
      | some c => js.find? fun n => (s.job n).c == c
      | none => none

/-- Live slabs and in-bounds slabs of a chunk (R107, R141). -/
def State.slabCounts (s : State) (j : MtxJob) (x : Tile) : Nat × Nat :=
  let l := j.slabs x x.chunk
  ((l.filter (s.slabLive j x)).length, l.length)

/-- CHUNK_ISSUE: the free array takes the next chunk; it occupies the array for the share of its live slabs (R84, R107). -/
def State.chunkIssue (s : State) (t win : Nat) (aged : Option Nat) : State :=
  if (tget s.mtx.array t).isSome then s
  else
    match s.grantJob t win aged with
    | none => s
    | some n =>
      let j := s.job n
      match j.ready with
      | [] => s
      | (x, i) :: _ =>
        let (live, all) := s.slabCounts j x
        let j := { j with
          cycles := min (j.cycles + live * (512 * 32 / j.tileLen x)) (2 ^ 32 - 1),
          slabsSkipped := j.slabsSkipped + (all - live) }
        let s := s.setJob n j
        { s with mtx := { s.mtx with
          array := tput s.mtx.array t (some { job := n, tile := i, chunk := x.chunk }),
          lastCtx := if j.c == 15 then s.mtx.lastCtx else tput s.mtx.lastCtx t j.c } }

/-- A read of slot `p` by job `j` meets an uncorrectable error: MTX_ACC_UE is raised and the context faults (R120). -/
def State.accUe (s : State) (j : MtxJob) (p : Nat) : State :=
  (s.raise 128 (2 ^ j.t)).unitFault j.c j.t 1 causeAcc (slotAddr j.t p) j.tag j.index

/-- The outcome is an uncorrectable error of accumulator memory. -/
def Ecc.inAcc (ecc : Ecc) : Bool :=
  match ecc with
  | .bad b => (match regionOf b with
    | .acc _ => true
    | _ => false)
  | _ => false

/-- The corrections a read of slot `p` met are counted, and job `n` notes them (R118, R119). -/
def State.accFixed (s : State) (n p : Nat) (ecc : Ecc) : State :=
  let j := s.job n
  match ecc.fixed (slotAddr j.t p) 0x100000 with
  | [] => s
  | l => (s.count .mtxEccCorr j.t 0 mtxEccCorr_corrected l.length).setJob n { j with eccCorrected := true }

/-- Chunks no tile of a group still needs leave the stage. A job of F > S that does not spill has its later tiles fold the chunks
that earlier ones left staged (R124, R132, R144; DEDUCED, log entry 90). -/
def MtxJob.unstage (j : MtxJob) : MtxJob :=
  { j with staged := j.staged.filter fun y => j.tiles.any fun x => x.tgroup == y.tgroup && x.active && x.chunk ≤ y.chunk }

/-- The tile job moves past a folded chunk: to its end, to the end of a segment, or to the next chunk (R97, R145). -/
def State.afterFold (s : State) (n i : Nat) : State :=
  let j := s.job n
  let x := j.tile i
  let c := x.chunk + 1
  let last := c == j.tileChunks x
  let due := j.spills && !last && c % j.segLen == 0
  let s := s.setJob n ((j.setTile i { x with chunk := c, due := due }).unstage)
  if last then s.tileFilled n i else s

/-- CHUNK_FOLD: the array's chunk is folded into its slot with stochastic rounding (R72, R99); a chunk with no live slab
leaves the slot as it is (R107). An uncorrectable accumulator error faults the context (R120). -/
def State.chunkFold (s : State) (t : Nat) (ecc : Ecc) : State :=
  match tget s.mtx.array t with
  | none => s
  | some g =>
    let s := { s with mtx := { s.mtx with array := tput s.mtx.array t none } }
    let j := s.job g.job
    let x := j.tile g.tile
    let p := s.tileSlot j x
    if ecc.inAcc then s.accUe j p
    else
      let s := s.accFixed g.job p ecc
      let st := (j.staged.find? fun y => y.tgroup == x.tgroup && y.chunk == x.chunk).getD default
      let (s, sat, nonfin) :=
        if (s.slabCounts j x).1 == 0 then (s, false, false) else (s.keepPast t p).foldTile j p x st
      let j := s.job g.job
      let s := s.setJob g.job { j with saturated := j.saturated || sat, nonfinite := j.nonfinite || nonfin }
      s.afterFold g.job g.tile

/-! ### Spills (R145, R146) -/

/-- The spill slot of a tile: its number within the group × 1 MiB from spill_base (R145). -/
def MtxJob.spillAddr (j : MtxJob) (x : Tile) : Nat := daddr j.loop 16 + x.place * 0x100000

/-- The bytes of [a, a + n) are copied to `b`, exactly. -/
def State.copyBytes (s : State) (a b n : Nat) : State := s.store b (s.bytes a n)

/-- SPILL_PARTIAL: the partial of a tile at the end of a segment is written to its spill slot, and its slot becomes FREE (R145,
R146). An uncorrectable accumulator error faults the context (R120), and so does a spill slot that the context may not store to
(R121, R462); held stores wait (R20, R345). -/
def State.spillPartial (s : State) (n i : Nat) (ecc : Ecc) : State :=
  let j := s.job n
  let x := j.tile i
  let p := s.tileSlot j x
  if s.hasJob n && x.st == .filling && x.due then
    if ecc.inAcc then s.accUe j p
    else if !s.ctxWriteOk j.sampled j.c (j.spillAddr x) 0x100000 then
      s.unitFault j.c j.t 2 causeAddress (j.spillAddr x) j.tag j.index
    else if s.storesHeld (cupolaIsland j.t) [(j.spillAddr x, 0x100000)] then s
    else
      let s := s.accFixed n p ecc
      let s := (s.copyBytes (slotAddr j.t p) (j.spillAddr x) 0x100000).setSlot j.t p .free
      let s := s.count .seqSpillTotal j.t 0 seqSpillTotal_spills 1
      let s := s.flag .seqIssueStat j.t j.c seqIssueStat_spillSeen
      let j := (s.job n).setTile i { x with st := .spilled, begun := false, due := false }
      s.setJob n { j with spilled := true, spillCount := j.spillCount + 1 }
  else s

/-- RELOAD_PARTIAL: a spilled partial is reloaded into the slot its tile has claimed (R145, R146); an uncorrectable error in the
spill slot faults the context (R319), and held traffic waits (R20, R322). -/
def State.reloadPartial (s : State) (n i : Nat) (ecc : Ecc) : State :=
  let j := s.job n
  let x := j.tile i
  let span := (j.spillAddr x, 0x100000)
  if s.hasJob n && x.st == .spilled && x.begun then
    if s.trafficHeld (cupolaIsland j.t) [span] then s
    else
      match s.readError span.1 span.2 ecc with
      | some b => s.unitUe j.c j.t 2 b j.tag j.index
      | none =>
        let p := s.tileSlot j x
        let s := (s.countFixed j.t span.1 span.2 ecc).keepPast j.t p
        (s.copyBytes span.1 (slotAddr j.t p) 0x100000).setTile n i { x with st := .filling }
  else s

/-! ### Omitted tiles (R112, R113) -/

/-- Some other tile of the job that writes the reference rows of tile `i` is not complete (R113). The tile's own rows are copied
in order, so a reference row within the tile is complete when it is read. -/
def MtxJob.copyWaits (j : MtxJob) (i : Nat) : Bool :=
  let x := j.tile i
  let back := j.desc.getD 26 0
  j.tiles.zipIdx.any fun y =>
    y.2 != i && y.1.st != .done && y.1.col0 == x.col0 && x.row0 < y.1.row1 + back && y.1.row0 + back < x.row1

/-- One row of an omitted tile is copied from its reference row, with its MX scale bytes (R112). -/
def State.copyRow (s : State) (j : MtxJob) (x : Tile) (m : Nat) : State :=
  let (o, n) := j.outSpan x.col0 x.col1
  let r := m - j.desc.getD 26 0
  let s := s.copyBytes (j.outRow r + o) (j.outRow m + o) n
  if j.fmtOut.isMx then
    let w := scaleRow (j.loop.getD 7 0)
    let b := daddr j.desc 16 + x.col0 / 32
    s.copyBytes (b + r * w) (b + m * w) ((x.col1 + 31) / 32 - x.col0 / 32)
  else s

/-- The byte ranges the copy of an omitted tile reads. -/
def MtxJob.copySpans (j : MtxJob) (x : Tile) : List (Nat × Nat) :=
  let (o, n) := j.outSpan x.col0 x.col1
  x.rowsIn.flatMap fun m =>
    let r := m - j.desc.getD 26 0
    (j.outRow r + o, n) :: (if j.fmtOut.isMx then
      [(daddr j.desc 16 + r * scaleRow (j.loop.getD 7 0) + x.col0 / 32, (x.col1 + 31) / 32 - x.col0 / 32)] else [])

/-- TILE_COPY: an omitted tile's rows are copied from their reference rows once those are complete (R112, R113); an address the
sequencer may not touch and an uncorrectable error fault the context (R121, R319), and held traffic waits (R20, R322, R345). -/
def State.tileCopy (s : State) (n i : Nat) (ecc : Ecc) : State :=
  let j := s.job n
  let x := j.tile i
  if s.hasJob n && x.st == .copying && !j.copyWaits i then
    match (j.copySpans x).find? fun y => !unitReadOk y.1 y.2 with
    | some y => s.unitFault j.c j.t 2 causeAddress y.1 j.tag j.index
    | none =>
      match s.tileWriteBad j x with
      | some y => s.unitFault j.c j.t 2 causeAddress y.1 j.tag j.index
      | none =>
        if s.trafficHeld (cupolaIsland j.t) (j.copySpans x) || s.storesHeld (cupolaIsland j.t) (j.tileSpans x) then s
        else
          match s.spansError (j.copySpans x) ecc with
          | some b => s.unitUe j.c j.t 2 b j.tag j.index
          | none =>
            let s := s.countSpans j.t (j.copySpans x) ecc
            (s.each x.rowsIn fun s m => s.copyRow j x m).setTile n i { x with st := .done }
  else s

/-! ### Completion (R87, R88, R118) -/

/-- The completion record of a tile-job descriptor (R118). -/
def MtxJob.record (j : MtxJob) : List Nat :=
  let flags := j.saturated.toNat + 2 * j.nonfinite.toNat + 4 * j.metaError.toNat + 8 * j.eccCorrected.toNat
    + 16 * j.spilled.toNat
  [dfld j.desc 2 15 0 + j.status.code * 2 ^ 16, flags, j.tilesComputed, j.tilesOmitted, j.slabsSkipped, j.spillCount,
   j.index, j.cycles]

/-- An issued matrix descriptor completes: its record waits for the ring, meta_error is noted, MTX_DONE raised (R88, R90,
R118), and its stage and spill areas are undefined from here on (R148). -/
def State.mtxComplete (s : State) (n : Nat) : State :=
  let j := s.job n
  let s := if j.metaError then s.flag .mtxQErr j.t j.c mtxQErr_metaError else s
  let s := s.qCompleted .matrix j.t j.c n { words := j.record, after := none }
  let s := s.raiseDone .matrix j.t j.c (dfld j.desc 0 23 23 == 1)
  let s := s.spoilJob j
  { s with mtx := { s.mtx with jobs := sparseDrop s.mtx.jobs n } }

end Sys2Proof.Machine
end

