-- ==== Sys2Proof/Machine/Drain.lean ====
section
/-! DEFINITION. Draining slots, reduction contributions, descriptor completion and completion records (R88, R100, R118,
R120, R356 to R361, R383, R567). -/

namespace Sys2Proof.Machine

/-! ### Drains (R95, R100, R120, R567) -/

/-- The draining tile of physical slot `p` of tower `t`: job and tile number. -/
def State.drainingTile (s : State) (t p : Nat) : Option (Nat × Nat) :=
  s.mtx.jobs.findSome? fun y =>
    if y.2.t == t then
      (y.2.tiles.zipIdx.find? fun x => x.1.st == .draining && s.tileSlot y.2 x.1 == p).map fun x => (y.1, x.2)
    else none

/-- A drained tile leaves its slot FREE and is complete (R97). -/
def State.drained (s : State) (n i : Nat) : State :=
  let j := s.job n
  let x := j.tile i
  (s.setSlot j.t (s.tileSlot j x) .free).setTile n i { x with st := .done }

/-- A route 0 tile is stored through its output addresses (R95, R100). -/
def State.drainStore (s : State) (n i : Nat) : State :=
  let j := s.job n
  let x := j.tile i
  let (s, sat, nonfin) := s.storeTile j (s.tileSlot j x) x
  (s.setJob n { j with saturated := j.saturated || sat, nonfinite := j.nonfinite || nonfin }).drained n i

/-- Contributions a route 1 tile makes: its in-bounds elements (R140, R356). -/
def Tile.elements (x : Tile) : Nat := (x.row1 - x.row0) * (x.col1 - x.col0)

/-- SLOT_DRAIN_COMPLETE: the last element leaves slot `p` of tower `t`: a stored tile is written, a route 1 tile has made all
its contributions; the slot is FREE (R97, R567). An uncorrectable error faults the context, and so does a store the sequencer
may not make (R120, R121); stores that are held, and the traffic of a closed way, make the read-out wait (R20, R52, R345, R567).
-/
def State.slotDrain (s : State) (t p : Nat) (ecc : Ecc) : State :=
  match s.drainingTile t p with
  | none => s
  | some (n, i) =>
    let j := s.job n
    let x := j.tile i
    if ecc.inAcc then s.accUe j p
    else if j.route == 0 then
      (match s.tileWriteBad j x with
       | some y => s.unitFault j.c j.t 2 causeAddress y.1 j.tag j.index
       | none =>
         if s.storesHeld (cupolaIsland t) (j.tileSpans x) then s else (s.accFixed n p ecc).drainStore n i)
    else if j.route == 1 && x.sent == x.elements then (s.accFixed n p ecc).drained n i
    else s

/-! ### Contributions (R356, R358 to R361) -/

/-- Fields of a contribute descriptor (R358). -/
def RedJob.group (j : RedJob) : Nat := dfld j.words 1 23 16
def RedJob.bucketId (j : RedJob) : Nat := dfld j.words 2 15 0
def RedJob.count (j : RedJob) : Nat := j.words.getD 3 0
def RedJob.src (j : RedJob) : Nat := daddr j.words 5

def State.redJob (s : State) (n : Nat) : RedJob := tget s.red.jobs n
def State.setRedJob (s : State) (n : Nat) (j : RedJob) : State :=
  { s with red := { s.red with jobs := tput s.red.jobs n j } }

/-- The completion record of a contribute descriptor: laid out as R118, every count 0 (R359). -/
def RedJob.record (j : RedJob) (st : Status) : List Nat :=
  [dfld j.words 1 15 0 + st.code * 2 ^ 16, 0, 0, 0, 0, 0, j.index, 0]

/-- A contribute descriptor whose contributions are all accepted completes (R359). -/
def State.redComplete (s : State) (n : Nat) : State :=
  let j := s.redJob n
  if j.accepted < j.count then s
  else
    let s := s.qCompleted .reduction j.t j.c n { words := j.record .ok, after := none }
    let s := s.raiseDone .reduction j.t j.c (dfld j.words 0 3 3 == 1)
    { s with red := { s.red with jobs := sparseDrop s.red.jobs n } }

/-- Reserved fields of a contribute descriptor are 0 (R91, R358). -/
def redReservedOk (d : List Nat) : Bool :=
  dfld d 0 1 0 == 0 && dfld d 0 31 10 == 0 && dfld d 1 31 24 == 0 && dfld d 2 31 16 == 0 && daddrOk d 5
  && (List.range 9).all fun i => d.getD (7 + i) 0 == 0

/-- The checks of R359: the status a contribute descriptor is rejected with. -/
def State.redChecks (s : State) (c : Nat) (d : List Nat) : Option Status :=
  if !redReservedOk d || daddr d 5 % 4 != 0 then some .badDescriptor
  else
    match s.grpFor (dfld d 1 23 16) s.activeEpoch with
    | none => some .badDescriptor
    | some g =>
      if g.owner != c || g.aborted || dfld d 2 15 0 ≥ g.nBuckets then some .badDescriptor
      else if d.getD 4 0 + d.getD 3 0 > (s.bucket g (dfld d 2 15 0)).elements then some .lengthRange
      else none

/-- CONTRIBUTE_ISSUE: the contribute descriptor at the head of the reduction queue is checked and issued (R359). -/
def State.contributeIssue (s : State) (t c : Nat) : State :=
  let a := s.descAddr .reduction t c
  let d := s.descWords .reduction t c
  let index := s.qHead .reduction t c
  if !s.qCanIssue .reduction t c || (dfld d 0 4 4 == 1 && !s.qIdle .reduction t c) then s
  else if !descRegionOk .reduction t a then s.unitFault c t 6 causeAddress a 0 index
  else if s.trafficHeld (drumIsland t) [(a, 64)] then s
  else
    match s.knownBad a 64 with
    | some b => s.unitUe c t 6 b 0 index
    | none =>
      match s.redChecks c d with
      | some st =>
        s.qReject .reduction t c (dfld d 0 2 2 == 1) (dfld d 0 3 3 == 1)
          [dfld d 1 15 0 + st.code * 2 ^ 16, 0, 0, 0, 0, 0, index, 0]
      | none =>
        let g := s.grp (grpKey (dfld d 1 23 16) s.activeEpoch)
        let n := s.red.nextJob
        let j : RedJob :=
          { t := t, c := c, words := d, index := index, epoch := s.activeEpoch, step := s.stepNo,
            sAct := (s.bucket g (dfld d 2 15 0)).sActive, sampled := s.sample c, accepted := 0, complete := false }
        let s := s.qIssued .reduction t c n (dfld d 0 2 2 == 1 && s.member c)
        let s := { s with red := { s.red with jobs := tput s.red.jobs n j, nextJob := n + 1 } }
        s.redComplete n

/-- A contribution about to be made: group, epoch, bucket, element, FP32 code and scale. -/
structure Contribution where
  group : Nat
  epoch : Nat
  bucket : Nat
  elem : Nat
  value : Nat
  sAct : Int
deriving DecidableEq, Repr

/-- The next contribution of a source: a draining route 1 tile, in row-major order of its elements, or a contribute
descriptor, in array order (R100, R356). -/
def State.nextContribution (s : State) (src : RedSource) : Option Contribution :=
  match src with
  | .tile n i =>
    let j := s.job n
    let x := j.tile i
    let w := x.col1 - x.col0
    if s.hasJob n && j.route == 1 && x.st == .draining && x.sent < x.elements then
      let m := x.row0 + x.sent / w
      let c := x.col0 + x.sent % w
      some { group := dfld j.desc 3 23 16, epoch := j.redEpoch, bucket := dfld j.desc 3 15 0,
             elem := j.desc.getD 10 0 + m * j.n + c, value := s.word (j.accAddr (s.tileSlot j x) x m c), sAct := j.sAct }
    else none
  | .desc n =>
    let j := s.redJob n
    if (s.red.jobs.any fun y => y.1 == n) && j.accepted < j.count then
      some { group := j.group, epoch := j.epoch, bucket := j.bucketId, elem := j.words.getD 4 0 + j.accepted,
             value := s.word (j.src + 4 * j.accepted), sAct := j.sAct }
    else none

/-- One contribution of a source has been taken. -/
def State.contributed (s : State) (src : RedSource) : State :=
  match src with
  | .tile n i =>
    let x := (s.job n).tile i
    if s.hasJob n then s.setTile n i { x with sent := x.sent + 1 } else s
  | .desc n =>
    if s.red.jobs.any fun y => y.1 == n then
      (s.setRedJob n { s.redJob n with accepted := (s.redJob n).accepted + 1 }).redComplete n
    else s

/-- The next contribution of a source cannot be read: an uncorrectable error in a tile's slot (R120), or for a contribute
descriptor's array an address fault or an uncorrectable error of the reduction engine (R27, R319). -/
def State.contribFault (s : State) (src : RedSource) (ecc : Ecc) : Option State :=
  match src with
  | .tile n i =>
    let j := s.job n
    if ecc.inAcc then some (s.accUe j (s.tileSlot j (j.tile i))) else none
  | .desc n =>
    let j := s.redJob n
    let a := j.src + 4 * j.accepted
    if !unitReadOk a 4 then some (s.unitFault j.c j.t 6 causeAddress a (dfld j.words 1 15 0) j.index)
    else (s.readError a 4 ecc).map fun b => s.unitUe j.c j.t 6 b (dfld j.words 1 15 0) j.index

/-- The corrections met in reading the next contribution of a source are counted; a tile's job notes those of its slot (R118). -/
def State.contribFixed (s : State) (src : RedSource) (ecc : Ecc) : State :=
  match src with
  | .tile n i => let j := s.job n; s.accFixed n (s.tileSlot j (j.tile i)) ecc
  | .desc n => let j := s.redJob n; s.countFixed j.t (j.src + 4 * j.accepted) 4 ecc

/-- The island of a source, and the bytes of memory its next contribution is read from. -/
def State.contribFrom (s : State) (src : RedSource) : Nat × List (Nat × Nat) :=
  match src with
  | .tile n _ => (cupolaIsland (s.job n).t, [])
  | .desc n => let j := s.redJob n; (drumIsland j.t, [(j.src + 4 * j.accepted, 4)])

/-- A contribution waits: its bytes, its way to the home slice, or the traffic of that slice to the work area is held (R17, R20,
R322). -/
def State.contribWaits (s : State) (src : RedSource) (k : Contribution) (g : Grp) : Bool :=
  let x := s.bucket g k.bucket
  let o := shardOf x g k.elem
  let home := drumIsland x.home
  let (i, l) := s.contribFrom src
  s.trafficHeld i l || !s.wayOpen i home || s.trafficHeld home (segSpans x g o ((k.elem - shardLo x g o) / 4096))

/-- CONTRIBUTION_ACCEPT: the home slice takes the next contribution of a source (R356); one that would open a 65th bucket
waits (R361), one to an aborted group is discarded (R380), and one whose traffic is held is not taken yet (R20). -/
def State.contributionAccept (s : State) (src : RedSource) (ecc : Ecc) : State :=
  match s.nextContribution src with
  | none => s
  | some k =>
    match s.contribFault src ecc with
    | some s => s
    | none =>
      match s.grpFor k.group k.epoch with
      | none => (s.contribFixed src ecc).contributed src
      | some g =>
        let key := grpKey k.group k.epoch
        if g.aborted then (s.contribFixed src ecc).contributed src
        else if s.contribWaits src k g then s
        else if s.mayOpen key k.bucket then
          ((s.contribFixed src ecc).accept k.group key k.bucket k.elem k.value k.sAct
            (ecc.beyond (s.contribFrom src).2)).settleRed.contributed src
        else if s.red.waiting.contains src then s
        else { s with red := { s.red with waiting := s.red.waiting ++ [src] } }

/-- BUCKET_OPEN: the first source that waits for a free open bucket proceeds, once one is free (R361). -/
def State.bucketOpen (s : State) : State :=
  let free := s.red.waiting.find? fun src =>
    match s.nextContribution src with
    | some k => s.mayOpen (grpKey k.group k.epoch) k.bucket
    | none => true
  match free with
  | none => s
  | some src =>
    let s := { s with red := { s.red with waiting := s.red.waiting.filter (· != src) } }
    s.contributionAccept src .clean

/-! ### Group table base (R383) -/

/-- A group entry of the table is valid. -/
def State.anyGroup (s : State) : Bool := (List.range 512).any fun k => (s.grp k).valid

/-! ### Completion (R87, R88) -/

/-- The unit a completion record write faults in: the queue's own (R121, R167, R476). -/
def queueUnit (k : QKind) : Nat :=
  match k with
  | .matrix => 1 | .sleeve => 3 | .mover => 5 | .reduction => 6 | .decode => 7 | .encode => 7

/-- The island from which a queue kind's unit works (R11, R15). -/
def queueIsland (k : QKind) (t : Nat) : Nat :=
  match k with
  | .matrix => cupolaIsland t | .sleeve => cupolaIsland t | .mover => drumIsland t | .reduction => drumIsland t
  | .decode => codecIsland | .encode => codecIsland

/-- Bytes of a completion record (R88). -/
def recBytes (ws : List Nat) : Nat := 4 * ws.length

/-- The job tag and the descriptor index in a completion record (R118, R166, R309, R339). -/
def recTag (ws : List Nat) : Nat := dfld ws 0 15 0
def recIndex (k : QKind) (ws : List Nat) : Nat :=
  match k with
  | .sleeve => dfld ws 5 15 0
  | .decode => dfld ws 7 31 16
  | .encode => dfld ws 7 31 16
  | _ => dfld ws 6 15 0

/-- The address of a queue's next completion record. -/
def State.cqAddr (s : State) (k : QKind) (t c : Nat) (ws : List Nat) : Nat :=
  s.cqBase k t c + recBytes ws * s.cqTail k t c

/-- The record at the front of the queue has been dealt with: the next one, if there is one, holds the queue where it finds the
ring full (R88). -/
def State.recordGone (s : State) (k : QKind) (t c : Nat) (rest : List DoneRec) : State :=
  s.setQ k t c { s.q k t c with done := rest, blocked := !rest.isEmpty && s.cqFull k t c }

/-- The word a record asks to be stored after it (R339): a store its context may not make is an address fault (R25, R462). -/
def State.recordAfter (s : State) (k : QKind) (t c : Nat) (r : DoneRec) : State :=
  match r.after with
  | none => s
  | some (b, v, l) =>
    if s.ctxWriteOk l c b 4 then s.storeNum b 4 v
    else s.unitFault c t (queueUnit k) causeAddress b (recTag r.words) (recIndex k r.words)

/-- COMPLETION_RECORD_WRITE: the oldest record that waits is written to the completion ring once there is room, and then
the word that follows it; one outside the queue memory is not written and faults the context (R86, R88, R339). Held stores wait
(R20, R345). -/
def State.recordWrite (s : State) (k : QKind) (t c : Nat) : State :=
  match (s.q k t c).done with
  | [] => s
  | r :: rest =>
    let a := s.cqAddr k t c r.words
    let n := recBytes r.words
    let after := match r.after with
      | some (b, _, _) => [(b, 4)]
      | none => []
    if s.cqFull k t c then s
    else if !(cqRegionOk k t a && cqRegionOk k t (a + n - 1)) then
      (s.recordGone k t c rest).unitFault c t (queueUnit k) causeAddress a (recTag r.words) (recIndex k r.words)
    else if s.storesHeld (queueIsland k t) ((a, n) :: after) then s
    else
      let s := s.storeWords a r.words
      let s := s.setFld (qRegs k).cqTail (qTower k t) c mtxCqTail_tail ((s.cqTail k t c + 1) % s.cqSize k t c)
      (s.recordGone k t c rest).recordAfter k t c r

/-! ### The commands -/

/-- SLOT_CLAIM (R98). -/
def execSlotClaim (job tile : Nat) (s : State) : Host.Outcome State Fault Refusal := .next (s.slotClaim job tile)
/-- STAGE_CHUNK_ARRIVE (R132). -/
def execStageChunkArrive (job tgroup : Nat) (ecc : Ecc) (s : State) : Host.Outcome State Fault Refusal :=
  .next (s.stageArrive job tgroup ecc)
/-- CHUNK_ISSUE (R465). -/
def execChunkIssue (t : Tower) (window : Nat) (aged : Option Nat) (s : State) : Host.Outcome State Fault Refusal :=
  .next (s.chunkIssue t.val window aged)
/-- CHUNK_FOLD (R72). -/
def execChunkFold (t : Tower) (ecc : Ecc) (s : State) : Host.Outcome State Fault Refusal := .next (s.chunkFold t.val ecc)
/-- SLOT_DRAIN_COMPLETE (R567). -/
def execSlotDrainComplete (t : Tower) (slot : BitVec 5) (ecc : Ecc) (s : State) : Host.Outcome State Fault Refusal :=
  .next (s.slotDrain t.val slot.toNat ecc)
/-- TILE_COPY (R112). -/
def execTileCopy (job : Nat) (tile : ReadBy) (s : State) : Host.Outcome State Fault Refusal :=
  .next (s.tileCopy job tile.num tile.ecc)
/-- SPILL_PARTIAL (R146). -/
def execSpillPartial (job : Nat) (tile : ReadBy) (s : State) : Host.Outcome State Fault Refusal :=
  .next (s.spillPartial job tile.num tile.ecc)
/-- RELOAD_PARTIAL (R146). -/
def execReloadPartial (job : Nat) (tile : ReadBy) (s : State) : Host.Outcome State Fault Refusal :=
  .next (s.reloadPartial job tile.num tile.ecc)
/-- COMPLETION_RECORD_WRITE (R88). -/
def execCompletionRecordWrite (k : QKind) (t : Tower) (c : CtxId) (s : State) : Host.Outcome State Fault Refusal :=
  .next (s.recordWrite k t.val c.val)
/-- CONTRIBUTE_ISSUE (R359). -/
def execContributeIssue (t : Tower) (c : CtxId) (s : State) : Host.Outcome State Fault Refusal :=
  .next (s.contributeIssue t.val c.val)
/-- CONTRIBUTION_ACCEPT (R356). -/
def execContributionAccept (src : RedSource) (ecc : Ecc) (s : State) : Host.Outcome State Fault Refusal :=
  .next (s.contributionAccept src ecc)
/-- BUCKET_OPEN (R361). -/
def execBucketOpen (s : State) : Host.Outcome State Fault Refusal := .next s.bucketOpen

end Sys2Proof.Machine
end

