-- ==== Sys2Proof/Machine/VecFp.lean ====
section
/-! DEFINITION. Floating-point arithmetic of the vector cores (R212 to R214). -/

namespace Sys2Proof.Machine

/-- Vector d from vectors a and b, floating-point vtypes only. -/
def shapeFp2 (x : Seat) : Shape := { form := .reg, d := .v 1, a := .v 1, b := .v 1, z := true, mu := true, ok := vtFp x }
/-- Vector d from vectors a, b and c. -/
def shapeFp3 (x : Seat) : Shape := { shapeFp2 x with c := .v 1 }
/-- Vector d from vector a. -/
def shapeFp1 (x : Seat) : Shape := { shapeFp2 x with b := .none }

/-- vd = `op` va vb per active element, rounded once (R212). -/
def fpOp2 (t : Tower) (i : Nat) (f : Fields) (op : FloatFmt → FVal → FVal → Conv) (s : State) : State :=
  thrOp t i f shapeFp2 (fun x =>
    let ff := vtLayout x
    x.vecOp f x.w fun j =>
      let r := op ff (x.fp ff f.a.toNat j) (x.fp ff f.b.toNat j)
      (r.code, r.flags)) s

/-- vd = `op` va vb vc per active element, rounded once (R212). -/
def fpOp3 (t : Tower) (i : Nat) (f : Fields) (op : FloatFmt → FVal → FVal → FVal → Conv) (s : State) : State :=
  thrOp t i f shapeFp3 (fun x =>
    let ff := vtLayout x
    x.vecOp f x.w fun j =>
      let r := op ff (x.fp ff f.a.toNat j) (x.fp ff f.b.toNat j) (x.fp ff f.c.toNat j)
      (r.code, r.flags)) s

/-- vd = `op` va per active element; `op` is given the element's code for its free choice. -/
def fpOp1 (t : Tower) (i : Nat) (f : Fields) (op : FloatFmt → Nat → Nat → FVal → Conv) (s : State) : State :=
  thrOp t i f shapeFp1 (fun x =>
    let ff := vtLayout x
    x.vecOp f x.w fun j =>
      let r := op ff (vtCode x.sc.vtype) (x.elem f.a.toNat x.w j) (x.fp ff f.a.toNat j)
      (r.code, r.flags)) s

/-- VFADD: vd = va + vb (R212). -/
def execVfadd (t : Tower) (i : Nat) (f : Fields) (s : State) : Host.Outcome State Fault Refusal :=
  .next (fpOp2 t i f fpAdd s)

/-- VFSUB: vd = va − vb (R212). -/
def execVfsub (t : Tower) (i : Nat) (f : Fields) (s : State) : Host.Outcome State Fault Refusal :=
  .next (fpOp2 t i f (fun ff a b => fpAdd ff a b.neg) s)

/-- VFMUL: vd = va × vb (R212). -/
def execVfmul (t : Tower) (i : Nat) (f : Fields) (s : State) : Host.Outcome State Fault Refusal :=
  .next (fpOp2 t i f fpMul s)

/-- VFMA: vd = va × vb + vc, rounded once (R212). -/
def execVfma (t : Tower) (i : Nat) (f : Fields) (s : State) : Host.Outcome State Fault Refusal :=
  .next (fpOp3 t i f fpFma s)

/-- VFNMA: vd = −(va × vb) + vc, rounded once (R212). -/
def execVfnma (t : Tower) (i : Nat) (f : Fields) (s : State) : Host.Outcome State Fault Refusal :=
  .next (fpOp3 t i f (fun ff a b c => fpFma ff a.neg b c) s)

/-- VFMIN: vd = minimum(va, vb) (R213). -/
def execVfmin (t : Tower) (i : Nat) (f : Fields) (s : State) : Host.Outcome State Fault Refusal :=
  .next (fpOp2 t i f (fun ff a b => ff.encode .nearest (a.minimum b)) s)

/-- VFMAX: vd = maximum(va, vb) (R213). -/
def execVfmax (t : Tower) (i : Nat) (f : Fields) (s : State) : Host.Outcome State Fault Refusal :=
  .next (fpOp2 t i f (fun ff a b => ff.encode .nearest (a.maximum b)) s)

/-- Predicate `p` of two values: with a NaN, 1 for NE and UNORD alone (R213). -/
def fpPred (p : Nat) (a b : FVal) : Bool :=
  match a.cmp b with
  | some o => if p == 6 then false else if p == 7 then true else predOf p o
  | none => p == 1 || p == 6

/-- LT, LE, GT and GE with a NaN set invalid (R213). -/
def fpPredFlags (p : Nat) (a b : FVal) : FFlags :=
  { FFlags.none with invalid := 2 ≤ p && p ≤ 5 && (a.cmp b).isNone }

/-- VFCMP: bit i of mask register d = predicate fn[2:0] of va and vb (R212, R213). -/
def execVfcmp (t : Tower) (i : Nat) (f : Fields) (s : State) : Host.Outcome State Fault Refusal :=
  .next (thrOp t i f (fun x => { shapeFp2 x with d := .m, fn := true, ok := vtFp x && f.fn / 8 == 0 }) (fun x =>
    let ff := vtLayout x
    let p := f.fn % 8
    (x.writeMask f fun j =>
      if x.active f j then some (fpPred p (x.fp ff f.a.toNat j) (x.fp ff f.b.toNat j)) else none).orFlags
      (orAll x.sc.vl fun j =>
        if x.active f j then fpPredFlags p (x.fp ff f.a.toNat j) (x.fp ff f.b.toNat j) else FFlags.none)) s)

/-- VFDIV: vd = va / vb, correctly rounded (R213). -/
def execVfdiv (t : Tower) (i : Nat) (f : Fields) (s : State) : Host.Outcome State Fault Refusal :=
  .next (fpOp2 t i f fpDiv s)

/-- VFSQRT: vd = square root of va, correctly rounded (R213). -/
def execVfsqrt (t : Tower) (i : Nat) (f : Fields) (s : State) : Host.Outcome State Fault Refusal :=
  .next (fpOp1 t i f (fun ff _ _ a => fpSqrt ff a) s)

/-- VFEXP2: vd = 2^va, within 1 unit in the last place (R213). -/
def execVfexp2 (t : Tower) (i : Nat) (f : Fields) (s : State) : Host.Outcome State Fault Refusal :=
  .next (fpOp1 t i f (fun ff c n a => fpExp2 ff (Config.exp2Pick c n) a) s)

/-- VFLOG2: vd = log2(va), within 1 unit in the last place (R213). -/
def execVflog2 (t : Tower) (i : Nat) (f : Fields) (s : State) : Host.Outcome State Fault Refusal :=
  .next (fpOp1 t i f (fun ff c n a => fpLog2 ff (Config.log2Pick c n) a) s)

/-- One level of the sum tree: positions 2j and 2j + 1 paired; the conditions raised so far ride along (R214). -/
def treeLevel (ff : FloatFmt) (l : List (Option Nat)) (fl : FFlags) : List (Option Nat) × FFlags :=
  match l with
  | some a :: some b :: rest =>
    let r := fpAdd ff (ff.decode a) (ff.decode b)
    let (tl, g) := treeLevel ff rest (fl.or r.flags)
    (some r.code :: tl, g)
  | some a :: none :: rest => let (tl, g) := treeLevel ff rest fl; (some a :: tl, g)
  | none :: b :: rest => let (tl, g) := treeLevel ff rest fl; (b :: tl, g)
  | [a] => ([a], fl)
  | [] => ([], fl)

/-- The fixed tree over `n` levels (R214). -/
def treeSum (ff : FloatFmt) (n : Nat) (l : List (Option Nat)) (fl : FFlags) : List (Option Nat) × FFlags :=
  match n with
  | 0 => (l, fl)
  | j + 1 => let (m, g) := treeLevel ff l fl; treeSum ff j m g

/-- The reductions' shape: element 0 of d from every element of a. -/
def shapeRed (x : Seat) : Shape := { shapeFp1 x with elementwise := false }

/-- VFREDSUM: element 0 of vd = sum of the active elements of va in a fixed tree; +0 when none (R214). -/
def execVfredsum (t : Tower) (i : Nat) (f : Fields) (s : State) : Host.Outcome State Fault Refusal :=
  .next (thrOp t i f shapeRed (fun x =>
    let ff := vtLayout x
    let leaves := (List.range (vlmax x.w)).map fun j =>
      if x.active f j then some (x.elem f.a.toNat x.w j) else none
    let (root, fl) := treeSum ff 6 leaves FFlags.none
    let v := match root with
      | some c :: _ => c
      | _ => 0
    (x.writeElems f x.w fun j => if j == 0 then some v else none).orFlags
      (if x.sc.vl == 0 then FFlags.none else fl)) s)

/-- VFREDMAX: element 0 of vd = maximum of the active elements of va; −infinity when none (R214). -/
def execVfredmax (t : Tower) (i : Nat) (f : Fields) (s : State) : Host.Outcome State Fault Refusal :=
  .next (thrOp t i f shapeRed (fun x =>
    let ff := vtLayout x
    let top := (List.range x.sc.vl).foldl (fun m j =>
      if x.active f j then m.maximum (x.fp ff f.a.toNat j) else m) (FVal.inf true)
    x.writeElems f x.w fun j => if j == 0 then some (ff.encode .nearest top).code else none) s)

end Sys2Proof.Machine
end

