-- ==== Sys2Proof/Machine/Attention.lean ====
section
/-! DEFINITION. Attention jobs: issue, the pattern, softmax, recompute and gradient drains, finalisation (R235 to R257). -/

namespace Sys2Proof.Machine

/-! ### The descriptor (R243, R261) -/

/-- Signed byte of a descriptor word. -/
def sbyte (d : List Nat) (i lo : Nat) : Int := untwos 8 (dfld d i (lo + 7) lo)

def Att.gridW (a : Att) : Nat := dfld a.words 3 15 0
def Att.gridH (a : Att) : Nat := dfld a.words 3 31 16
def Att.scale (a : Att) : FVal := ffFp32.decode (a.words.getD 2 0)
def Att.ldo (a : Att) : Nat := a.words.getD 9 0
def Att.ldp (a : Att) : Nat := a.words.getD 10 0

/-- Grid width and height are at least 1, and at most 1,024 rows and 1,024 positions are global (R243); a value outside its
range is treated as a reserved field that is not zero (DEDUCED, log entry 37). -/
def attRangesOk (w : List Nat) : Bool :=
  dfld w 3 15 0 != 0 && dfld w 3 31 16 != 0 && dfld w 1 10 0 ≤ 1024 && dfld w 1 26 16 ≤ 1024

/-- Reserved fields of an attention descriptor and of the address fields its pass uses are 0 (R91, R243). -/
def attReservedOk (w : List Nat) : Bool :=
  let pass := dfld w 0 1 0
  let paged := dfld w 0 2 2 == 1
  dfld w 0 5 5 == 0 && dfld w 0 31 20 == 0 && dfld w 1 15 11 == 0 && dfld w 1 31 27 == 0 && dfld w 8 31 16 == 0
  && (List.range 4).all (fun i => w.getD (28 + i) 0 == 0)
  && (paged || pass != 0 || daddrOk w 12) && (!paged || daddrOk w 14) && daddrOk w 16 && (pass != 0 || daddrOk w 18)
  && daddrOk w 20 && (pass != 2 || (daddrOk w 22 && daddrOk w 24)) && (pass == 0 || daddrOk w 26)

/-- The sequence header passes R261: reserved fields 0, max_pages not 0, and a row width its format has (log entry 38). -/
def seqHeaderOk (h : List Nat) : Bool :=
  let units := dfld h 0 11 8
  dfld h 0 7 2 == 0 && dfld h 0 15 12 == 0 && dfld h 2 31 17 == 0 && dfld h 0 31 16 != 0
  && (List.range 13).all (fun i => h.getD (3 + i) 0 == 0)
  && 1 ≤ units && units ≤ (if dfld h 0 0 0 == 1 then 4 else 2)

/-- The format code of a sequence (R258, R261). -/
def seqFmt (h : List Nat) : Nat := if dfld h 0 0 0 == 1 then Fmt.e2m1.code else Fmt.e4m3.code

/-- Entry `k` of the sequence table at `a`: present, page base and scale block base (R261). -/
def State.seqEntry (s : State) (a k : Nat) : Bool × Nat × Nat :=
  let e := s.wordsAt (a + 64 + 16 * k) 4
  (dfld e 0 0 0 == 1, dfld e 0 31 16 * 2 ^ 16 + dfld e 1 15 0 * 2 ^ 32, dfld e 2 31 12 * 2 ^ 12 + dfld e 3 15 0 * 2 ^ 32)

/-- [a, a + n) lies in tower `t`'s drum SRAM window. -/
def inOwnDrum (t a n : Nat) : Bool := inDrum a && drumOf a == t && inDrum (a + n - 1) && drumOf (a + n - 1) == t

/-! ### The pattern and the bias (R246 to R248) -/

/-- Token coordinates: column, row, frame of windowed position `i` from frame `base`. -/
def Att.coords (a : Att) (base i : Nat) : Nat × Nat × Nat :=
  (i % a.gridW, i / a.gridW % a.gridH, base + i / (a.gridW * a.gridH))

/-- Coordinates of query row `m` and key position `j`, both windowed. -/
def Att.qCoords (a : Att) (m : Nat) : Nat × Nat × Nat := a.coords (a.words.getD 4 0) (m - a.nGlobalQ)
def Att.kCoords (a : Att) (j : Nat) : Nat × Nat × Nat := a.coords (a.words.getD 5 0) (j - a.nGlobalK)

/-- The raster index of coordinates (R246). -/
def Att.raster (a : Att) (p : Nat × Nat × Nat) : Nat := (p.2.2 * a.gridH + p.2.1) * a.gridW + p.1

/-- Δt, Δy and Δx of a pair. -/
def Att.deltas (a : Att) (m j : Nat) : Int × Int × Int :=
  let q := a.qCoords m
  let k := a.kCoords j
  ((k.2.2 : Int) - q.2.2, (k.2.1 : Int) - q.2.1, (k.1 : Int) - q.1)

/-- A half-window admits a difference; 255 means no limit. -/
def halfWindow (w : Nat) (d : Int) : Bool := w == 255 || (-(w : Int) ≤ d && d ≤ w)

/-- Element (m, j) of a score tile of `k` keys is live (R246). -/
def Att.live (a : Att) (k m j : Nat) : Bool :=
  if j ≥ k then false
  else if m < a.nGlobalQ || j < a.nGlobalK then true
  else
    let (dt, dy, dx) := a.deltas m j
    sbyte a.words 6 0 ≤ dt && dt ≤ sbyte a.words 6 8
      && halfWindow (dfld a.words 6 23 16) dy && halfWindow (dfld a.words 6 31 24) dx
      && !(a.causal && a.raster (a.kCoords j) > a.raster (a.qCoords m))

/-- The least and greatest of a non-empty list. -/
def spanOf (l : List Nat) : Nat × Nat := (l.foldl min (l.headD 0), l.foldl max 0)

/-- The differences between two coordinate ranges meet a window. -/
def meets (q k : Nat × Nat) (lo hi : Int) : Bool := (k.1 : Int) - q.2 ≤ hi && lo ≤ (k.2 : Int) - q.1

/-- Differences between two ranges meet a half-window. -/
def meetsHalf (q k : Nat × Nat) (w : Nat) : Bool := w == 255 || meets q k (-(w : Int)) w

/-- The query tile of rows [r0, r1) visits the key tile of positions [k0, k1) (R247). -/
def Att.visits (a : Att) (r0 r1 k0 k1 : Nat) : Bool :=
  if r0 < a.nGlobalQ || k0 < a.nGlobalK then r0 < r1 && k0 < k1
  else
    let qs := (List.range (r1 - r0)).map fun i => a.qCoords (r0 + i)
    let ks := (List.range (k1 - k0)).map fun i => a.kCoords (k0 + i)
    let ax (f : Nat × Nat × Nat → Nat) : (Nat × Nat) × (Nat × Nat) := (spanOf (qs.map f), spanOf (ks.map f))
    let t := ax fun p => p.2.2
    let y := ax fun p => p.2.1
    let x := ax fun p => p.1
    !qs.isEmpty && !ks.isEmpty && meets t.1 t.2 (sbyte a.words 6 0) (sbyte a.words 6 8)
      && meetsHalf y.1 y.2 (dfld a.words 6 23 16) && meetsHalf x.1 x.2 (dfld a.words 6 31 24)
      && (!a.causal || (spanOf (ks.map a.raster)).1 ≤ (spanOf (qs.map a.raster)).2)

/-- Clamp to a range. -/
def clampInt (lo hi v : Int) : Int := max lo (min hi v)

/-- Sizes of the three bias ranges: t, y, x (R248). -/
def biasSizes (w : List Nat) : Int × Int × Int :=
  (sbyte w 7 8 - sbyte w 7 0 + 1, sbyte w 7 24 - sbyte w 7 16 + 1, sbyte w 8 8 - sbyte w 8 0 + 1)

/-- The bias of pair (m, j), a BF16 value widened exactly (R248). -/
def State.bias (s : State) (t : Nat) (a : Att) (m j : Nat) : FVal :=
  if !a.biasEn || m < a.nGlobalQ || j < a.nGlobalK then .zero
  else
    let w := a.words
    let (dt, dy, dx) := a.deltas m j
    let (_, ny, nx) := biasSizes w
    let ct := clampInt (sbyte w 7 0) (sbyte w 7 8) dt - sbyte w 7 0
    let cy := clampInt (sbyte w 7 16) (sbyte w 7 24) dy - sbyte w 7 16
    let cx := clampInt (sbyte w 8 0) (sbyte w 8 8) dx - sbyte w 8 0
    let e := ((ct * ny + cy) * nx + cx).toNat
    ffBf16.decode (tget s.atn.bias ((t * 64 + dfld w 0 11 6) * 4096 + e)).toNat

/-! ### Issue (R235 to R239, R244, R245) -/

/-- The bias table is loaded in tower `t` (R249). -/
def State.biasLoaded (s : State) (t i : Nat) : Bool :=
  (if i < 32 then s.reg .atnBiasValidLo t 0 else s.reg .atnBiasValidHi t 0).getLsbD (i % 32)

/-- Bytes of the FWD stage (R242). -/
def stageBytes (d w : List Nat) : Nat :=
  let (rows, cols) := shapeDims (dfld d 0 17 16)
  2 * rows * cols * (if dfld w 0 15 12 == 3 then 1 else 2)

/-- The table of R244 down to the header's own checks. -/
def State.attChecks1 (s : State) (t : Nat) (d w : List Nat) (b : Bounds) (hdr : List Nat) : List (Bool × Status) :=
  let (nt, ny, nx) := biasSizes w
  let biasEn := dfld w 0 4 4 == 1
  let paged := dfld w 0 2 2 == 1
  let seqIn := inOwnDrum t (daddr w 14) 64
  [ (dfld d 0 3 0 != 0 || dfld b.loop 0 1 0 != 0 || dfld b.loop 0 9 4 != 0 || dfld w 0 1 0 == 3 || !attReservedOk w
      || !attRangesOk w,
      .badDescriptor),
    (b.n > (shapeDims (dfld d 0 17 16)).2, .badDescriptor),
    (sbyte w 6 0 > sbyte w 6 8 || nt < 1 || ny < 1 || nx < 1 || (biasEn && nt * ny * nx > 4096), .badDescriptor),
    (biasEn && !s.biasLoaded t (dfld w 0 11 6), .badDescriptor),
    (!(dfld w 0 15 12 == 2 || dfld w 0 15 12 == 3) || dfld w 0 19 16 > 2, .badFormat),
    (paged && seqIn && (dfld d 0 11 8 != seqFmt hdr || b.n > 64 * dfld hdr 0 11 8), .badFormat),
    (paged && (!seqIn || !seqHeaderOk hdr), .badDescriptor) ]

/-- The rest of the table of R244. -/
def State.attChecks2 (s : State) (t c : Nat) (d w : List Nat) (b : Bounds) : List (Bool × Status) :=
  let fwd := dfld w 0 1 0 == 0
  let paged := dfld w 0 2 2 == 1
  let pages := (b.k + 255) / 256
  [ ((fwd && !paged && daddr w 12 % 256 != 0) || (paged && daddr w 14 % 64 != 0) || daddr w 16 % 8 != 0
      || (fwd && daddr w 18 % 256 != 0) || daddr w 20 % 256 != 0 || (fwd && w.getD 9 0 % 16 != 0)
      || (!fwd && w.getD 10 0 % 16 != 0), .badDescriptor),
    (dfld w 1 10 0 > b.m || dfld w 1 26 16 > b.k, .lengthRange),
    (fwd && (stageBytes d w > w.getD 11 0 * 1024 || !inScratch t (daddr w 20) (stageBytes d w)), .lengthRange),
    (paged && (List.range pages).any (fun k => !(s.seqEntry (daddr w 14) k).1), .kvPageAbsent),
    (dfld d 1 4 0 + 3 > (s.slotsOf c t).length, .accSpace) ]

/-- The key tiles that the query tile of rows [r0, r1) visits, in ascending order (R238, R247). -/
def attSeen (j : MtxJob) (a : Att) (r0 r1 : Nat) : List Nat :=
  (List.range ((j.k + j.cols - 1) / j.cols)).filter fun kt =>
    a.visits r0 r1 (kt * j.cols) (min j.k ((kt + 1) * j.cols))

/-- The tile jobs of an attention job in order: for each query tile and each key tile it visits, the score product and in
FWD the value product (R236 to R239). The visits of the whole job use the two score slots, and the two stage tiles, in turn (R239,
R242). -/
def attTiles (j : MtxJob) (a : Att) : List Tile :=
  let visits := (List.range ((j.m + j.rows - 1) / j.rows)).flatMap fun q =>
    let r0 := q * j.rows
    let r1 := min j.m (r0 + j.rows)
    (attSeen j a r0 r1).zipIdx.map fun x => (r0, r1, x.1, x.2)
  let all := visits.zipIdx.flatMap fun y =>
    let (r0, r1, kt, place) := y.1
    let score : Tile :=
      { row0 := r0, row1 := r1, col0 := kt * j.cols, col1 := min j.k ((kt + 1) * j.cols), group := 0, tgroup := 0,
        place := place, slot := j.slotBase + 1 + y.2 % 2, st := .waiting, chunk := 0, omitted := false, begun := false,
        role := .score kt, due := false, sent := 0, visit := y.2 }
    let value : Tile := { score with col0 := 0, col1 := j.n, slot := j.slotBase, role := .value kt }
    if a.fwd then [score, value] else [score]
  all.zipIdx.map fun x => { x.1 with tgroup := x.2 }

/-- Key tiles no query tile visits, counted per query tile (R254). -/
def attOmitted (j : MtxJob) (a : Att) : Nat :=
  let nq := (j.m + j.rows - 1) / j.rows
  let nk := (j.k + j.cols - 1) / j.cols
  (List.range nq).foldl (fun n q =>
    n + ((List.range nk).filter fun kt =>
      !a.visits (q * j.rows) (min j.m ((q + 1) * j.rows)) (kt * j.cols) (min j.k ((kt + 1) * j.cols))).length) 0

/-- The issue of a route 2 descriptor up to the job: R93, R127, then R244. Every check of R93 and of step 1 of R127 that holds
for paged and dense operands alike comes before the attention descriptor is read. An attention job takes no group, stage or
spill of the sequencer, and acc_init has no use in it (log entry 37). The rows of its A and B are N elements long, so that their
MX scale rows have the pitch of n_cap (DEDUCED, log entry 85). -/
def State.attIssue (s : State) (t c : Nat) (d : List Nat) : Except Stop MtxJob := do
  let i := cupolaIsland t
  let aux := daddr d 24
  let dp := (((d.set 8 0).set 9 0).set 14 0).set 15 0
  let lp ← s.issueStep1 t c dp true
  if !descRegionOk .matrix t aux then .error (.fault 4 aux)
  s.reads i 4 [(aux, 128)]
  let w := s.wordsAt aux 32
  let pg := dfld w 0 2 2 == 1
  let seqIn := inOwnDrum t (daddr w 14) 64
  let dz := if pg then dp else d
  let l ← if pg then .ok lp else s.issueStep1 t c d false
  s.reads i 2 (boundSpans l)
  if pg && seqIn then s.reads i 4 [(daddr w 14, 64)]
  let hdr := s.wordsAt (daddr w 14) 16
  let b0 := s.resolve t c dz l
  let b := if pg then { b0 with k := if seqIn then hdr.getD 1 0 else 0 } else b0
  checks [ (b.m > l.getD 6 0 || b.n > l.getD 7 0 || b.k > l.getD 8 0, .lengthRange) ]
  checks (s.attChecks1 t dz w b hdr)
  let pages := if pg then (List.range ((b.k + 255) / 256)).map fun k => (s.seqEntry (daddr w 14) k).2 else []
  if pg then s.reads i 4 [(daddr w 14, 64 + 16 * pages.length)]
  checks (s.attChecks2 t c dz w b)
  s.writesOk i 2 c (expSpans dz [(0, b.m)] pg)
  let a : Att := { words := w, header := hdr, paged := pg, pages := pages, stats := [], finalised := 0 }
  let j := s.newJob t c dz { b with loop := b.loop.set 8 (b.loop.getD 7 0) } [(0, b.m)] pg
  return { j with att := some a, tiles := if b.n == 0 then [] else attTiles j a, tilesOmitted := if b.n == 0 then 0 else attOmitted j a }

/-- ATTENTION_JOB_ISSUE: the route 2 descriptor at the head of the matrix queue and its attention descriptor are checked
and issued (R244). -/
def State.attentionIssue (s : State) (t c : Nat) : State :=
  let a := s.descAddr .matrix t c
  let d := s.descWords .matrix t c
  if !s.mtxReady t c || descRoute d != 2 then s
  else if !descRegionOk .matrix t a then s.unitFault c t 1 causeAddress a 0 (s.qHead .matrix t c)
  else if s.trafficHeld (cupolaIsland t) [(a, 128)] then s
  else
    match s.knownBad a 128 with
    | some b => s.unitUe c t 1 b 0 (s.qHead .matrix t c)
    | none =>
      match s.attIssue t c d with
      | .error e => s.stopIssue t c d e
      | .ok j => s.startJob t c d j (j.att.any (·.paged))

/-! ### Softmax (R250, R251, R254) -/

/-- An FP32 result as a value. -/
def f32 (r : Conv) : FVal := ffFp32.decode r.code
/-- exp in FP32 (R251). -/
def atnExp (v : FVal) : FVal :=
  let c := (ffFp32.encode .nearest v).code
  f32 (fpExp ffFp32 (Config.expPick c) v)
/-- a − b in FP32. -/
def f32Sub (a b : FVal) : FVal := f32 (fpAdd ffFp32 a b.neg)

/-- The initial statistics of a row: −∞ and 0 (R250). -/
def rowStart : RowStat := { m := 0xFF800000, l := 0 }
/-- The statistics of row `r`. -/
def Att.stat (a : Att) (r : Nat) : RowStat := sparseGet a.stats rowStart r

/-- The score at element (m, j): FP32 in the score slot. -/
def State.score (s : State) (j : MtxJob) (x : Tile) (m col : Nat) : FVal :=
  ffFp32.decode (s.word (j.accAddr (s.tileSlot j x) x m col))

/-- z of R250. -/
def State.zOf (s : State) (j : MtxJob) (a : Att) (x : Tile) (m col : Nat) : FVal :=
  if a.live j.k m col then f32 (fpFma ffFp32 (s.score j x m col) a.scale (s.bias j.t a m col)) else .inf true

/-- P as stored: E4M3 holds P × 2^8 in the FWD stage (R242). -/
def Att.pCode (a : Att) (v : FVal) : Nat := (a.fmtP.encode (if a.fmtP == .e4m3 then v.scale 8 else v)).code
/-- The converted value a stage code stands for. -/
def Att.pValue (a : Att) (c : Nat) : FVal := if a.fmtP == .e4m3 then (a.fmtP.decode c).scale (-8) else a.fmtP.decode c

/-- The sum of a row of P in the fixed tree over the tile's columns, in FP32 (R214, R250). -/
def rowSum (vs : List FVal) : FVal :=
  let leaves := vs.map fun v => some (ffFp32.encode .nearest v).code
  match (treeSum ffFp32 11 leaves FFlags.none).1 with
  | some c :: _ => ffFp32.decode c
  | _ => .zero

/-- What R250 makes of a row: new statistics, alpha (none: the output row stays), the codes of P, and whether a live z is
NaN or +∞ (R254). -/
structure RowOut where
  stat : RowStat
  alpha : Option FVal
  p : List Nat
  bad : Bool
deriving Repr

/-- One row of a FWD drain from its z values (R250, R254). -/
def softRow (a : Att) (st : RowStat) (zs : List FVal) : RowOut :=
  let m0 := ffFp32.decode st.m
  let top := zs.foldl FVal.maximum (.inf true)
  let bad := top == .nan || top == .inf false
  if bad || m0 == .nan then
    { stat := { m := ffFp32.nan, l := ffFp32.nan }, alpha := some .nan, p := zs.map fun _ => a.pCode .nan, bad := bad }
  else
    let mnew := m0.maximum top
    if mnew == .inf true then { stat := st, alpha := none, p := zs.map fun _ => 0, bad := false }
    else
      let same := (ffFp32.encode .nearest mnew).code == st.m
      let alpha := if same then FVal.fin false 1 0 else atnExp (f32Sub m0 mnew)
      let p := zs.map fun z => a.pCode (atnExp (f32Sub z mnew))
      let l := fpAdd ffFp32 (f32 (fpMul ffFp32 (ffFp32.decode st.l) alpha)) (rowSum (p.map a.pValue))
      { stat := { m := (ffFp32.encode .nearest mnew).code, l := l.code }, alpha := if same then none else some alpha,
        p := p, bad := false }

/-- The physical output slot of an attention job (R239). -/
def State.outSlot (s : State) (j : MtxJob) : Nat := s.physSlot j.c j.t j.slotBase

/-- The bytes of the P stage that the drain of row `m` of a score tile stores to (R242). -/
def MtxJob.stageSpan (j : MtxJob) (a : Att) (x : Tile) (m : Nat) : Nat × Nat :=
  (j.stageAddr a (x.visit % 2) (m - x.row0) 0, j.cols * (a.fmtP.bits / 8))

/-- The output row `m` of a query tile is multiplied by alpha in its slot (R240, R250). -/
def State.rescaleRow (s : State) (j : MtxJob) (x : Tile) (m : Nat) (alpha : FVal) : State :=
  s.each (List.range j.n) fun s n =>
    let a := slotAddr j.t (s.outSlot j) + ((m - x.row0) * j.cols + n) * 4
    s.putBytes a (bytesOf 4 (fpMul ffFp32 (ffFp32.decode (s.word a)) alpha).code)

/-- One row of a FWD drain: P to the stage, the output rescaled where the query tile has one, statistics kept. -/
def State.fwdRow (s : State) (n : Nat) (x : Tile) (kt m : Nat) : State :=
  let j := s.job n
  match j.att with
  | none => s
  | some a =>
    let zs := (List.range j.cols).map fun i => s.zOf j a x m (kt * j.cols + i)
    let o := softRow a (a.stat m) zs
    let s := s.store (j.stageAddr a (x.visit % 2) (m - x.row0) 0) (o.p.flatMap (bytesOf (a.fmtP.bits / 8)))
    let s := match o.alpha with
      | some v => if x.place == 0 then s else s.rescaleRow j x m v
      | none => s
    s.setJob n { j with
      att := some { a with stats := sparseInsert a.stats m o.stat }, nonfinite := j.nonfinite || o.bad }

/-! ### Backward drains (R255 to R257) -/

/-- The stored statistics of row `r` (R253). -/
def State.rowStats (s : State) (a : Att) (r : Nat) : RowStat :=
  { m := s.word (daddr a.words 16 + 8 * r), l := s.word (daddr a.words 16 + 8 * r + 4) }

/-- The empty encoding (R253). -/
def RowStat.empty (r : RowStat) : Bool := r.m == 0xFF800000 && r.l == 0

/-- The value RECOMP writes at (m, col) (R255). -/
def State.recompElem (s : State) (j : MtxJob) (a : Att) (x : Tile) (m col : Nat) : FVal :=
  let st := s.rowStats a m
  if !a.live j.k m col || st.empty then .zero
  else f32 (fpDiv ffFp32 (atnExp (f32Sub (s.zOf j a x m col) (ffFp32.decode st.m))) (ffFp32.decode st.l))

/-- The value GRAD writes at (m, col) (R256). -/
def State.gradElem (s : State) (j : MtxJob) (a : Att) (x : Tile) (m col : Nat) : FVal :=
  let st := s.rowStats a m
  if !a.live j.k m col || st.empty then .zero
  else
    let b := a.fmtP.bits / 8
    let p := a.fmtP.decode (s.num (daddr a.words 22 + m * a.ldp + col * b) b)
    let dd := ffFp32.decode (s.word (daddr a.words 24 + 4 * m))
    f32 (fpMul ffFp32 (f32 (fpMul ffFp32 a.scale p)) (f32Sub (s.score j x m col) dd))

/-- Bytes of an element a backward pass writes. -/
def Att.backBytes (a : Att) : Nat := (if a.pass == 1 then a.fmtP.bits else a.fmtO.bits) / 8

/-- Byte ranges a backward drain of row `m` reads, and the one it writes. -/
def Att.backReads (a : Att) (x : Tile) (m : Nat) : List (Nat × Nat) :=
  (daddr a.words 16 + 8 * m, 8)
  :: (if a.pass == 2 then
        [(daddr a.words 22 + m * a.ldp + x.col0 * (a.fmtP.bits / 8), (x.col1 - x.col0) * (a.fmtP.bits / 8)),
         (daddr a.words 24 + 4 * m, 4)]
      else [])
def Att.backWrite (a : Att) (x : Tile) (m : Nat) : Nat × Nat :=
  (daddr a.words 20 + m * a.ldp + x.col0 * a.backBytes, (x.col1 - x.col0) * a.backBytes)

/-- One row of a RECOMP or GRAD drain. -/
def State.backRow (s : State) (n : Nat) (x : Tile) (m : Nat) : State :=
  let j := s.job n
  match j.att with
  | none => s
  | some a =>
    let vs := x.colsIn.map fun col => if a.pass == 1 then s.recompElem j a x m col else s.gradElem j a x m col
    let f := if a.pass == 1 then a.fmtP else a.fmtO
    let zbad := a.pass == 1 && x.colsIn.any fun col =>
      a.live j.k m col && (s.zOf j a x m col == .nan || s.zOf j a x m col == .inf false)
    let cs := vs.map f.encode
    let s := s.store (a.backWrite x m).1 (cs.flatMap fun c => bytesOf (f.bits / 8) c.code)
    s.setJob n { j with
      saturated := j.saturated || cs.any (·.sat),
      nonfinite := j.nonfinite || zbad || vs.any FVal.nonfinite || codesNonfinite f (cs.map (·.code)) }

/-- The visit bitmap's bytes: bit qt × n_kt + kt for each pair (R257). -/
def visitMap (j : MtxJob) (a : Att) : List Byte :=
  let nq := (j.m + j.rows - 1) / j.rows
  let nk := (j.k + j.cols - 1) / j.cols
  (List.range ((nq * nk + 7) / 8)).map fun i =>
    BitVec.ofNat 8 ((List.range 8).foldl (fun v b =>
      let k := 8 * i + b
      let q := k / nk
      let kt := k % nk
      if k < nq * nk && a.visits (q * j.rows) (min j.m ((q + 1) * j.rows)) (kt * j.cols) (min j.k ((kt + 1) * j.cols))
      then v + 2 ^ b else v) 0)

/-! ### The drain and finalisation (R238, R240, R250, R252) -/

/-- A read or a write of the attention engine that its job may not make, an uncorrectable error in what it reads, or held traffic
(R20, R26, R121, R319, R322, R345). -/
def State.atnStop (s : State) (j : MtxJob) (rs ws : List (Nat × Nat)) (ecc : Ecc) : Option State :=
  match rs.find? fun x => !unitReadOk x.1 x.2 with
  | some x => some (s.unitFault j.c j.t 4 causeAddress x.1 j.tag j.index)
  | none =>
    match ws.find? fun x => !s.pathWriteOk j.sampled j.t j.c x.1 x.2 with
    | some x => some (s.unitFault j.c j.t 4 causeAddress x.1 j.tag j.index)
    | none =>
      if s.trafficHeld (cupolaIsland j.t) rs || s.storesHeld (cupolaIsland j.t) ws then some s
      else (s.spansError rs ecc).map fun b => s.unitUe j.c j.t 4 b j.tag j.index

/-- The physical slot that an uncorrectable accumulator error lies in. -/
def Ecc.accSlot (ecc : Ecc) : Nat :=
  match ecc with
  | .bad b => b % 0x02000000 / 0x100000
  | _ => 0

/-- A score tile may drain: its job folded it, and every earlier value product of the job is complete (R240). -/
def MtxJob.mayDrain (j : MtxJob) (i : Nat) : Bool :=
  (j.tile i).st == .draining && (j.tiles.take i).all fun y => y.st == .done || (match y.role with
    | .score _ => true
    | _ => false)

/-- The byte ranges a score drain reads, and those it writes: the P stage, or the rows of a backward pass (R242, R253, R255,
R256). -/
def MtxJob.drainReads (a : Att) (x : Tile) : List (Nat × Nat) := if a.fwd then [] else x.rowsIn.flatMap (a.backReads x)
def MtxJob.drainWrites (j : MtxJob) (a : Att) (x : Tile) : List (Nat × Nat) :=
  x.rowsIn.map fun m => if a.fwd then j.stageSpan a x m else a.backWrite x m

/-- SCORE_TILE_DRAIN: the attention engine drains a folded score tile: pattern, bias and softmax in FWD (R250), P in RECOMP
(R255), dS in GRAD (R256). It waits for every earlier value product of the job (R240). An uncorrectable accumulator error
faults the context (R120). -/
def State.scoreDrain (s : State) (n i : Nat) (ecc : Ecc) : State :=
  let j := s.job n
  let x := j.tile i
  match j.att, x.role with
  | some a, .score kt =>
    if !s.hasJob n || !j.mayDrain i then s
    else if ecc.inAcc then s.accUe j ecc.accSlot
    else
      let rs := MtxJob.drainReads a x
      match s.atnStop j rs (j.drainWrites a x) ecc with
      | some s => s
      | none =>
        let s := ((s.countSpans j.t rs ecc).accFixed n (s.tileSlot j x) ecc).accFixed n (s.outSlot j) ecc
        let s := if a.fwd && x.place != 0 then s.keepPast j.t (s.outSlot j) else s
        let s := s.each x.rowsIn fun s m => if a.fwd then s.fwdRow n x kt m else s.backRow n x m
        s.drained n i
  | _, _ => s

/-- The byte ranges finalisation of a query tile writes: output rows and row statistics (R252, R253). -/
def Att.finalWrites (a : Att) (n : Nat) (rows : List Nat) : List (Nat × Nat) :=
  rows.flatMap fun r => [(daddr a.words 18 + r * a.ldo, n * (a.fmtO.bits / 8)), (daddr a.words 16 + 8 * r, 8)]

/-- One output row: O / l, or a zero row for an empty one, or NaN; with its statistics (R252 to R254). -/
def State.finalRow (s : State) (n r0 r : Nat) : State :=
  let j := s.job n
  match j.att with
  | none => s
  | some a =>
    let st := a.stat r
    let l := ffFp32.decode st.l
    let empty := l != .nan && !(match l with
      | .fin neg m _ => !neg && m != 0
      | .inf neg => !neg
      | .nan => false)
    let base := slotAddr j.t (s.outSlot j) + (r - r0) * j.cols * 4
    let vs := (List.range j.n).map fun i =>
      if empty then FVal.zero else f32 (fpDiv ffFp32 (ffFp32.decode (s.word (base + 4 * i))) l)
    let cs := vs.map a.fmtO.encode
    let s := s.store (daddr a.words 18 + r * a.ldo) (cs.flatMap fun c => bytesOf (a.fmtO.bits / 8) c.code)
    let s := s.storeWords (daddr a.words 16 + 8 * r) (if empty then [0xFF800000, 0] else [st.m, st.l])
    let s := if empty then s.count .atnEmptyRows j.t 0 atnEmptyRows_emptyRows 1 else s
    s.setJob n { j with
      nonfinite := j.nonfinite || vs.any FVal.nonfinite || codesNonfinite a.fmtO (cs.map (·.code)),
      saturated := j.saturated || cs.any (·.sat) }

/-- ATTENTION_FINALISE: after the last key tile of a query tile, its output rows and statistics are stored and the output
slot becomes FREE (R238, R239, R252). An uncorrectable error in the slot faults the context (R120). -/
def State.finalise (s : State) (n : Nat) (ecc : Ecc) : State :=
  let j := s.job n
  match j.att with
  | none => s
  | some a =>
    let r0 := a.finalised * j.rows
    let mine := j.tiles.filter fun x => x.row0 == r0
    if !s.hasJob n || !a.fwd || j.n == 0 || r0 ≥ j.m || !(mine.all fun x => x.st == .done) then s
    else if ecc.inAcc && !mine.isEmpty then s.accUe j ecc.accSlot
    else
      let rows := (List.range (min j.m (r0 + j.rows) - r0)).map (r0 + ·)
      match s.atnStop j [] (a.finalWrites j.n rows) .clean with
      | some s => s
      | none =>
        let s := s.accFixed n (s.outSlot j) ecc
        let s := s.each rows fun s r => s.finalRow n r0 r
        let s := if mine.isEmpty then s else s.setSlot j.t (s.outSlot j) .free
        let j := s.job n
        s.setJob n { j with att := some { a with finalised := a.finalised + 1, stats := (a.stats.filter fun y => y.1 ≥ r0 + j.rows) } }

/-- DESCRIPTOR_COMPLETE: a matrix descriptor whose tile jobs are all complete, with their stores performed, completes
(R88); an attention job once its query tiles are finalised (R238), and a backward one writes its visit bitmap first, where
a store it may not make is an address fault (R257). -/
def State.descriptorComplete (s : State) (n : Nat) : State :=
  let j := s.job n
  if !s.hasJob n || !(j.tiles.all fun x => x.st == .done) then s
  else
    match j.att with
    | none => s.mtxComplete n
    | some a =>
      if j.n == 0 then s.mtxComplete n
      else if a.fwd then (if a.finalised * j.rows ≥ j.m then s.mtxComplete n else s)
      else
        let bs := visitMap j a
        match s.atnStop j [] [(daddr a.words 26, bs.length)] .clean with
        | some s => s
        | none => (s.store (daddr a.words 26) bs).mtxComplete n

/-! ### The commands -/

/-- ATTENTION_JOB_ISSUE (R244). -/
def execAttentionJobIssue (t : Tower) (c : CtxId) (s : State) : Host.Outcome State Fault Refusal :=
  .next (s.attentionIssue t.val c.val)
/-- SCORE_TILE_DRAIN (R250). -/
def execScoreTileDrain (job tile : Nat) (ecc : Ecc) (s : State) : Host.Outcome State Fault Refusal :=
  .next (s.scoreDrain job tile ecc)
/-- ATTENTION_FINALISE (R252). -/
def execAttentionFinalise (job : ReadBy) (s : State) : Host.Outcome State Fault Refusal :=
  .next (s.finalise job.num job.ecc)

/-- DESCRIPTOR_COMPLETE (R88). -/
def execDescriptorComplete (job : Nat) (s : State) : Host.Outcome State Fault Refusal := .next (s.descriptorComplete job)

end Sys2Proof.Machine
end

