-- ==== Sys2Proof/Machine/ControlIsa.lean ====
section
/-! DEFINITION. The control group of the vector cores, KVAPP apart (R176 to R187, R226 to R230). -/

namespace Sys2Proof.Machine

/-- A may-park instruction: it waits until the thread's scalar loads are back (R178); afterwards the vector and mask
registers are undefined (R177). -/
def mayPark (t : Tower) (i : Nat) (f : Fields) (shape : Shape) (body : Nat → Seat → State → State) (s : State) :
    State :=
  thrRun t i f (fun _ => shape) (fun k x s => if scalarsBack (s.accs k) then body k x s else s) s

/-- The thread goes on without parking: wake_value in sd, vectors undefined (R177, R181). -/
def State.goOn (s : State) (k : Nat) (x : Seat) (d : Nat) (v : DWord) : State :=
  (s.setSeat k (x.setS d v).adv).freeVectors k

/-- WAIT: installs the watch, compares, and parks while the word at sa equals sb[31:0], with time-out sc[31:0] refclk ticks
unless 0 (R181, R227). The comparison is a read of the word: it comes after the thread's own earlier stores to it (R179, R194),
waits with the traffic to it (R20), and may meet an uncorrectable error (R319). -/
def execWait (t : Tower) (i : Nat) (f : Fields) (s : State) : Host.Outcome State Fault Refusal :=
  .next (mayPark t i f { form := .reg, d := .s, a := .s, b := .s, c := .s } (fun k x s =>
    let a := (x.s f.a.toNat).toNat
    let v : Word := (x.s f.b.toNat).truncate 32
    let timeout : Word := (x.s f.c.toNat).truncate 32
    let d := f.d.toNat
    if a % 4 != 0 then s.thrException k 2 a
    else if !(inDrum a && drumOf a == t.val) then s.thrException k 3 a
    else if s.ownEarlier k [(a, 4)] [] || s.trafficHeld (cupolaIsland t.val) [(a, 4)] then s
    else if (s.knownBad a 4).isSome then (s.recordUe t.val a).thrException k 0x12 a
    else if s.word a != v.toNat then s.goOn k x d 0
    else
      let due := s.refclk + timeout.zeroExtend 64
      s.park k .parked .wait d fun r =>
        { r with
          waitArg := BitVec.ofNat 32 (a - drumBase t.val), waitVal := v, deadlineEn := timeout != 0,
          deadline := if timeout == 0 then 0 else due.truncate 32,
          deadlineTick := if timeout == 0 then 0 else due }) s)

/-- YIELD: parks and becomes READY behind the context's READY threads; sd receives 0 at resume (R182). -/
def execYield (t : Tower) (i : Nat) (f : Fields) (s : State) : Host.Outcome State Fault Refusal :=
  .next (mayPark t i f { form := .reg, d := .s } (fun k _ s =>
    let s := s.park k .ready .yield f.d.toNat id
    { s with thr := { s.thr with ready := s.thr.ready ++ [k] } }) s)

/-- The key of barrier `id` of context `c` in tower `t`. -/
def barKey (t c id : Nat) : Nat := (t * 16 + c) * 64 + id

/-- The threads waiting at a barrier, in ascending index. -/
def State.barWaiters (s : State) (t c id : Nat) : List Nat :=
  s.threadsWhere fun k r =>
    keyTower k == t && r.ctx == c && r.st == .parked && r.reason == .bar && r.waitArg.toNat == id

/-- BARINIT: sets the expected count sb of barrier sa; the checks in the order of R185: id above 63, waiting threads,
count (R185, R228). -/
def execBarinit (t : Tower) (i : Nat) (f : Fields) (s : State) : Host.Outcome State Fault Refusal :=
  .next (thrRun t i f (fun _ => { form := .reg, d := .s, a := .s, b := .s }) (fun k x s =>
    let c := (s.trec k).ctx
    let id := (x.s f.a.toNat).toNat
    let n := (x.s f.b.toNat).toNat
    if id > 63 then s.thrException k 4 0
    else if !(s.barWaiters t c id).isEmpty then s.thrException k 5 0
    else if n == 0 || n > s.thrCount t c then
      (s.flag .vecErr t c vecErr_barinitRefused).setSeat k
        (x.setS f.d.toNat (BitVec.ofNat 64 Status.lengthRange.code)).adv
    else
      let s := { s with thr := { s.thr with bars := tput s.thr.bars (barKey t c id) ⟨n, []⟩ } }
      s.setSeat k (x.setS f.d.toNat 0).adv) s)

/-- BAR: counts one arrival at barrier sa; the arrival that reaches the expected count completes it and wakes the
waiters in ascending index, any other parks (R186, R228; BARRIER_COMPLETE). An arrival is a release: the last one
waits until every arriving thread's earlier stores are performed (R198). -/
def execBar (t : Tower) (i : Nat) (f : Fields) (s : State) : Host.Outcome State Fault Refusal :=
  .next (mayPark t i f { form := .reg, d := .s, a := .s } (fun k x s =>
    let c := (s.trec k).ctx
    let id := (x.s f.a.toNat).toNat
    let b := tget s.thr.bars (barKey t c id)
    let arrivals := b.arrivals ++ [(k, tget s.thr.nextAcc k)]
    if id > 63 || b.expected == 0 then s.thrException k 4 0
    else if arrivals.length ≥ b.expected then
      if arrivals.all s.storesDone then
        let waiters := s.barWaiters t c id
        let s := { s with thr := { s.thr with bars := tput s.thr.bars (barKey t c id) { b with arrivals := [] } } }
        let s := s.goOn k x f.d.toNat 0
        s.each waiters fun s j => s.wake j 0
      else s
    else
      let s := { s with thr := { s.thr with bars := tput s.thr.bars (barKey t c id) { b with arrivals := arrivals } } }
      s.park k .parked .bar f.d.toNat fun r => { r with waitArg := BitVec.ofNat 32 id }) s)

/-- BAR.EOS: parks with reason BAR.EOS until the commit; outside the step group it raises EOS_OUTSIDE_GROUP
(R187, R228, R475). -/
def execBarEos (t : Tower) (i : Nat) (f : Fields) (s : State) : Host.Outcome State Fault Refusal :=
  .next (mayPark t i f { form := .reg, d := .s } (fun k _ s =>
    if !s.member (s.trec k).ctx then s.thrException k 6 0
    else s.park k .parked .barEos f.d.toNat id) s)

/-- SPAWN: sb threads at entry sa with argument sc; sd = status (R183, R184, R228). -/
def execSpawn (t : Tower) (i : Nat) (f : Fields) (s : State) : Host.Outcome State Fault Refusal :=
  .next (thrRun t i f (fun _ => { form := .reg, d := .s, a := .s, b := .s, c := .s }) (fun k x s =>
    let entry := (x.s f.a.toNat).toNat
    if entry % 8 != 0 then s.thrException k 2 0
    else
      let (st, s) := s.spawnThreads t (s.trec k).ctx (x.s f.b.toNat).toNat entry (x.s f.c.toNat)
        x.sc.phaseId x.sc.phaseEn i (some (k, tget s.thr.nextAcc k))
      s.setSeat k (x.setS f.d.toNat (BitVec.ofNat 64 st.code)).adv) s)

/-- EXIT: the thread ends; its index returns to FREE by THREAD_INDEX_FREE once its stores are performed (R184). -/
def execExit (t : Tower) (i : Nat) (f : Fields) (s : State) : Host.Outcome State Fault Refusal :=
  .next (thrRun t i f (fun _ => { form := .reg }) (fun k x s =>
    let s := s.setAccs k ((s.accs k).filter fun a => match a.kind with
      | .load => false
      | _ => true)
    s.setSeat k { x.adv with exited := true }) s)

/-- FENCE: the thread stalls until its earlier loads and stores are all performed (R195). -/
def execFence (t : Tower) (i : Nat) (f : Fields) (s : State) : Host.Outcome State Fault Refusal :=
  .next (thrRun t i f (fun _ => { form := .reg })
    (fun k x s => if (s.accs k).isEmpty then s.setSeat k x.adv else s) s)

/-- PHASE: phase_id = imm[3:0]; phase_en = imm[4]; from the next instruction on (R226, R229). -/
def execPhase (t : Tower) (i : Nat) (f : Fields) (s : State) : Host.Outcome State Fault Refusal :=
  .next (thrOp t i f (fun _ => { form := .imm, ok := f.up.toNat / 32 == 0 }) (fun x =>
    { x with sc := { x.sc with phaseId := f.up.toNat % 16, phaseEn := f.up.toNat / 16 % 2 == 1 } }) s)

/-- EVENT: raises the context's software event, source 112 + c, with code sa[15:0] (R230, R506). -/
def execEvent (t : Tower) (i : Nat) (f : Fields) (s : State) : Host.Outcome State Fault Refusal :=
  .next (thrRun t i f (fun _ => { form := .reg, a := .s }) (fun k x s =>
    (s.raise (112 + (s.trec k).ctx) ((x.s f.a.toNat).toNat % 2 ^ 16)).setSeat k x.adv) s)

/-- NOP: no effect (R226). -/
def execNop (t : Tower) (i : Nat) (f : Fields) (s : State) : Host.Outcome State Fault Refusal :=
  .next (thrOp t i f (fun _ => { form := .reg }) id s)

end Sys2Proof.Machine
end

