-- ==== Sys2Proof/Machine/Kv.lean ====
section
/-! DEFINITION. The paged KV store: KVAPP, page pools and starvation (R231, R258 to R268, R272). -/

namespace Sys2Proof.Machine

/-! ### Quantization (R258, R259) -/

/-- The E4M3 or E2M1 layout of a sequence, and its largest magnitude Emax (R259). -/
def kvFloat (e2m1 : Bool) : FloatFmt := if e2m1 then ffE2m1 else ffE4m3
def kvEmax (e2m1 : Bool) : Nat := if e2m1 then 6 else 448

/-- The FP16 scale code of a block: amax / Emax rounded toward +∞, saturating (R259). -/
def kvScale (e2m1 : Bool) (a : Nat × Int) : Nat :=
  let m := a.1 * 2 ^ 64
  let d := kvEmax e2m1
  min (roundMag ffFp16 .away (m / d) (a.2 - 64) (m % d != 0)).1 ffFp16.maxFin

/-- A 64-element block quantized: scale code and element codes (R259). -/
def kvBlock (e2m1 : Bool) (vs : List FVal) : Nat × List Nat :=
  if vs.any FVal.nonfinite then (0x7E00, vs.map fun _ => 0)
  else
    let a := amaxOf vs
    if a.1 == 0 then (0, vs.map fun _ => 0)
    else
      let sc := kvScale e2m1 a
      let f := kvFloat e2m1
      (sc, vs.map fun v => (fpDiv f v (ffFp16.decode sc)).code)

/-- The 64 values of a vector register under a 16-bit floating-point vtype (R263). -/
def rowValues (ff : FloatFmt) (v : BitVec 1024) : List FVal :=
  (List.range 64).map fun i => ff.decode (v.toNat / 2 ^ (16 * i) % 2 ^ 16)

/-- The bytes of a row half, and its eight scale bytes (R258): blocks packed one after another, scales in order and 0
beyond the row width. -/
def kvHalf (e2m1 : Bool) (ff : FloatFmt) (regs : List (BitVec 1024)) : List Byte × List Byte :=
  let bl := regs.map fun v => kvBlock e2m1 (rowValues ff v)
  (packCodes (if e2m1 then 4 else 8) (bl.flatMap (·.2)), bytesOf 8 (leOf (bl.flatMap fun b => bytesOf 2 b.1)))

/-- The rows and scales of token `i` of a page are written (R258, R264). -/
def State.kvWrite (s : State) (page scale i : Nat) (e2m1 : Bool) (ff : FloatFmt) (rows : List (BitVec 1024)) : State :=
  let g := rows.length / 2
  let k := kvHalf e2m1 ff (rows.take g)
  let v := kvHalf e2m1 ff (rows.drop g)
  let s := (s.store (page + 256 * i) k.1).store (page + 256 * i + 128) v.1
  s.store (scale + 16 * i) (k.2 ++ v.2)

/-! ### The pool (R262, R272) -/

/-- Head, tail, size and base of the page pool of context `c` in tower `t`. -/
def State.poolHead (s : State) (t c : Nat) : Nat := s.fld .atnPoolHead t c atnPoolHead_head
def State.poolTail (s : State) (t c : Nat) : Nat := s.fld .atnPoolTail t c atnPoolTail_tail
def State.poolSize (s : State) (t c : Nat) : Nat := s.fld .atnPoolBaseHi t c atnPoolBaseHi_size
def State.poolBase (s : State) (t c : Nat) : Nat :=
  s.fld .atnPoolBaseHi t c atnPoolBaseHi_baseHi * 2 ^ 32 + (s.reg .atnPoolBaseLo t c).toNat

/-- Key of the starvation queue of context `c` in tower `t`. -/
def starveKey (t c : Nat) : Nat := t * 16 + c
def State.starved (s : State) (t c : Nat) : List Nat := tget s.atn.starved (starveKey t c)
def State.setStarved (s : State) (t c : Nat) (l : List Nat) : State :=
  { s with atn := { s.atn with starved := tput s.atn.starved (starveKey t c) l } }

/-- The pool holds an entry (R262). -/
def State.poolHas (s : State) (t c : Nat) : Bool := s.poolSize t c != 0 && s.poolHead t c != s.poolTail t c

/-- The address of the entry at the pool's head. -/
def State.poolEntry (s : State) (t c : Nat) : Nat := s.poolBase t c + 16 * s.poolHead t c

/-- A new append of context `c` may take a page: the pool is not empty and nothing is starved (R266). -/
def State.canTake (s : State) (t c : Nat) : Bool := s.poolHas t c && (s.starved t c).isEmpty

/-- The device maps the entry at the pool's head as entry `k` of the sequence at `a`: it is copied with present 1,
pages_mapped rises by 1 and the head moves on (R264). -/
def State.mapPage (s : State) (t c a k : Nat) : State :=
  let e := s.wordsAt (s.poolEntry t c) 4
  let s := s.storeWords (a + 64 + 16 * k) (e.set 0 (e.getD 0 0 ||| 1))
  let s := s.storeNum (a + 8) 2 (s.num (a + 8) 2 + 1)
  s.setFld .atnPoolHead t c atnPoolHead_head ((s.poolHead t c + 1) % s.poolSize t c)

/-- The append of a token at the header's length, its page mapped: rows and scales first, then length (R264). -/
def State.kvAppend (s : State) (a : Nat) (ff : FloatFmt) (rows : List (BitVec 1024)) : State :=
  let n := s.word (a + 4)
  let (_, page, scale) := s.seqEntry a (n / 256)
  let s := s.kvWrite page scale (n % 256) (s.word a % 2 == 1) ff rows
  s.storeNum (a + 4) 4 (n + 1)

/-- The bytes an append at position `n` of the sequence at `a` stores to: the row, its scales, the header, and the entry of a page
that it maps (R258, R264). -/
def kvStores (a n page scale : Nat) (new : Bool) : List (Nat × Nat) :=
  [(page + 256 * (n % 256), 256), (scale + 16 * (n % 256), 16), (a + 4, 8)]
  ++ (if new then [(a + 64 + 16 * (n / 256), 16)] else [])

/-! ### KVAPP (R231, R263 to R266) -/

/-- A new page is needed at position `n` of the sequence at `a` (R264). -/
def State.needsPage (s : State) (a n : Nat) : Bool := n % 256 == 0 && n / 256 == s.num (a + 8) 2

/-- The statuses of R263 that the header alone decides. -/
def State.kvEarly (s : State) (a pos : Nat) : Option Status :=
  let h := s.wordsAt a 16
  let len := h.getD 1 0
  if !seqHeaderOk h then some .badDescriptor
  else if pos != len || dfld h 2 16 16 == 1 then some .kvOrder
  else if len == dfld h 0 31 16 * 256 then some .lengthRange
  else none

/-- The status KVAPP returns without an append, by the checks of R263; `none` where the append goes on or parks. -/
def State.kvRefuse (s : State) (t c a : Nat) (pos : Nat) : Option Status :=
  match s.kvEarly a pos with
  | some st => some st
  | none =>
    if s.needsPage a pos then
      if !s.canTake t c && dfld (s.wordsAt a 16) 0 1 1 == 1 then some .pageStarved else none
    else if !(s.seqEntry a (pos / 256)).1 then some .kvPageAbsent
    else none

/-- The bytes an append reads: the header, and then the entry of its page, or the pool's entry for a new one (R262 to R264). -/
def State.kvReads (s : State) (t c a pos : Nat) : List (Nat × Nat) :=
  (a, 64) :: (if (s.kvEarly a pos).isSome then []
    else if s.needsPage a pos then (if s.canTake t c then [(s.poolEntry t c, 16)] else [])
    else [(a + 64 + 16 * (pos / 256), 16)])

/-- The thread parks for a page with its rows: pending and starved_seen are set, and PAGE_STARVED is raised where the
starvation queue was empty (R265). -/
def State.kvPark (s : State) (k t c a d : Nat) (rows : List (BitVec 1024)) : State :=
  let first := (s.starved t c).isEmpty
  let s := s.storeNum (a + 10) 1 (s.num (a + 10) 1 ||| 1)
  let s := s.park k .parked .kv d fun r =>
    { r with waitArg := BitVec.ofNat 32 (a - drumBase t), deadlineTick := s.refclk }
  let s := s.setStarved t c (s.starved t c ++ [k])
  let s := { s with atn := { s.atn with parked := tput s.atn.parked k rows } }
  let s := s.flag .atnErr t c atnErr_starvedSeen
  if first then s.raise (32 + c) (ctxTower c t) else s

/-- An access of KVAPP by thread `k` to the bytes it reads and those it stores to: it waits behind the thread's own earlier
accesses and while its traffic is held; a store that context `c` may not make is an address fault (R20, R25, R52, R179, R347,
R462). -/
def State.kvStore (s : State) (k t c : Nat) (l : Sampled) (rs ws : List (Nat × Nat)) (go : State) : State :=
  match ws.find? fun y => !s.ctxWriteOk l c y.1 y.2 with
  | some y => s.thrException k 3 y.1
  | none => if s.ownEarlier k rs ws || s.storesHeld (cupolaIsland t) ws then s else go

/-- The vtypes KVAPP takes: BF16 and FP16 (R263). -/
def vtKv (x : Seat) : Bool := (vtCode x.sc.vtype == 1 || vtCode x.sc.vtype == 2) && vtOk x.sc.vtype

/-- A vector register of the rows still waits for an earlier load (R172). -/
def rowsPending (l : List Acc) (b g : Nat) : Bool :=
  l.any fun a => !a.stale && (match a.dst with
    | .vec r _ _ => b ≤ r && r < b + 2 * g
    | _ => false)

/-- What KVAPP does once its operands are there, its header lies in the tower's window and its reads are good: it returns a
status, parks, or appends (R263 to R265). -/
def State.kvGo (s : State) (k t c : Nat) (x : Seat) (f : Fields) (g : Nat) : State :=
  let a := (x.s f.a.toNat).toNat
  let pos := (x.s f.c.toNat).toNat
  let d := f.d.toNat
  let rs := s.kvReads t c a pos
  match s.kvRefuse t c a pos with
  | some st => s.goOn k x d (BitVec.ofNat 64 st.code)
  | none =>
    let rows := (List.range (2 * g)).map fun j => x.vec (f.b.toNat + j)
    let new := s.needsPage a pos
    if new && !s.canTake t c then s.kvStore k t c x.sampled rs [(a + 10, 1)] (s.kvPark k t c a d rows)
    else
      let s1 := if new then s.mapPage t c a (pos / 256) else s
      let (_, page, scale) := s1.seqEntry a (pos / 256)
      s.kvStore k t c x.sampled rs (kvStores a pos page scale new) ((s1.kvAppend a (vtLayout x) rows).goOn k x d 0)

/-- KVAPP: appends one token to the sequence whose header is at sa (R231, R263 to R266). The layout of the rows is that of the
vtype at the instruction; sd receives the status, and vectors are undefined afterwards (R177). A pool entry that cannot be read
is an address fault (R27), and an uncorrectable error in what it reads faults the context (R319). -/
def execKvapp (t : Tower) (i : Nat) (f : Fields) (s : State) : Host.Outcome State Fault Refusal :=
  .next (thrRun t i f (fun x => { form := .reg, d := .s, a := .s, b := .v 1, c := .s, ok := vtKv x }) (fun k x s =>
    let a := (x.s f.a.toNat).toNat
    let c := (s.trec k).ctx
    let g := dfld [s.word a] 0 11 8
    if !scalarsBack (s.accs k) then s
    else if a % 64 != 0 then s.thrException k 2 a
    else if !inOwnDrum t a 64 then s.thrException k 3 a
    else if f.b.toNat + 2 * g > 32 then s.thrException k 1 0
    else if rowsPending (s.accs k) f.b.toNat g then s
    else
      let rs := s.kvReads t.val c a (x.s f.c.toNat).toNat
      match rs.find? fun y => !unitReadOk y.1 y.2 with
      | some y => s.thrException k 3 y.1
      | none =>
        if s.ownEarlier k rs [] || s.trafficHeld (cupolaIsland t.val) rs then s
        else
          match s.spansError rs .clean with
          | some e => (s.recordUe t.val e).thrException k (if inDrum e then 0x12 else 0x11) e
          | none => s.kvGo k t.val c x f g) s)

/-! ### Serving starved appends (R265 to R267) -/

/-- STARVED_APPEND_SERVE: the thread that parked first takes the entry at the pool's head; its append completes, pending is
cleared and the thread becomes READY with OK (R266). An entry that cannot be read, and a store its context may not make, fault
the context (R25, R27, R462); the append waits behind the thread's own earlier accesses and while its traffic is held (R20, R52,
R179). -/
def State.serveStarved (s : State) (t c : Nat) : State :=
  match s.starved t c with
  | [] => s
  | k :: rest =>
    let r := s.trec k
    let a := drumBase t + r.waitArg.toNat
    let n := s.word (a + 4)
    let rs := [(s.poolEntry t c, 16), (a, 64)]
    let s1 := s.mapPage t c a (n / 256)
    let (_, page, scale) := s1.seqEntry a (n / 256)
    let ws := kvStores a n page scale true
    match rs.find? fun y => !unitReadOk y.1 y.2 with
    | some y => s.unitFault c t 4 causeAddress y.1 0 0
    | none =>
      match ws.find? fun y => !s.ctxWriteOk (s.sample c) c y.1 y.2 with
      | some y => s.unitFault c t 4 causeAddress y.1 0 0
      | none =>
        if s.ownEarlier k rs ws || s.trafficHeld (cupolaIsland t) rs || s.storesHeld (cupolaIsland t) ws then s
        else
          match s.spansError rs .clean with
          | some e => s.unitUe c t 4 e 0 0
          | none =>
            let rows := tget s.atn.parked k
            let s := s1.setStarved t c rest
            let s := { s with atn := { s.atn with parked := tput s.atn.parked k [] } }
            let s := s.kvAppend a ((codeFloat (vtCode r.sc.vtype)).getD ffBf16) rows
            (s.storeNum (a + 10) 1 (s.num (a + 10) 1 - s.num (a + 10) 1 % 2)).wake k 0

/-- Starved appends are served while the pool holds entries, at most `n` of them. -/
def State.serveAll (s : State) (t c n : Nat) : State :=
  match n with
  | 0 => s
  | m + 1 =>
    if s.poolHas t c && !(s.starved t c).isEmpty && s.ctxActive c then (s.serveStarved t c).serveAll t c m else s

/-- The starved appends of every context and tower that waited are tried again. -/
def State.kvTick (s : State) : State :=
  s.each s.atn.starved fun s x => s.serveAll (x.1 / 16) (x.1 % 16) x.2.length

/-- ATN_POOL_TAIL_WRITE's effect: a tail below the pool size is stored and starved appends are served; any other is ignored
and noted (R266, R272). -/
def State.writePoolTail (s : State) (t c v : Nat) : State :=
  if v < s.poolSize t c then
    let s := s.setFld .atnPoolTail t c atnPoolTail_tail v
    s.serveAll t c (s.starved t c).length
  else s.flag .atnErr t c atnErr_cfgWriteIgnored

/-- ATN_POOL_BASE_WRITE's effect: `hi` selects ATN_POOL_BASE_HI. The write is stored only while the pool is empty and
nothing is starved (R272). -/
def State.writePoolBase (s : State) (t c : Nat) (hi : Bool) (w : Word) : State :=
  if s.poolHead t c != s.poolTail t c || !(s.starved t c).isEmpty then s.flag .atnErr t c atnErr_cfgWriteIgnored
  else if hi then s.setReg .atnPoolBaseHi t c w
  else s.setReg .atnPoolBaseLo t c (w &&& atnPoolBaseLo_baseLo.mask)

/-- KV_PAGE_TIMEOUT: a thread parked for a page longer than ATN_PAGE_TIMEOUT faults its context with the exception's code;
the append writes nothing and pending stays (R267). -/
def State.kvTimeout (s : State) (t i : Nat) : State :=
  let k := thrKey t i
  let r := s.trec k
  let due := r.deadlineTick.toNat + (s.reg .atnPageTimeout t r.ctx).toNat
  if r.st == .parked && r.reason == .kv && s.ctxActive r.ctx && due ≤ s.refclk.toNat then
    (s.flag .atnErr t r.ctx atnErr_pageTimeout).ctxFault r.ctx
      { cause := 7, tower := t, unit := 0, remote := false, thread := i, pc := r.sc.pc - 8, addr := 0, jobTag := 0,
        descIndex := 0, step := s.stepNo, tick := s.refclk, further := 0, threadsFreed := 0, groupsAborted := 0 }
  else s

/-! ### The commands -/

/-- ATN_POOL_TAIL_WRITE (R266). -/
def execAtnPoolTailWrite (t : Tower) (c : CtxId) (v : Word) (s : State) : Host.Outcome State Fault Refusal :=
  .next (s.writePoolTail t.val c.val (v.toNat % 2 ^ 16))
/-- ATN_POOL_BASE_WRITE (R272). -/
def execAtnPoolBaseWrite (t : Tower) (c : CtxId) (hi : Bool) (v : Word) (s : State) : Host.Outcome State Fault Refusal :=
  .next (s.writePoolBase t.val c.val hi v)
/-- KV_PAGE_TIMEOUT (R267). -/
def execKvPageTimeout (t : Tower) (i : Nat) (s : State) : Host.Outcome State Fault Refusal :=
  .next (s.kvTimeout t.val i)

end Sys2Proof.Machine
end

