-- ==== Sys2Proof/Machine/Links.lean ====
section
/-! DEFINITION. Links: training, gusset rotation, lane faults, half width, violations, quarantine and IDENT (R386 to R397,
R407 to R412, R416, R417). -/

namespace Sys2Proof.Machine

/-! ### Directions of a port (R386) -/

/-- The transmit (true) or receive lanes of a port. -/
def Port.dir (x : Port) (tx : Bool) : LaneDir := if tx then x.tx else x.rxd
def State.dir (s : State) (p : Nat) (tx : Bool) : LaneDir := (s.port p).dir tx
def State.setDir (s : State) (p : Nat) (tx : Bool) (d : LaneDir) : State :=
  s.setPort p (if tx then { s.port p with tx := d } else { s.port p with rxd := d })

/-- The lane map register of a direction. -/
def laneReg (tx : Bool) : RegId := if tx then .plynLaneMapTx else .plynLaneMapRx
def State.laneFld (s : State) (p : Nat) (tx : Bool) (f : Fld) : Nat := s.fld (laneReg tx) (portTower p) 0 f
def State.setLaneFld (s : State) (p : Nat) (tx : Bool) (f : Fld) (v : Nat) : State :=
  s.setFld (laneReg tx) (portTower p) 0 f v

def State.spare (s : State) (p : Nat) (tx : Bool) : Nat := s.laneFld p tx plynLaneMapTx_spare
def State.spareReady (s : State) (p : Nat) (tx : Bool) : Bool := s.laneFld p tx plynLaneMapTx_spareReady == 1
/-- The gusset lane of a direction and whether it is ready; 0x1F where there is none. -/
def State.setSpare (s : State) (p : Nat) (tx : Bool) (lane : Nat) (ready : Bool) : State :=
  (s.setLaneFld p tx plynLaneMapTx_spare lane).setLaneFld p tx plynLaneMapTx_spareReady ready.toNat
def State.setRotating (s : State) (p : Nat) (tx on : Bool) : State := s.setLaneFld p tx plynLaneMapTx_rotating on.toNat
def State.laneFailed (s : State) (p : Nat) (tx : Bool) (k : Nat) : Bool := (s.laneFld p tx plynLaneMapTx_failed).testBit k
def State.markLane (s : State) (p : Nat) (tx : Bool) (k : Nat) : State :=
  s.setLaneFld p tx plynLaneMapTx_failed (s.laneFld p tx plynLaneMapTx_failed ||| 2 ^ k)

/-- The direction runs at half width (PLYN_PORT_STAT). -/
def halfFld (tx : Bool) : Fld := if tx then plynPortStat_txHalf else plynPortStat_rxHalf
def State.half (s : State) (p : Nat) (tx : Bool) : Bool := s.bit .plynPortStat (portTower p) 0 (halfFld tx)

/-- The healthy lanes of a direction, lowest first: not failed and not in training. -/
def State.healthy (s : State) (p : Nat) (tx : Bool) : List Nat :=
  let d := s.dir p tx
  let training := match d.rot with
    | .training k => some k
    | _ => d.train
  (List.range (portLanes p + 1)).filter fun k => !s.laneFailed p tx k && training != some k

/-- Least eye margin (PLYN_ROT_CFG). -/
def State.minMargin (s : State) (p : Nat) : Nat := s.fld .plynRotCfg (portTower p) 0 plynRotCfg_minMargin

/-- A field of a port's error register is set. -/
def State.portErr (s : State) (p : Nat) (f : Fld) : State := s.flag .plynErr (portTower p) 0 f

/-! ### Quarantine (R409 to R411) -/

/-- The packets in a replay buffer, each once, with their arrival ports (R410). -/
def Port.unsure (x : Port) : List (Nat × Packet) :=
  ((x.replay.map fun f => ((f.seq + 8192 - f.idx) % 8192, f.inPort, f.pkt)).eraseDups).map (·.2)

/-- What becomes of a packet in the replay buffer of a quarantined port (R410). -/
def State.handleUnsure (s : State) (t : Nat) (x : Nat × Packet) : State :=
  let p := x.2
  let again := s.forward t (arrivalOf x.1) { p with resent := true }
  match p.kind with
  | .write => s.nack t p .pathLost
  | .read => s.nack t p .pathLost
  | .snapClose => s.nack t p .pathLost
  | .reduce => if p.cls == 0 then again else s.nack t p .pathLost
  | .token => again
  | _ => s

/-- The packets that come in on port `p` and pass through are cut off, `p` having lost its link: one of which nothing has been
sent is dropped, and the rest of one being sent is free values (log entry 78). -/
def State.cutOff (s : State) (p : Nat) : State :=
  let cut (q : TxPkt) : Bool := q.inPort == p && !q.pkt.whole
  if !(s.fab.ports.any fun x => x.2.txq.any cut) then s
  else
    let more (q : TxPkt) : List Byte :=
      (List.range (q.pkt.carried - q.pkt.payload.length)).map fun i => Config.freeByte s.freeCtr i
    let fill (q : TxPkt) : TxPkt :=
      if cut q then { q with pkt := { q.pkt with payload := q.pkt.payload ++ more q } } else q
    let s := s.each (List.range 6) fun s k =>
      let x := s.port k
      s.setPort k { x with txq := (x.txq.filter fun q => !cut q || q.sent != 0).map fill }
    { s with freeCtr := s.freeCtr + 1 }

/-- PORT_QUARANTINE: the port goes to QUARANTINED with a cause, reports it and tells its partner (R409); the packets of its
replay buffer are answered or routed again, and those queued are routed again (R410). -/
def State.quarantine (s : State) (p cause : Nat) : State :=
  if s.portState p == 4 then s
  else
    let t := portTower p
    let x := s.port p
    let s := (s.setPortState p 4).setFld .plynPortStat t 0 plynPortStat_cause cause
    let s := ((s.portErr p plynErr_quarantined).raise 146 (2 ^ p)).sendLink p (.quarantine cause)
    let s := s.setPort p { s.port p with replay := [], txq := [], rx := none, used := [], violStart := none }
    let s := s.cutOff p
    let s := s.each x.unsure fun s y => s.handleUnsure t y
    s.each (x.txq.filter fun q => q.sent == 0) fun s q => s.reroute t q

/-! ### Violations (R407, R408) -/

/-- A replay request naming `seq` is sent (R398). -/
def State.requestReplay (s : State) (p seq : Nat) : State :=
  let x := s.port p
  s.setPort p ({ x with requests := seq :: x.requests }.putOther 2 (bytesOf 4 seq))

/-- PROTOCOL_VIOLATION: a violation of a code is logged and counted, and at viol_limit within a window the port is
quarantined (R407, R408). The window runs from its first violation. -/
def State.violate (s : State) (p code : Nat) : State :=
  let t := portTower p
  let x := s.port p
  let s := s.setPort p { x with violStart := some (x.violStart.getD s.refclk) }
  let s := (s.setFld .plynViolLog t 0 plynViolLog_lastCode code).count .plynViolLog t 0 plynViolLog_total 1
  let s := (s.count .plynViolLog t 0 plynViolLog_inWindow 1).portErr p plynErr_violation
  if s.fld .plynViolCfg t 0 plynViolCfg_violLimit ≤ s.fld .plynViolLog t 0 plynViolLog_inWindow then s.quarantine p 1
  else s

/-- A violating flit: discarded and counted, and a replay asked from its seq (R407). -/
def State.violateFlit (s : State) (p code seq : Nat) : State := (s.requestReplay p seq).violate p code

/-- A violating message of the link layer: its flit repeats the last sequence number its sender used, which is that of the last
flit received in order (R396, R407; log entry 77). -/
def State.violateLink (s : State) (p code : Nat) : State := s.violateFlit p code (((s.port p).expect + 8191) % 8192)

/-- VIOLATION_WINDOW_END: viol_window after the first violation of a window, the count starts again (R408). -/
def State.violEnd (s : State) (p : Nat) : State :=
  let t := portTower p
  match (s.port p).violStart with
  | some a =>
    if s.fld .plynViolCfg t 0 plynViolCfg_violWindow * 1000 ≤ (s.refclk - a).toNat then
      (s.setPort p { s.port p with violStart := none }).setFld .plynViolLog t 0 plynViolLog_inWindow 0
    else s
  | none => s

/-! ### IDENT and becoming UP (R397, R416, R417) -/

/-- IDENT is sent on a port (R397). -/
def State.sendIdent (s : State) (p : Nat) : State :=
  s.sendLink p (.ident Config.serial (s.fld .ctlSeamStat 0 0 ctlSeamStat_index) p s.fabAddr s.fabValid)

/-- A trained port is judged: a partner with a wrong address quarantines it, and one that passes, on an axis of size 2 or
more and with enable set, makes it UP (R416, R417). -/
def State.judgePort (s : State) (p : Nat) : State :=
  let t := portTower p
  let st := s.portState p
  let known := s.bit .plynNbrInfo t 0 plynNbrInfo_fabValid && s.fabValid && s.axisSize (portAxis p) ≥ 2
  if (st != 2 && st != 3) || !known then s
  else if s.fld .plynNbrInfo t 0 plynNbrInfo_fabAddr != s.neighbour (portAxis p) (p % 2 == 0) then s.quarantine p 4
  else if st == 2 && s.bit .plynPortCfg t 0 plynPortCfg_enable then (s.setPortState p 3).pumpPort p
  else s

/-- IDENT: the partner's identity is noted; a partner that is not the opposite port quarantines the port (R387, R409); the
first IDENT after both directions have trained makes it TRAINED (R389). One that comes before is out of order (0x07). -/
def State.identIn (s : State) (p : Nat) (serial : DWord) (index code addr : Nat) (valid : Bool) : State :=
  let t := portTower p
  let st := s.portState p
  let x := s.port p
  if st == 0 || st == 4 then s
  else if x.tx.map.isEmpty || x.rxd.map.isEmpty then s.violateLink p 7
  else
    let s := (s.setReg .plynNbrSerialLo t 0 (serial.truncate 32)).setReg .plynNbrSerialHi t 0 (serial.extractLsb' 32 32)
    let s := s.setReg .plynNbrInfo t 0
      (BitVec.ofNat 32 (index % 4096 + code % 8 * 2 ^ 12 + valid.toNat * 2 ^ 15 + addr % 2 ^ 16 * 2 ^ 16))
    let s := s.setPort p { s.port p with identified := true }
    let s := if st == 1 then s.setPortState p 2 else s
    if code != portOther p then s.quarantine p 3 else s.judgePort p

/-- The device's address or its valid bit has changed: IDENT is sent again on every trained port, and the ports are judged
(R397, R416). -/
def State.readdress (s : State) : State :=
  s.each (List.range 6) fun s p =>
    if s.portState p == 2 || s.portState p == 3 then (s.sendIdent p).judgePort p else s

/-! ### Training (R388, R389) -/

/-- A direction as it is before training; its registers as at reset. -/
def State.resetDir (s : State) (p : Nat) (tx : Bool) : State :=
  let s := s.setReg (laneReg tx) (portTower p) 0 (regReset (laneReg tx) (portTower p))
  (s.setDir p tx { (default : LaneDir) with rotTick := s.refclk }).setFld
    .plynPortStat (portTower p) 0 (halfFld tx) 0

/-- Training of a port starts: the link layer and both directions start anew (R388, R412). -/
def State.startTraining (s : State) (p : Nat) : State :=
  let x := s.port p
  let s := (s.setPort p { (default : Port) with sent := x.sent, requests := x.requests, txq := x.txq, wire := x.wire }).cutOff p
  let s := (s.resetDir p true).resetDir p false
  (s.setPortState p 1).setFld .plynPortStat (portTower p) 0 plynPortStat_cause 0

/-- A direction drops to half width: flag, error bit and event (R394). -/
def State.setHalf (s : State) (p : Nat) (tx : Bool) : State :=
  ((s.setFld .plynPortStat (portTower p) 0 (halfFld tx) 1).portErr p plynErr_halfWidth).raise 145 (2 ^ p)

/-- The lane that serves as the spare: the highest lane left over, 0x1F where none is. -/
def spareOf (left : List Nat) : Nat := left.getLastD 0x1F

/-- LINK_TRAINING_COMPLETE: equalisation and lock of a direction end with the eye margin of each lane (R389, steps 1 to 4);
with both directions trained, IDENT is sent (step 5). Too few healthy lanes fail the training (R388). -/
def State.trained (s : State) (p : Nat) (tx : Bool) (margins : List Nat) : State :=
  let n := portLanes p
  if s.portState p != 1 || !(s.dir p tx).map.isEmpty then s
  else
    let s := s.each (List.range (n + 1)) fun s k => if margins.getD k 0 < s.minMargin p then s.markLane p tx k else s
    let h := s.healthy p tx
    if h.length < n / 2 then
      let s := s.setPortState p 0
      s.setPort p { s.port p with failTick := some s.refclk }
    else
      let w := if h.length ≥ n then n else n / 2
      let left := h.drop w
      let s := s.setDir p tx { s.dir p tx with map := h.take w, rotTick := s.refclk }
      let s := s.setSpare p tx (spareOf left) (!left.isEmpty)
      let s := if w < n then s.setHalf p tx else s
      if (s.dir p (!tx)).map.isEmpty then s else s.sendIdent p

/-- LINK_TRAINING_RETRY: 1,000,000 refclk ticks after a failure a new attempt starts (R388). -/
def State.trainRetry (s : State) (p : Nat) : State :=
  match (s.port p).failTick with
  | some a => if s.portState p == 0 && 1000000 ≤ (s.refclk - a).toNat then s.startTraining p else s
  | none => s

/-! ### Rotation (R390) -/

/-- The next lane to rotate onto: the first after `g`, counting modulo N + 1, that is not failed (R390). -/
def State.nextLane (s : State) (p : Nat) (tx : Bool) (g : Nat) : Option Nat :=
  let n := portLanes p
  ((List.range n).map fun i => (g + 1 + i) % (n + 1)).find? fun k => !s.laneFailed p tx k

/-- GUSSET_ROTATION_START: a direction at full width with a ready gusset lane and rot_en set starts to copy the next lane
once the interval has passed; at the receiver the match leads to ROT_READY (R390, steps 1 and 2). -/
def State.rotStart (s : State) (p : Nat) (tx : Bool) : State :=
  let t := portTower p
  let d := s.dir p tx
  let every := s.fld .plynRotCfg t 0 plynRotCfg_interval
  if !s.linked p || !s.spareReady p tx || s.half p tx || !s.bit .plynPortCfg t 0 plynPortCfg_rotEn || d.rot != .idle
      || d.swap.isSome || d.shrink.isSome || every == 0 || (s.refclk - d.rotTick).toNat < every then s
  else
    match s.nextLane p tx (s.spare p tx) with
    | none => s
    | some k =>
      let s := (s.setDir p tx { d with rot := .copying k, rotTick := s.refclk }).setRotating p tx true
      if tx then s else s.sendLink p (.rotReady k)

/-- Lane `a` of a direction's map replaced by lane `b`. -/
def swapLane (m : List Nat) (a b : Nat) : List Nat := m.map fun x => if x == a then b else x

/-- ROT_READY: the transmitter answers with ROT_SWITCH, naming a codeword 80 ahead of the present one (R390, step 3). -/
def State.rotReadyIn (s : State) (p lane now : Nat) : State :=
  let d := s.dir p true
  if !s.linked p then s
  else if d.rot != .copying lane then s.violateLink p 7
  else (s.setDir p true { d with rot := .switching lane (now + 80) }).sendLink p (.rotSwitch lane (now + 80))

/-- The switch: the gusset lane carries lane `k`'s logical lane, and `k` trains as the new spare (R390, step 4; R392). -/
def State.moveLane (s : State) (p : Nat) (tx : Bool) (k : Nat) (rotating : Bool) : State :=
  let d := s.dir p tx
  let g := s.spare p tx
  let d := { d with map := swapLane d.map k g, swap := none }
  let d := if rotating then { d with rot := .training k, train := none } else { d with rot := .idle, train := some k }
  ((s.setDir p tx d).setSpare p tx k false).setRotating p tx rotating

/-- A rotation under way is abandoned (R393). -/
def State.abandon (s : State) (p : Nat) (tx : Bool) : State :=
  let s := s.setDir p tx { s.dir p tx with rot := .idle }
  (s.setRotating p tx false).portErr p plynErr_rotAbandoned

/-- Healthy lanes that carry no traffic: at half width they serve as spares (R394). -/
def State.leftOver (s : State) (p : Nat) (tx : Bool) : List Nat :=
  (s.healthy p tx).filter fun k => !(s.dir p tx).map.contains k

/-- A direction with no gusset lane in training or at work takes one of its left-over lanes at half width, and has none
otherwise. -/
def State.takeSpare (s : State) (p : Nat) (tx : Bool) : State :=
  let left := if s.half p tx then s.leftOver p tx else []
  s.setSpare p tx (spareOf left) (!left.isEmpty)

/-- A lane fails for good: no spare where it was the one in training, but for a lane left over at half width (R390, R393, R394).
-/
def State.lostSpare (s : State) (p : Nat) (tx : Bool) (k : Nat) : State :=
  let s := s.setDir p tx { s.dir p tx with rot := .idle, train := none }
  (((s.markLane p tx k).takeSpare p tx).setRotating p tx false).portErr p plynErr_spareFailed

/-! ### Lane faults (R392 to R395) -/

/-- The direction is to keep half its lanes from a codeword on; with too few healthy ones the port is quarantined as
LANE_EXHAUSTED. The transmitter names the lanes it keeps (R394, R395). -/
def State.toHalf (s : State) (p k codeword : Nat) : State :=
  let n := portLanes p
  let s := s.markLane p true k
  let h := s.healthy p true
  if h.length < n / 2 then s.quarantine p 2
  else
    let keep := h.take (n / 2)
    let d := { s.dir p true with rot := .idle, train := none, swap := none, shrink := some (keep, codeword) }
    ((s.setDir p true d).setRotating p true false).sendLink p (.halfWidth keep codeword)

/-- The direction runs over the lanes kept at half width; the healthy ones left over are spares (R394). -/
def State.restripe (s : State) (p : Nat) (tx : Bool) (keep : List Nat) : State :=
  let was := s.half p tx
  let s := s.setDir p tx { s.dir p tx with map := keep, shrink := none }
  let s := if was then s else s.setHalf p tx
  s.takeSpare p tx

/-- What a lane fault leads to (R392 to R394): its outcome is reached at once, the lane's traffic moves to the gusset lane at a
codeword, or the direction drops to half width. -/
inductive LaneEnd where
  | done | later | half
deriving DecidableEq, Repr

/-- What a fault of lane `k` does to a direction (R392, R393). -/
def State.laneOut (s : State) (p : Nat) (tx : Bool) (k : Nat) : State × LaneEnd :=
  let d := s.dir p tx
  let g := s.spare p tx
  let ready := s.spareReady p tx
  let early := match d.rot with
    | .copying l => some l
    | .switching l _ => some l
    | _ => none
  let training := match d.rot with
    | .training l => some l
    | _ => d.train
  match d.shrink, d.swap, early with
  | some _, _, _ => (s, .half)
  | none, some (l, _), _ => (s, if l == k then .done else .half)
  | none, none, some l =>
    if k == l then (s.moveLane p tx l true, .done)
    else if k == g then
      let s := s.abandon p tx
      ((s.setDir p tx { s.dir p tx with train := some g }).setSpare p tx g false, .done)
    else ((s.abandon p tx).moveLane p tx k false, .done)
  | none, none, none =>
    if training == some k then (s.lostSpare p tx k, .done)
    else if k == g && ready then ((s.setDir p tx { d with train := some k }).setSpare p tx k false, .done)
    else if !d.map.contains k then ((s.markLane p tx k), .done)
    else (s, if ready then .later else .half)

/-- LANE_FAULT: the receiver of a direction finds a lane faulted, reports it and sends LANE_DOWN (R392). -/
def State.laneFault (s : State) (p lane : Nat) : State :=
  if !s.linked p || lane > portLanes p || s.laneFailed p false lane then s
  else
    let d := s.dir p false
    let s := s.setDir p false { d with faults := d.faults ++ [lane] }
    ((s.portErr p plynErr_laneFault).raise 144 (2 ^ p)).sendLink p (.laneDown false lane)

/-- LANE_DOWN: the transmitter moves the lane's traffic from a codeword on that it names in its answer, or drops to half width
(R392 to R394). -/
def State.laneDownIn (s : State) (p lane now : Nat) : State :=
  if !s.linked p then s
  else if lane > portLanes p || s.laneFailed p true lane then s.violateLink p 7
  else
    match s.laneOut p true lane with
    | (s, .done) => s.sendLink p (.rotSwitch lane now)
    | (s, .later) =>
      (s.setDir p true { s.dir p true with swap := some (lane, now + 80) }).sendLink p (.rotSwitch lane (now + 80))
    | (s, .half) => s.toHalf p lane (now + 80)

/-- The receiver's answered fault. -/
def State.faultAnswered (s : State) (p lane : Nat) : State :=
  let d := s.dir p false
  s.setDir p false { d with faults := d.faults.erase lane }

/-- ROT_SWITCH: the receiver takes the switch of its rotation, or the answer to its LANE_DOWN (R390, R392). -/
def State.rotSwitchIn (s : State) (p lane codeword : Nat) : State :=
  let d := s.dir p false
  if !s.linked p then s
  else if d.faults.contains lane then
    match (s.faultAnswered p lane).laneOut p false lane with
    | (s, .done) => s
    | (s, .later) => s.setDir p false { s.dir p false with swap := some (lane, codeword) }
    | (s, .half) => s.violateLink p 7
  else if d.rot == .copying lane then s.setDir p false { d with rot := .switching lane codeword }
  else s.violateLink p 7

/-- SWITCH_CODEWORD_REACHED: from the named codeword the gusset lane carries the lane's traffic, or the direction runs at half
width (R390, steps 3 and 4; R392, R394). -/
def State.switchReached (s : State) (p : Nat) (tx : Bool) : State :=
  let d := s.dir p tx
  if !s.linked p then s
  else
    match d.shrink, d.swap, d.rot with
    | some (keep, _), _, _ => s.restripe p tx keep
    | none, some (k, _), _ => s.moveLane p tx k false
    | none, none, .switching k _ => s.moveLane p tx k true
    | none, none, _ => s

/-- The lane of a direction that trains. -/
def LaneDir.trainee (d : LaneDir) : Option Nat :=
  match d.rot with
  | .training k => some k
  | _ => d.train

/-- Training of a lane ends with a margin: it is the ready gusset lane, or it has failed (R390, step 5). -/
def State.laneTrained (s : State) (p : Nat) (tx : Bool) (k margin : Nat) : State :=
  if s.minMargin p ≤ margin then
    let s := s.setDir p tx { s.dir p tx with rot := .idle, train := none }
    (s.setSpare p tx k true).setRotating p tx false
  else s.lostSpare p tx k

/-- LANE_RETRAIN_COMPLETE: the receiver measures the retrained lane's margin and sends ROT_DONE (R390, steps 4 and 5). -/
def State.retrained (s : State) (p margin : Nat) : State :=
  match (s.dir p false).trainee with
  | some k => if s.linked p then (s.laneTrained p false k margin).sendLink p (.rotDone k margin) else s
  | none => s

/-- ROT_DONE: the transmitter learns the margin of the lane in training (R390, step 5). -/
def State.rotDoneIn (s : State) (p lane margin : Nat) : State :=
  if !s.linked p then s
  else if (s.dir p true).trainee == some lane then s.laneTrained p true lane margin
  else s.violateLink p 7

/-- HALF_WIDTH: the partner names the lanes its direction keeps from a codeword on, in answer to a LANE_DOWN (R394). -/
def State.halfIn (s : State) (p : Nat) (lanes : List Nat) (codeword : Nat) : State :=
  let n := portLanes p
  let d := s.dir p false
  let (kept, out) := d.faults.partition lanes.contains
  if !s.linked p then s
  else if out.isEmpty || lanes.length != n / 2 || !lanes.all (· ≤ n) then s.violateLink p 7
  else
    let s := s.each out fun s k => s.markLane p false k
    let d := { d with faults := kept, rot := .idle, train := none, swap := none, shrink := some (lanes, codeword) }
    (s.setDir p false d).setRotating p false false

/-- QUARANTINE: a partner that was quarantined quarantines this port with cause PARTNER (R409). -/
def State.quarantineIn (s : State) (p : Nat) : State :=
  if s.portState p == 1 || s.linked p then s.quarantine p 5 else s

/-! ### The commands -/

/-- LINK_TRAINING_COMPLETE (R389). -/
def execLinkTrainingComplete (p : PortCode) (tx : Bool) (margins : List Nat) (s : State) :
    Host.Outcome State Fault Refusal := .next (s.trained p.val tx margins)
/-- LINK_TRAINING_RETRY (R388). -/
def execLinkTrainingRetry (p : PortCode) (s : State) : Host.Outcome State Fault Refusal := .next (s.trainRetry p.val)
/-- GUSSET_ROTATION_START (R390). -/
def execGussetRotationStart (p : PortCode) (tx : Bool) (s : State) : Host.Outcome State Fault Refusal :=
  .next (s.rotStart p.val tx)
/-- ROT_READY (R390). -/
def execRotReady (p : PortCode) (lane now : Nat) (s : State) : Host.Outcome State Fault Refusal :=
  .next (s.rotReadyIn p.val lane now)
/-- ROT_SWITCH (R390). -/
def execRotSwitch (p : PortCode) (lane codeword : Nat) (s : State) : Host.Outcome State Fault Refusal :=
  .next (s.rotSwitchIn p.val lane codeword)
/-- SWITCH_CODEWORD_REACHED (R390). -/
def execSwitchCodewordReached (p : PortCode) (tx : Bool) (s : State) : Host.Outcome State Fault Refusal :=
  .next (s.switchReached p.val tx)
/-- LANE_RETRAIN_COMPLETE (R390). -/
def execLaneRetrainComplete (p : PortCode) (margin : Nat) (s : State) : Host.Outcome State Fault Refusal :=
  .next (s.retrained p.val margin)
/-- ROT_DONE (R390). -/
def execRotDone (p : PortCode) (lane margin : Nat) (s : State) : Host.Outcome State Fault Refusal :=
  .next (s.rotDoneIn p.val lane margin)
/-- LANE_FAULT (R392). -/
def execLaneFault (p : PortCode) (lane : Nat) (s : State) : Host.Outcome State Fault Refusal :=
  .next (s.laneFault p.val lane)
/-- LANE_DOWN (R392). -/
def execLaneDown (p : PortCode) (lane now : Nat) (s : State) : Host.Outcome State Fault Refusal :=
  .next (s.laneDownIn p.val lane now)
/-- HALF_WIDTH (R394). -/
def execHalfWidth (p : PortCode) (keep : HalfLanes) (s : State) : Host.Outcome State Fault Refusal :=
  .next (s.halfIn p.val keep.lanes keep.codeword)
/-- QUARANTINE (R409). -/
def execQuarantine (p : PortCode) (s : State) : Host.Outcome State Fault Refusal := .next (s.quarantineIn p.val)
/-- IDENT (R397). -/
def execIdent (p : PortCode) (serial : DWord) (index code : Nat) (addr : Half) (valid : Bool) (s : State) :
    Host.Outcome State Fault Refusal := .next (s.identIn p.val serial index code addr.toNat valid)
/-- VIOLATION_WINDOW_END (R408). -/
def execViolationWindowEnd (p : PortCode) (s : State) : Host.Outcome State Fault Refusal := .next (s.violEnd p.val)

end Sys2Proof.Machine
end

