-- ==== Sys2Proof/Machine/Flits.lean ====
section
/-! DEFINITION. Flits: checks, acknowledgement, credits, replay and the assembly of packets (R396 to R400, R403, R404,
R407). -/

namespace Sys2Proof.Machine

/-! ### Flit fields (R396) -/

/-- The CRC-32C of bytes (log entry 40). -/
def crc32c (bs : List Byte) : Nat := crcRefl 0x82F63B78 0xFFFFFFFF bs ^^^ 0xFFFFFFFF

/-- Word `i` of a flit. -/
def flitWord (ws : List Word) (i : Nat) : Nat := (ws.getD i 0).toNat
/-- Bits hi to lo of word `i` of a flit. -/
def flitFld (ws : List Word) (i hi lo : Nat) : Nat := flitWord ws i / 2 ^ lo % 2 ^ (hi - lo + 1)
/-- The bytes of words `i` to `i + n - 1` of a flit. -/
def flitBytes (ws : List Word) (i n : Nat) : List Byte := (List.range n).flatMap fun k => bytesOf 4 (flitWord ws (i + k))
/-- The flit's CRC passes. -/
def flitCrcOk (ws : List Word) : Bool := crc32c (flitBytes ws 0 34) == flitWord ws 34

/-- The 35 words of a flit that a port put out (R396). -/
def OutFlit.words (f : OutFlit) : List Word :=
  let head := [f.seq + f.ack * 2 ^ 13 + f.kind * 2 ^ 26, f.vc + f.count * 2 ^ 4]
  let body := (List.range 32).map fun i => leOf ((f.payload.drop (4 * i)).take 4)
  (head ++ body ++ [crc32c ((head ++ body).flatMap (bytesOf 4))]).map (BitVec.ofNat 32)

/-! ### Packet headers (R403, R404) -/

/-- The header at the start of a flit's payload, its kind where the code is not reserved. -/
def headerOf (ws : List Word) : Option Packet :=
  match PktKind.ofCode (flitFld ws 3 3 0) with
  | none => none
  | some k => some
      { dst := flitFld ws 2 15 0, src := flitFld ws 2 31 16, kind := k, cls := flitFld ws 3 6 4, sub := flitFld ws 3 8 7,
        detour := flitFld ws 3 9 9 == 1, resent := flitFld ws 3 10 10 == 1, length := flitFld ws 3 31 16,
        tag := flitFld ws 4 15 0, addr := flitFld ws 4 31 16 * 2 ^ 32 + flitWord ws 5, payload := [] }

/-- The length of a packet is one of R404; a WRITE or READ stays within one 4 KiB page. -/
def Packet.lengthOk (p : Packet) : Bool :=
  let n := p.length
  match p.kind with
  | .write => 1 ≤ n && n ≤ 4096 && p.addr % 4096 + n ≤ 4096
  | .read => 1 ≤ n && n ≤ 4096 && p.addr % 4096 + n ≤ 4096
  | .readData => 1 ≤ n && n ≤ 4096
  | .writeAck => n == 0
  | .nack => n == 4
  | .token => n == 8
  | .reduce => 32 ≤ n && n ≤ 32800
  | .snapClose => n == 8
  | .mgmt => 1 ≤ n && n ≤ 256

/-- The header has no reserved value and a legal length (violation 0x05). -/
def headerOk (ws : List Word) : Bool :=
  match headerOf ws with
  | none => false
  | some p => p.cls ≤ 4 && p.sub ≤ 2 && flitFld ws 3 15 11 == 0 && p.lengthOk

/-! ### Acknowledgement, credits and replay (R398 to R400) -/

/-- How far an ack lies behind the last data flit sent. -/
def Port.behind (x : Port) (ack : Nat) : Nat := (x.nextSeq + 8191 + 8192 - ack) % 8192

/-- An ack frees the flits it covers (R398). -/
def Port.acked (x : Port) (ack : Nat) : Port := { x with replay := x.replay.drop (x.replay.length - x.behind ack) }

/-- The sender replays every flit from `seq` onward, in order; a request outside the replay buffer is a violation, and a flit
replayed 16 times quarantines the port (R398, R407, R409). -/
def State.replayFrom (s : State) (p seq : Nat) : State :=
  let x := s.port p
  match x.replay.findIdx? fun f => f.seq == seq with
  | none => s.violateLink p 4
  | some i =>
    let again := (x.replay.drop i).map fun f => { f with replays := f.replays + 1 }
    let s := s.setPort p { again.foldl Port.putAgain x with replay := x.replay.take i ++ again }
    let s := s.count .plynReplayCnt (portTower p) 0 plynReplayCnt_count 1
    if again.any (16 ≤ ·.replays) then s.quarantine p 6 else s

/-- REPLAY_REQUEST: the partner asks for every flit from `seq` onward (R398). -/
def State.replayRequest (s : State) (p seq : Nat) : State := if s.linked p then s.replayFrom p (seq % 8192) else s

/-- A flit that its receiver does not take: every following one is discarded until a replay from the expected one (R398). -/
def State.refuse (s : State) (p : Nat) : State :=
  let x := s.port p
  (s.setPort p { x with discarding := true }).requestReplay p x.expect

/-! ### Packets (R399, R400, R403, R420) -/

/-- The packet that comes in on port `p` gains bytes: at the output port it waits at, or here; one that is gone from its port,
or has no way, frees its receive slot. -/
def State.moreBytes (s : State) (p : Nat) (r : RxPkt) (bs : List Byte) : State :=
  let k := { r.hdr with payload := (r.bytes ++ bs).take r.hdr.carried }
  let x := s.port p
  let s := s.setPort p { x with rx := if k.whole then none else some { r with bytes := k.payload } }
  let coming (q : TxPkt) : Bool := q.inPort == p && !q.pkt.whole
  match r.way with
  | .here => if k.whole then s.deliver p k else s
  | .lost => s.giveSlots p r.hdr.vc 1
  | .through =>
    match (List.range 6).find? fun o => (s.port o).txq.any coming with
    | none => s.giveSlots p r.hdr.vc 1
    | some o =>
      let y := s.port o
      let grow (q : TxPkt) : TxPkt := if coming q then { q with pkt := { q.pkt with payload := k.payload } } else q
      (s.setPort o { y with txq := y.txq.map grow }).pumpPort o

/-- A packet begins to come in on port `p`: the drum routes it by its header, and it passes on while it comes in (R400, R420). -/
def State.packetBegins (s : State) (p : Nat) (h : Packet) (bs : List Byte) : State :=
  let t := portTower p
  match s.route t (some p) h with
  | .deliver => s.moreBytes p ⟨h, .here, []⟩ bs
  | .send port sub det =>
    let y := s.port port
    let k := { h with sub := sub, detour := det, payload := bs.take h.carried }
    let s := s.setPort port { y with txq := y.txq ++ [⟨p, h.vc, k, 0, s.refclk⟩] }
    let x := s.port p
    (s.setPort p { x with rx := if k.whole then none else some ⟨h, .through, k.payload⟩ }).pumpPort port
  | .lost => (s.nack t h .pathLost).moreBytes p ⟨h, .lost, []⟩ bs

/-- An accepted data flit takes a receive slot and adds its bytes to the packet it belongs to (R398, R399). -/
def State.takeFlit (s : State) (p : Nat) (vc : Nat) (ws : List Word) : State :=
  let x := s.port p
  let s := s.setPort p { x with expect := (x.expect + 1) % 8192, discarding := false, held := tmod x.held vc (· + 1) }
  match x.rx, headerOf ws with
  | some r, _ => s.moreBytes p r (flitBytes ws 2 32)
  | none, some h => s.packetBegins p h (flitBytes ws 6 28)
  | none, none => s

/-- The virtual channel a data flit belongs to: that of the packet in progress, or of the header it brings. -/
def Port.flitVc (x : Port) (ws : List Word) : Nat :=
  match x.rx with
  | some r => r.hdr.vc
  | none => 3 * flitFld ws 3 6 4 + flitFld ws 3 8 7

/-! ### FLIT_RECEIVE (R398, R407) -/

/-- The violation of a flit whose CRC passes, where it commits one (R407). A data flit that is not the next one commits none but a
reserved value: it is a sequence fault. -/
def State.flitViolation (s : State) (p : Nat) (ws : List Word) : Option Nat :=
  let x := s.port p
  let kind := flitFld ws 0 28 26
  let vc := flitFld ws 1 3 0
  let next := kind == 0 && flitFld ws 0 12 0 == x.expect
  if kind ≥ 4 || flitFld ws 0 31 29 != 0 || flitFld ws 1 31 12 != 0 then some 1
  else if kind == 0 && !next then none
  else if vc != 15 && flitFld ws 1 11 4 > tget x.used vc then some 2
  else if x.behind (flitFld ws 0 25 13) > 4096 then some 3
  else if kind == 2 && !(x.replay.any fun f => f.seq == flitFld ws 2 12 0) then some 4
  else if next && s.portState p != 3 then some 8
  else if next && x.rx.isNone && !headerOk ws then some 5
  else if next && tget x.held (x.flitVc ws) + 1 > vcSlots (x.flitVc ws) then some 6
  else if kind == 3 && (flitFld ws 2 7 0 == 0 || flitFld ws 2 7 0 > 7) then some 7
  else none

/-- The ack of a flit frees the flits it covers, and the credits it returns are free (R398 to R400). -/
def Port.answered (x : Port) (ws : List Word) : Port :=
  let x := x.acked (flitFld ws 0 25 13)
  let vc := flitFld ws 1 3 0
  if vc == 15 then x else { x with used := tmod x.used vc (· - flitFld ws 1 11 4) }

/-- FLIT_RECEIVE: a flit is checked for its CRC, for violations and, where it brings data, for its place; one that passes brings
its ack, its credits and by kind its data or a replay request, and the port then sends what it can (R398 to R400, R407). -/
def State.flitIn (s : State) (p : Nat) (ws : List Word) : State :=
  let x := s.port p
  let seq := flitFld ws 0 12 0
  let kind := flitFld ws 0 28 26
  if !s.linked p then s
  else if !flitCrcOk ws then (s.count .plynCrcCnt (portTower p) 0 plynCrcCnt_count 1).refuse p
  else
    match s.flitViolation p ws with
    | some code => s.violateFlit p code seq
    | none =>
      if kind == 0 && seq != x.expect then
        -- one already taken is dropped; one ahead starts a replay unless one is under way
        if (seq + 8192 - x.expect) % 8192 ≥ 4096 || x.discarding then s else s.refuse p
      else
        let vc := x.flitVc ws
        let s := s.setPort p (x.answered ws)
        let s := if kind == 0 then s.takeFlit p vc ws else if kind == 2 then s.replayFrom p (flitFld ws 2 12 0) else s
        s.pumpPort p

/-! ### The commands -/

/-- FLIT_RECEIVE (R398). -/
def execFlitReceive (p : PortCode) (ws : List Word) (s : State) : Host.Outcome State Fault Refusal :=
  .next (s.flitIn p.val ws)
/-- REPLAY_REQUEST (R398). -/
def execReplayRequest (p : PortCode) (seq : Nat) (s : State) : Host.Outcome State Fault Refusal :=
  .next (s.replayRequest p.val seq)

end Sys2Proof.Machine
end

