-- ==== Sys2Proof/Machine/Movers.lean ====
section
/-! DEFINITION. The offload movers: descriptors, checks, parts, host queue pairs they use, and completion (R336 to R341,
R425, R426, R468, R568). -/

namespace Sys2Proof.Machine

/-! ### The descriptor (R336) -/

/-- Bytes of a row at its source and at its destination (R336). -/
def mvSrcRow (w : List Nat) : Nat :=
  if dfld w 0 2 0 == 3 then w.getD 3 0 * mantleBytes (dfld w 0 4 3) / 256 else w.getD 3 0
def mvDstRow (w : List Nat) : Nat :=
  if dfld w 0 2 0 == 2 then w.getD 3 0 * mantleBytes (dfld w 0 4 3) / 256 else w.getD 3 0

def mvMantle (w : List Nat) : Bool := dfld w 0 2 0 == 2 || dfld w 0 2 0 == 3
def mvFill (w : List Nat) : Bool := dfld w 0 2 0 == 1
def mvParts (w : List Nat) : Nat := 2 ^ dfld w 0 9 7
def mvRows (w : List Nat) : Nat := w.getD 4 0
/-- First row of part `i` (R338). -/
def mvLo (w : List Nat) (i : Nat) : Nat := i * mvRows w / mvParts w
/-- Rows of part `i`. -/
def mvCount (w : List Nat) (i : Nat) : Nat := mvLo w (i + 1) - mvLo w i
def mvSrcAddr (w : List Nat) (r : Nat) : Nat := daddr w 5 + r * w.getD 9 0
def mvDstAddr (w : List Nat) (r : Nat) : Nat := daddr w 7 + r * w.getD 10 0
def mvFmt (w : List Nat) : Fmt := if dfld w 0 5 5 == 1 then .fp16 else .bf16

/-- A side is served here: local, or fabric with the device's own address (R30). -/
def State.mvHere (s : State) (kind peer : Nat) : Bool := kind == 0 || (kind == 1 && s.fabValid && peer == s.fabAddr)
def State.srcHere (s : State) (w : List Nat) : Bool := mvFill w || s.mvHere (dfld w 0 11 10) (dfld w 1 31 16)
def State.dstHere (s : State) (w : List Nat) : Bool := s.mvHere (dfld w 0 13 12) (dfld w 2 15 0)

/-! ### Checks at issue (R337) -/

/-- End of the HBM part or the drum SRAM region an address lies in (R24, R314). -/
def State.mvLimit (s : State) (t a : Nat) : Option Nat :=
  match regionOf a with
  | .hbm =>
    let l := s.localGib t
    let inter := 24 * (64 - l) * gib
    some (if a < inter then inter else inter + ((a - inter) / (3 * l * gib) + 1) * (3 * l * gib))
  | .scratch u => some (drumBase u + 0xC000000)
  | .ctxStore u => some (drumBase u + 0xF000000)
  | .queueMem u => some (drumBase u + 0x10000000)
  | _ => none

/-- Bytes from the base to the end of the last row (R448). -/
def mvExtent (rows stride row : Nat) : Nat := if rows == 0 then 0 else (rows - 1) * stride + row

/-- A local side passes the end of its part or region (R337). -/
def State.mvPasses (s : State) (t base rows stride row : Nat) : Bool :=
  match s.mvLimit t base with
  | some e => rows != 0 && e < base + mvExtent rows stride row
  | none => false

/-- Reserved fields of a mover descriptor (R91, R336). -/
def mvReservedOk (w : List Nat) : Bool :=
  dfld w 0 31 22 == 0 && dfld w 2 31 16 == 0 && w.getD 14 0 == 0 && w.getD 15 0 == 0
  && (mvFill w || daddrOk w 5) && daddrOk w 7 && daddrOk w 11 && (!mvMantle w || dfld w 0 4 3 != 0)

/-- A peer that its kind cannot name, or a host extent beyond its memory region (R337, R418, R425). -/
def State.mvPeerBad (s : State) (kind peer off extent : Nat) : Bool :=
  match kind with
  | 1 => !s.fabAddrOk peer
  | 2 => peer ≥ 4096 || (tget s.host.qps peer).len < off + extent
  | _ => false

/-- The status word is misaligned or outside the tower's drum SRAM window (R337). -/
def mvStatusBad (t a : Nat) : Bool := a != 0 && (a % 4 != 0 || !inDrum a || drumOf a != t)

/-- The checks of R337 in order. -/
def State.mvChecks (s : State) (t : Nat) (w : List Nat) : List (Bool × Status) :=
  let sk := dfld w 0 11 10
  let dk := dfld w 0 13 12
  let rows := mvRows w
  let bb := mantleBytes (dfld w 0 4 3)
  let cbase := if dfld w 0 2 0 == 2 then daddr w 7 else daddr w 5
  let cstride := if dfld w 0 2 0 == 2 then w.getD 10 0 else w.getD 9 0
  [ (dfld w 0 2 0 > 3 || sk == 3 || dk == 3 || !mvReservedOk w || (mvFill w && sk != 0) || dfld w 0 9 7 > 4, .badDescriptor),
    (w.getD 3 0 == 0 || (rows > 1 && ((!mvFill w && w.getD 9 0 < mvSrcRow w) || w.getD 10 0 < mvDstRow w)),
      .badDescriptor),
    (mvMantle w && (w.getD 3 0 % 256 != 0 || cbase % bb != 0 || cstride % bb != 0), .badDescriptor),
    (mvStatusBad t (daddr w 11), .badDescriptor),
    ((!mvFill w && sk == 0 && s.mvPasses t (daddr w 5) rows (w.getD 9 0) (mvSrcRow w))
      || (dk == 0 && s.mvPasses t (daddr w 7) rows (w.getD 10 0) (mvDstRow w)), .lengthRange),
    ((!mvFill w && s.mvPeerBad sk (dfld w 1 31 16) (daddr w 5) (mvExtent rows (w.getD 9 0) (mvSrcRow w)))
      || s.mvPeerBad dk (dfld w 2 15 0) (daddr w 7) (mvExtent rows (w.getD 10 0) (mvDstRow w)), .lengthRange) ]

/-! ### Jobs and parts -/

def State.mvJob (s : State) (n : Nat) : MvJob := tget s.ram.jobs n
def State.setMvJob (s : State) (n : Nat) (j : MvJob) : State := { s with ram := { s.ram with jobs := tput s.ram.jobs n j } }
def State.hasMv (s : State) (n : Nat) : Bool := s.ram.jobs.any fun x => x.1 == n
def MvJob.part (j : MvJob) (i : Nat) : MvPart := j.parts.getD i default
def State.setPart (s : State) (n i : Nat) (p : MvPart) : State :=
  let j := s.mvJob n
  s.setMvJob n { j with parts := j.parts.set i p }

/-- The destination bytes of a failed part become undefined where memory here holds them (R338, step 1). -/
def State.spoilPart (s : State) (j : MvJob) (i : Nat) : State :=
  let w := j.words
  if !s.dstHere w then s
  else s.each (List.range (mvCount w i)) fun s r =>
    let a := mvDstAddr w (mvLo w i + r)
    if s.ctxWriteOk j.sampled j.c a (mvDstRow w) then s.spoil a (mvDstRow w) else s

/-- Part `i` fails with a cause; the first failure of the transfer is noted (R338, R339). -/
def State.markFailed (s : State) (n i cause : Nat) : State :=
  let j := s.mvJob n
  let s := s.spoilPart j i
  let first := j.firstFailed.isNone
  s.setMvJob n { j with
    parts := j.parts.set i { j.part i with st := .failed, tag := none, host := false, buf := [] },
    firstFailed := some (j.firstFailed.getD i), cause := if first then cause else j.cause }

/-- MOVER_PART_FAIL's effect: a running part fails, and the parts not yet started are abandoned (R338). -/
def State.failPart (s : State) (n i cause : Nat) : State :=
  if !s.hasMv n || ((s.mvJob n).part i).st != .running then s
  else
    let s := s.markFailed n i cause
    let j := s.mvJob n
    s.setMvJob n { j with parts := j.parts.map fun p => if p.st == .waiting then { p with st := .abandoned } else p }

/-! ### Host queue pairs (R425, R426, R568) -/

def State.qp (s : State) (q : Nat) : Qp := tget s.host.qps q
def State.setQp (s : State) (q : Nat) (x : Qp) : State := { s with host := { s.host with qps := tput s.host.qps q x } }
/-- The priority something is sent on: RoCEv2 traffic on one, Belpel traffic on a second, anything else on none (R430). -/
def State.prioOf (s : State) (o : HostOut) : Option Nat :=
  match o with
  | .belpel _ _ => some (s.fld .hostPfcCfg 0 0 hostPfcCfg_belpelPrio)
  | .rdma _ _ => some (s.fld .hostPfcCfg 0 0 hostPfcCfg_rocePrio)
  | .ack _ _ => some (s.fld .hostPfcCfg 0 0 hostPfcCfg_rocePrio)
  | .nak _ _ _ => some (s.fld .hostPfcCfg 0 0 hostPfcCfg_rocePrio)
  | .readResp _ _ _ => some (s.fld .hostPfcCfg 0 0 hostPfcCfg_rocePrio)
  | .cnp _ => some (s.fld .hostPfcCfg 0 0 hostPfcCfg_rocePrio)
  | _ => none
/-- A received pause is in force for what is to be sent, where the port honours pauses (R430). -/
def State.isPaused (s : State) (o : HostOut) : Bool :=
  s.bit .hostPfcCfg 0 0 hostPfcCfg_pfcEn && (match s.prioOf o with
    | some p => s.host.paused.testBit p
    | none => false)

/-- A valid neighbour entry holds an address (R422). -/
def State.neighbourOf (s : State) (ip : List Byte) : Option (List Byte) :=
  (s.host.neigh.find? fun x => x.2.valid && x.2.ip == ip).map (·.2.mac)

/-- The queue pair that a RoCEv2 packet of the device belongs to. -/
def HostOut.qp (o : HostOut) : Option Nat :=
  match o with
  | .rdma q _ => some q
  | .ack q _ => some q
  | .nak q _ _ => some q
  | .readResp q _ _ => some q
  | .cnp q => some q
  | _ => none

/-- The IP peer that something is sent to: none for what answers an ARP request or a neighbour solicitation with the addresses
in it, and for a pause (DEDUCED, log entry 88). -/
def State.peerOf (s : State) (o : HostOut) : Option (List Byte) :=
  match o with
  | .belpel _ d => some d.ip
  | .echoReply ip _ => some ip
  | _ => o.qp.map fun q => (s.qp q).ip

/-- The peer of what is to be sent has a neighbour entry (R422). -/
def State.reaches (s : State) (o : HostOut) : Bool :=
  match s.peerOf o with
  | some ip => (s.neighbourOf ip).isSome
  | none => true

/-- What the headers of something sent now say: a VLAN tag where one is configured, with the priority of its class, and for a
RoCEv2 packet ECT(0), its ICRC and the remote queue pair (R422, R425, R430). -/
def State.framed (s : State) (o : HostOut) : HostSent :=
  let vlan := s.fld .hostPfcCfg 0 0 hostPfcCfg_vlanId
  { out := o, tag := if vlan == 0 then none else some (vlan, (s.prioOf o).getD 0), ect := o.qp.isSome, icrc := o.qp.isSome,
    destQp := o.qp.map fun q => (s.qp q).remoteQpn }

/-- The port sends something: nothing goes to a peer without a neighbour entry (R422), and what meets a received pause for its
priority is held while that is in force (R430). -/
def State.emit (s : State) (o : HostOut) : State :=
  if !s.reaches o then s
  else if s.isPaused o then { s with host := { s.host with stalled := s.host.stalled ++ [o] } }
  else { s with host := { s.host with tx := s.framed o :: s.host.tx } }

/-- What waits is sent again, as far as no pause is in force for it (R430). -/
def State.flushStalled (s : State) : State :=
  let l := s.host.stalled
  let s := { s with host := { s.host with stalled := [] } }
  s.each l State.emit

/-- A transfer uses queue pair `q`. -/
def MvJob.usesQp (j : MvJob) (q : Nat) : Bool :=
  (!mvFill j.words && dfld j.words 0 11 10 == 2 && dfld j.words 1 31 16 == q)
  || (dfld j.words 0 13 12 == 2 && dfld j.words 2 15 0 == q)

/-- Every part that uses a queue pair and has not ended fails with cause HOST_QP_ERROR (R426). -/
def State.failQpParts (s : State) (q : Nat) : State :=
  let js := (s.ram.jobs.filter fun x => x.2.usesQp q && !x.2.complete).map (·.1)
  s.each js fun s n => s.each (List.range (s.mvJob n).parts.length) fun s i =>
    let st := ((s.mvJob n).part i).st
    if st == .running || st == .waiting then s.markFailed n i 3 else s

/-- HOST_QP_ERROR: a queue pair moves to ERROR with a cause of R568; its messages are dropped and its mover parts fail
(R426). -/
def State.qpError (s : State) (q cause : Nat) : State :=
  let s := s.setQp q { s.qp q with st := .error, cause := cause, waiting := [], sent := [] }
  let s := (s.flag .hostErr 0 0 hostErr_qpError).count .hostQpErrCnt 0 0 hostQpErrCnt_count 1
  (s.raise 160 q).failQpParts q

/-- Bytes of a path MTU code (R425). -/
def mtuBytes (c : Nat) : Nat := 1024 * 2 ^ c

/-- PSNs a message takes. -/
def psnCount (mtu len : Nat) : Nat := max 1 ((len + mtuBytes mtu - 1) / mtuBytes mtu)

/-- The queue pair sends the messages that wait, in order, with at most 16 READs outstanding (R425); without a neighbour entry it
moves to ERROR (R422, R426). -/
def State.qpPump (s : State) (q n : Nat) : State :=
  match n with
  | 0 => s
  | k + 1 =>
    let x := s.qp q
    match x.waiting with
    | [] => s
    | m :: rest =>
      if x.st != .rts || (m.read && (x.sent.filter (·.read)).length ≥ 16) then s
      else if (s.neighbourOf x.ip).isNone then s.qpError q 6
      else
        let m := { m with psn := x.sqPsn }
        let s := s.setQp q { x with
          waiting := rest, sent := x.sent ++ [m], sqPsn := (x.sqPsn + psnCount x.mtu m.len) % 2 ^ 24,
          ackTick := if x.sent.isEmpty then s.refclk else x.ackTick }
        (s.emit (.rdma q m)).qpPump q k

/-- A mover part sends a message on a queue pair; a pair that is not in RTS fails the part (R426). -/
def State.qpSend (s : State) (q : Nat) (m : RMsg) : State :=
  let x := s.qp q
  if x.st != .rts then s.failPart m.job m.part 3
  else (s.setQp q { x with waiting := x.waiting ++ [m] }).qpPump q 17

/-! ### What a part reads and writes (R329 to R334, R336) -/

/-- Memory a mover may read: HBM, drum SRAM, and accumulator windows (R25, R26). -/
def mvReadOk (a n : Nat) : Bool :=
  unitReadOk a n || (match regionOf a, regionOf (a + n - 1) with
    | .acc t, .acc u => t == u
    | _, _ => false)

/-- The first local access of part `i` that is not allowed (R25 to R27, R328, R347, R462). -/
def State.partFault (s : State) (j : MvJob) (i : Nat) : Option Nat :=
  let w := j.words
  (List.range (mvCount w i)).findSome? fun r =>
    let a := mvSrcAddr w (mvLo w i + r)
    let b := mvDstAddr w (mvLo w i + r)
    let n := mvSrcRow w
    let m := mvDstRow w
    if !mvFill w && s.srcHere w && (!mvReadOk a n || (dfld w 0 2 0 == 3 && !mantleSpanOk a n)) then some a
    else if s.dstHere w && (!s.ctxWriteOk j.sampled j.c b m || (dfld w 0 2 0 == 2 && !mantleSpanOk b m)) then some b
    else none

/-- Local source ranges of part `i`. -/
def State.partSrc (s : State) (j : MvJob) (i : Nat) : List (Nat × Nat) :=
  if mvFill j.words || !s.srcHere j.words then []
  else (List.range (mvCount j.words i)).map fun r => (mvSrcAddr j.words (mvLo j.words i + r), mvSrcRow j.words)

/-- Local destination ranges of part `i`. -/
def State.partDst (s : State) (j : MvJob) (i : Nat) : List (Nat × Nat) :=
  if !s.dstHere j.words then []
  else (List.range (mvCount j.words i)).map fun r => (mvDstAddr j.words (mvLo j.words i + r), mvDstRow j.words)

/-- `n` bytes of a remote source from position `pos` of a part's rows. -/
def gather (buf : List (Nat × List Byte)) (pos n : Nat) : List Byte :=
  (List.range n).map fun k =>
    match buf.find? fun x => x.1 ≤ pos + k && pos + k < x.1 + x.2.length with
    | some x => x.2.getD (pos + k - x.1) 0
    | none => 0

/-- The source bytes of row `r` of part `i`. -/
def State.srcBytes (s : State) (j : MvJob) (i r : Nat) : List Byte :=
  let n := mvSrcRow j.words
  if s.srcHere j.words then s.bytes (mvSrcAddr j.words r) n
  else gather (j.part i).buf ((r - mvLo j.words i) * n) n

/-- Block `k` of `n` bytes. -/
def blockOf (bs : List Byte) (n k : Nat) : List Byte := (bs.drop (n * k)).take n
/-- The 16-bit codes of a run of bytes. -/
def codes16 (bs : List Byte) : List Nat := (List.range (bs.length / 2)).map fun i => leOf (blockOf bs 2 i)

/-- The destination bytes of a row whose source bytes are `bs` and whose destination is `a` (R331, R332, R336). -/
def mvOut (w : List Nat) (a : Nat) (bs : List Byte) : List Byte :=
  let ratio := dfld w 0 4 3
  let bb := mantleBytes ratio
  let blocks := List.range (w.getD 3 0 / 256)
  match dfld w 0 2 0 with
  | 0 => bs
  | 1 => (List.range (w.getD 3 0)).map fun i => BitVec.ofNat 8 (w.getD 13 0 / 2 ^ (8 * ((a + i) % 4)))
  | 2 => blocks.flatMap fun k => bytesOf bb (mantleCompress ratio (mvFmt w) (codes16 (blockOf bs 256 k))).bits
  | _ => blocks.flatMap fun k =>
      let bits := leOf (blockOf bs bb k)
      (List.range 128).flatMap fun e => bytesOf 2 (mantleElem ratio (mvFmt w) bits e)

/-- Row `r` of part `i` is stored at a local destination; a compressed row goes through the compressor (R331, R335). -/
def State.storeRowHere (s : State) (j : MvJob) (i r : Nat) : State :=
  let w := j.words
  let a := mvDstAddr w r
  let bs := if mvFill w then [] else s.srcBytes j i r
  if dfld w 0 2 0 == 2 then
    let bb := mantleBytes (dfld w 0 4 3)
    s.each (List.range (w.getD 3 0 / 256)) fun s k =>
      s.mantleWrite j.t (a + k * bb) (dfld w 0 4 3) (mvFmt w) (codes16 (blockOf bs 256 k))
  else s.store a (mvOut w a bs)

/-- The blocks of a compressed row sent to a remote destination at `a` are offered to the statistics table of the drum whose mover
compresses them (R335). -/
def State.sentStats (s : State) (j : MvJob) (a : Nat) (bs : List Byte) : State :=
  let w := j.words
  let ratio := dfld w 0 4 3
  if dfld w 0 2 0 != 2 then s
  else s.each (List.range (w.getD 3 0 / 256)) fun s k =>
    let cs := codes16 (blockOf bs 256 k)
    let b := mantleCompress ratio (mvFmt w) cs
    s.mantleStats j.t (a + k * mantleBytes ratio) b (mantleError ratio (mvFmt w) cs b.bits)

/-! ### Parts at work (R338) -/

/-- A part still has remote source bytes to read, or remote destination bytes to write. -/
def State.readsLeft (s : State) (j : MvJob) (i : Nat) : Bool :=
  !s.srcHere j.words && (j.part i).rpos < mvCount j.words i * mvSrcRow j.words
def State.writesLeft (s : State) (j : MvJob) (i : Nat) : Bool :=
  !s.dstHere j.words && (j.part i).wpos < mvCount j.words i * mvDstRow j.words

/-- The fabric class of a transfer's packets (R336, R399). -/
def MvJob.cls (j : MvJob) : Nat := if j.bg then 4 else 1

/-- A running part issues its next request: the source bytes of a remote source piece by piece, then the destination bytes of a
remote destination, each piece within one 4 KiB page of a fabric peer or one row of a host region (R404, R425). A known
uncorrectable error in a local source fails the part (R319); while the traffic of a local source is held, the part waits (R20,
R322). -/
def State.partGo (s : State) (n i : Nat) : State :=
  let j := s.mvJob n
  let w := j.words
  let p := j.part i
  if p.st != .running || p.tag.isSome || p.host then s
  else if s.readsLeft j i then
    let row := mvSrcRow w
    let a := mvSrcAddr w (mvLo w i + p.rpos / row) + p.rpos % row
    let left := row - p.rpos % row
    if dfld w 0 11 10 == 1 then
      let len := min left (4096 - a % 4096)
      let s := s.setPart n i { p with tag := some s.fab.nextTag }
      s.issuePacket j.t (.part n i) .read j.cls (dfld w 1 31 16) a len []
    else
      let q := dfld w 1 31 16
      let m : RMsg := { read := true, psn := 0, va := (s.qp q).va + a, len := left, data := [], job := n, part := i,
                        pos := p.rpos }
      (s.setPart n i { p with host := true }).qpSend q m
  else if s.writesLeft j i then
    let row := mvDstRow w
    let r := mvLo w i + p.wpos / row
    let off := p.wpos % row
    let a := mvDstAddr w r + off
    let left := row - off
    if s.trafficHeld (drumIsland j.t) (s.partSrc j i) then s
    else
    match (s.partSrc j i).findSome? fun x => s.knownBad x.1 x.2 with
    | some b => (s.recordUe j.t b).failPart n i 1
    | none =>
      let bs := if mvFill w then [] else s.srcBytes j i r
      let out := mvOut w (mvDstAddr w r) bs
      let s := if off == 0 then s.sentStats j (mvDstAddr w r) bs else s
      if dfld w 0 13 12 == 1 then
        let len := min left (4096 - a % 4096)
        let s := s.setPart n i { p with tag := some s.fab.nextTag }
        s.issuePacket j.t (.part n i) .write j.cls (dfld w 2 15 0) a len ((out.drop off).take len)
      else
        let q := dfld w 2 15 0
        let m : RMsg := { read := false, psn := 0, va := (s.qp q).va + a, len := left, data := (out.drop off).take left,
                          job := n, part := i, pos := p.wpos }
        (s.setPart n i { p with host := true }).qpSend q m
  else s

/-- Read data for a part has come in. -/
def State.partData (s : State) (n i : Nat) (bs : List Byte) : State :=
  let p := (s.mvJob n).part i
  if !s.hasMv n || p.st != .running then s
  else
    let p := { p with tag := none, host := false, buf := p.buf ++ [(p.rpos, bs)], rpos := p.rpos + bs.length }
    (s.setPart n i p).partGo n i

/-- `len` bytes of a part are performed at its remote destination. -/
def State.partWritten (s : State) (n i len : Nat) : State :=
  let j := s.mvJob n
  let p := j.part i
  if !s.hasMv n || p.st != .running then s
  else
    let p := { p with tag := none, host := false, wpos := p.wpos + len }
    (s.setMvJob n { j with stored := s.step.bounds, parts := j.parts.set i p }).partGo n i

/-- Parts running on the movers of tower `t`. -/
def State.moversBusy (s : State) (t : Nat) : Nat :=
  ((s.ram.jobs.filter fun x => x.2.t == t).map fun x => (x.2.parts.filter fun p => p.st == .running).length).foldl (· + ·) 0

/-- The transfer is served as normal class (R336, R468). -/
def MvJob.normal (j : MvJob) : Bool := !j.bg || j.promoted
/-- The transfer has a part to start. -/
def MvJob.hasWaiting (j : MvJob) : Bool := j.parts.any fun p => p.st == .waiting

/-- MOVER_ISSUE: the descriptor at the head of the mover queue is checked and issued; parts without rows are done (R336 to
R338). -/
def State.moverIssue (s : State) (t c : Nat) : State :=
  let a := s.descAddr .mover t c
  let w := s.descWords .mover t c
  let index := s.qHead .mover t c
  let tag := dfld w 1 15 0
  if !s.qCanIssue .mover t c || (dfld w 0 16 16 == 1 && !s.qIdle .mover t c) then s
  else if !descRegionOk .mover t a then s.unitFault c t 5 causeAddress a 0 index
  else if s.trafficHeld (drumIsland t) [(a, 64)] then s
  else
    match s.knownBad a 64 with
    | some b => s.unitUe c t 5 b 0 index
    | none =>
      match firstFail (s.mvChecks t w) with
      | some st =>
        s.qReject .mover t c (dfld w 0 14 14 == 1) (dfld w 0 15 15 == 1)
          [tag + st.code * 2 ^ 16, 0, 0, 0, 0, 0, index, 0]
      | none =>
        let parts := (List.range (mvParts w)).map fun i =>
          { (default : MvPart) with st := if mvCount w i == 0 then .done else .waiting }
        let j : MvJob :=
          { t := t, c := c, words := w, index := index, parts := parts, firstFailed := none, cause := 0, ecc := false,
            promoted := false, born := s.step.bounds, stored := s.step.bounds, sampled := s.sample c, complete := false }
        let n := s.ram.nextJob
        let s := s.qIssued .mover t c n (dfld w 0 14 14 == 1 && s.member c)
        { s with ram := { s.ram with jobs := tput s.ram.jobs n j, nextJob := n + 1 } }

/-- The transfer whose part a free mover of tower `t` takes where the command names `n`: a normal one that has waited 4,096
cycles goes first (`aged` names the oldest, R467). -/
def State.startPick (s : State) (t n : Nat) (aged : Option Nat) : Nat :=
  match aged with
  | some m =>
    let y := s.mvJob m
    if s.hasMv m && y.t == t && y.normal && y.hasWaiting then m else n
  | none => n

/-- MOVER_PART_START: a free mover of the tower starts the next unstarted part of transfer `n`, or of one that has waited long
(R338, R467); a background transfer waits while a normal one of the tower has a part to start (R340). An access that is not
allowed faults the context. -/
def State.partStart (s : State) (n : Nat) (aged : Option Nat) : State :=
  let n := s.startPick (s.mvJob n).t n aged
  let j := s.mvJob n
  let rival := s.ram.jobs.any fun x => x.2.t == j.t && x.2.normal && x.2.hasWaiting
  match j.parts.findIdx? fun p => p.st == .waiting with
  | none => s
  | some i =>
    if !s.hasMv n || s.moversBusy j.t ≥ 4 || (!j.normal && rival) then s
    else
      match s.partFault j i with
      | some a => s.unitFault j.c j.t 5 causeAddress a (dfld j.words 1 15 0) j.index
      | none => (s.setPart n i { j.part i with st := .running }).partGo n i

/-- A part's local source and destination wait (R20, R52, R322, R345). -/
def State.partHeld (s : State) (j : MvJob) (i : Nat) : Bool :=
  s.trafficHeld (drumIsland j.t) (s.partSrc j i) || s.storesHeld (drumIsland j.t) (s.partDst j i)

/-- MOVER_PART_COMPLETE: a running part whose remote reads and writes are over finishes; rows for a local destination are
stored now, unless their traffic or the stores are held (R20, R338, R345). An error in its source fails it (R319). -/
def State.partComplete (s : State) (n i : Nat) (ecc : Ecc) : State :=
  let j := s.mvJob n
  let p := j.part i
  if !s.hasMv n || p.st != .running || p.tag.isSome || p.host || s.readsLeft j i || s.writesLeft j i then s
  else
    match s.partFault j i with
    | some a => s.unitFault j.c j.t 5 causeAddress a (dfld j.words 1 15 0) j.index
    | none =>
      if s.partHeld j i then s
      else
        let src := s.partSrc j i
        match s.spansError src ecc with
        | some b => (s.readUe j.t b).failPart n i 1
        | none =>
          let rows := (List.range (mvCount j.words i)).map (mvLo j.words i + ·)
          let s := s.countSpans j.t src ecc
          let s := if s.dstHere j.words then s.each rows fun s r => s.storeRowHere j i r else s
          let j := s.mvJob n
          s.setMvJob n { j with
            parts := j.parts.set i { p with st := .done, buf := [] }, stored := s.step.bounds,
            ecc := j.ecc || ecc.touches src }

/-- MOVER_PART_FAIL: a running part meets an uncorrectable error at `a` of its local source (R319, R338). -/
def State.partFail (s : State) (n i a : Nat) : State :=
  let j := s.mvJob n
  if s.hasMv n && (j.part i).st == .running && (s.partSrc j i).any fun x => x.1 ≤ a && a < x.1 + x.2 then
    (s.readUe j.t a).failPart n i 1
  else s

/-- Running parts that waited go on (R20, R322). -/
def State.mvTick (s : State) : State :=
  s.each s.ram.jobs fun s x => s.each (List.range x.2.parts.length) fun s i => s.partGo x.1 i

/-- The code of a part in the completion record (R339). -/
def partSt (p : MvPart) : Nat :=
  match p.st with
  | .failed => 1
  | .abandoned => 2
  | _ => 0

/-- The mover completion record (R339). -/
def MvJob.record (j : MvJob) : List Nat :=
  let st : Status := if j.firstFailed.isSome then .transferPartial else .ok
  let moved := (j.parts.zipIdx.filter fun x => x.1.st == .done).map fun x => mvCount j.words x.2 * mvDstRow j.words
  [dfld j.words 1 15 0 + st.code * 2 ^ 16, j.ecc.toNat + 2 * j.promoted.toNat,
   min (moved.foldl (· + ·) 0 / 1024) (2 ^ 32 - 1), j.parts.length,
   (j.parts.zipIdx.map fun x => partSt x.1 * 4 ^ x.2).foldl (· + ·) 0,
   j.firstFailed.getD 0 + j.cause * 2 ^ 8, j.index, 0]

/-- MOVER_TRANSFER_COMPLETE: every part has ended; the transfer completes with OK or TRANSFER_PARTIAL, and its status word
follows its record (R339). -/
def State.transferComplete (s : State) (n : Nat) : State :=
  let j := s.mvJob n
  let finished (p : MvPart) : Bool := p.st == .done || p.st == .failed || p.st == .abandoned
  if !s.hasMv n || !(j.parts.all finished) then s
  else
    let st : Status := if j.firstFailed.isSome then .transferPartial else .ok
    let sp := daddr j.words 11
    let r : DoneRec :=
      { words := j.record, after := if sp == 0 then none else some (sp, dfld j.words 1 15 0 * 2 ^ 16 + st.code, j.sampled) }
    let s := s.qCompleted .mover j.t j.c n r
    let s := if j.firstFailed.isSome then s.flag .memMvErr j.t j.c memMvErr_partial else s
    let s := s.raiseDone .mover j.t j.c (dfld j.words 0 15 15 == 1)
    { s with ram := { s.ram with jobs := sparseDrop s.ram.jobs n } }

/-! ### The commands -/

/-- MOVER_ISSUE (R337). -/
def execMoverIssue (t : Tower) (c : CtxId) (s : State) : Host.Outcome State Fault Refusal :=
  .next (s.moverIssue t.val c.val)
/-- MOVER_PART_START (R338). -/
def execMoverPartStart (job : Turn Nat) (s : State) : Host.Outcome State Fault Refusal :=
  .next (s.partStart job.who job.aged)
/-- MOVER_PART_COMPLETE (R338). -/
def execMoverPartComplete (job part : Nat) (ecc : Ecc) (s : State) : Host.Outcome State Fault Refusal :=
  .next (s.partComplete job part ecc)
/-- MOVER_PART_FAIL (R338). -/
def execMoverPartFail (job part addr : Nat) (s : State) : Host.Outcome State Fault Refusal :=
  .next (s.partFail job part addr)
/-- MOVER_TRANSFER_COMPLETE (R339). -/
def execMoverTransferComplete (job : Nat) (s : State) : Host.Outcome State Fault Refusal := .next (s.transferComplete job)

end Sys2Proof.Machine
end

