-- ==== Sys2Proof/Machine/Packets.lean ====
section
/-! DEFINITION. Packets received for this device: remote reads and writes, their answers and time-outs, snapshot closes,
reduction messages and messages between Lumdom instances (R31, R344 to R347, R366 to R382, R404 to R406, R481, R482, R490 to
R492). -/

namespace Sys2Proof.Machine

/-- The drum that handles a packet from a port. -/
def atTower (port : Nat) : Nat := if port < 6 then portTower port else 0

/-- The received packet `p` of kind `k`, with its port. -/
def State.received (s : State) (p : Packet) (k : PktKind) : Option Nat :=
  if p.kind == k then (s.hasLocal p).map (·.1) else none

/-- The answer to a request (R404). -/
def replyTo (p : Packet) (own : Nat) (k : PktKind) (payload : List Byte) : Packet :=
  { dst := p.src, src := own, kind := k, cls := 2, sub := 0, detour := false, resent := false, length := payload.length,
    tag := p.tag, addr := p.addr, payload := payload }

/-! ### Remote accesses (R31, R404) -/

/-- A packet may fill a mirror entry: snapshot or refill traffic, which `snap` says it is, from a device allowed to (R347, R490;
log entry 87). -/
def State.mayFill (s : State) (e : Nat) (m : Mirror) (p : Packet) (snap : Bool) : Bool :=
  snap && p.cls == 4 && (p.src == m.src || (match s.ram.refillIn with
    | some (x, src, 0) => x == e && src == p.src
    | _ => false))

/-- WRITE_PACKET_RECEIVE: every byte is performed and a WRITE_ACK sent; an address the device does not take from a remote
issuer, or a mirror entry the source may not fill (MIRROR_STORE_DISCARD), is answered with ADDRESS_FAULT (R31, R347, R404).
A store that is held on its way or at its drum waits (R20, R52, R322, R345). -/
def State.writeIn (s : State) (p : Packet) (snap : Bool) : State :=
  match s.received p .write with
  | none => s
  | some port =>
    let t := atTower port
    let n := p.payload.length
    let ack (s : State) : State := (s.dropLocal (port, p)).sendResponse t (replyTo p s.fabAddr .writeAck [])
    let refuse : State := (s.dropLocal (port, p)).nack t p .addressFault
    if !unitWriteOk p.addr n then refuse
    else
      match s.mirrorAt p.addr with
      | some (e, m) =>
        if !(s.mayFill e m p snap && p.addr + n ≤ m.base + m.size * 4096) then refuse
        else if s.trafficHeld (drumIsland t) [(p.addr, n)] then s
        else ack ((s.mirrorFill e).store p.addr p.payload)
      | none =>
        if s.mirrorHit p.addr n then refuse
        else if s.storesHeld (drumIsland t) [(p.addr, n)] then s
        else ack (s.store p.addr p.payload)

/-- READ_PACKET_RECEIVE: the bytes are read and sent as READ_DATA; an address the device does not take is answered with
ADDRESS_FAULT (R31, R404). An uncorrectable error is recorded and leaves the request without an answer (R319, R321). A read that
is held on its way waits (R20, R322). -/
def State.readIn (s : State) (p : Packet) (ecc : Ecc) : State :=
  match s.received p .read with
  | none => s
  | some port =>
    let t := atTower port
    if !mvReadOk p.addr p.length then (s.dropLocal (port, p)).nack t p .addressFault
    else if s.trafficHeld (drumIsland t) [(p.addr, p.length)] then s
    else
      let s := (s.dropLocal (port, p)).countFixed t p.addr p.length ecc
      match s.readError p.addr p.length ecc with
      | some bad => s.readUe t bad
      | none => s.sendResponse t (replyTo p s.fabAddr .readData (s.bytes p.addr p.length))

/-! ### Answers (R405, R406) -/

/-- The request a response answers; it is no longer in flight. -/
def State.takeReq (s : State) (tag : Nat) : Option Req × State :=
  (tget s.fab.reqs tag, { s with fab := { s.fab with reqs := tput s.fab.reqs tag none } })

/-- A response that no request waits for is discarded and counted (R405). -/
def State.lateResponse (s : State) (t : Nat) : State := s.count .plynUnroutable t 0 plynUnroutable_count 1

/-- A snapshot entry fails (R346). -/
def State.snapLost (s : State) (e : Nat) : State :=
  match s.ram.snap with
  | none => s
  | some x =>
    if !(x.runs.any fun r => r.entry == e && !r.own && !r.failed) then s
    else
      let s := s.setSnapRuns fun r => if r.entry == e && !r.own then { r with failed := true, tags := [] } else r
      s.snapFail x.step

/-- What a NACK, or the time-out of a request, does at the source (R31, R405, R406). -/
def State.nackReq (s : State) (r : Req) (fault : Bool) : State :=
  match r.what with
  | .part n i =>
    if !fault then s.failPart n i 2
    else if !s.hasMv n then s
    else
      let j := s.mvJob n
      s.ctxFault j.c
        { cause := causeAddress, tower := j.t, unit := 5, remote := true, thread := 0x3FFFF, pc := 0,
          addr := r.dst * 2 ^ 48 + r.addr, jobTag := dfld j.words 1 15 0, descIndex := j.index, step := 0, tick := 0,
          further := 0, threadsFreed := 0, groupsAborted := 0 }
  | .reduce g e => if fault then s else s.abortGroup 0 g e false
  | .token => if fault then s else s.stepAbort none
  | .snap e => s.snapLost e
  | .refill => s.onRefill r.dst fun q => { q with failed := true }
  | .other => s

/-- NACK: a negative response (R406). -/
def State.nackIn (s : State) (p : Packet) : State :=
  match s.received p .nack with
  | none => s
  | some port =>
    let s := s.dropLocal (port, p)
    match s.takeReq p.tag with
    | (none, s) => s.lateResponse (atTower port)
    | (some r, s) => s.nackReq r (leOf (p.payload.take 2) == Status.addressFault.code)

/-- READ_DATA: the answer to a READ (R404). -/
def State.dataIn (s : State) (p : Packet) : State :=
  match s.received p .readData with
  | none => s
  | some port =>
    let s := s.dropLocal (port, p)
    match tget s.fab.reqs p.tag with
    | some r =>
      if r.kind != .read || r.dst != p.src then s.lateResponse (atTower port)
      else
        let s := (s.takeReq p.tag).2
        match r.what with
        | .part n i => s.partData n i p.payload
        | _ => s
    | none => s.lateResponse (atTower port)

/-- A page of a stream is performed at its entry. -/
def PageRun.performed (r : PageRun) (tag : Nat) : PageRun := { r with tags := r.tags.filter (· != tag) }

/-- WRITE_ACK: every byte of a WRITE is performed at its destination (R404). -/
def State.ackIn (s : State) (p : Packet) : State :=
  match s.received p .writeAck with
  | none => s
  | some port =>
    let s := s.dropLocal (port, p)
    match tget s.fab.reqs p.tag with
    | some r =>
      if r.kind != .write || r.dst != p.src then s.lateResponse (atTower port)
      else
        let s := (s.takeReq p.tag).2
        match r.what with
        | .part n i => s.partWritten n i r.len
        | .snap _ =>
          match s.ram.snap with
          | some x => { s with ram := { s.ram with
              snap := some { x with runs := x.runs.map fun y => y.performed p.tag, stored := s.step.bounds } } }
          | none => s
        | .refill => s.onRefill r.dst fun q => q.performed p.tag
        | _ => s
    | none => s.lateResponse (atTower port)

/-- REQUEST_TIMEOUT: a request without a response for PLYN_REQ_TIMEOUT ticks completes as if a NACK with PATH_LOST had come
(R405). -/
def State.reqTimeout (s : State) (tag : Nat) : State :=
  match tget s.fab.reqs tag with
  | some r =>
    let waits := r.kind == .read || r.kind == .write
    if waits && (s.reg .plynReqTimeout 0 0).toNat ≤ (s.refclk - r.tick).toNat then (s.takeReq tag).2.nackReq r false else s
  | none => s

/-! ### Snapshots and refills (R343, R344, R490 to R492) -/

/-- SNAP_CLOSE: the entry is valid and holds the step it carries (R344); a refill it ends has closed (R490). -/
def State.closeIn (s : State) (p : Packet) : State :=
  match s.received p .snapClose with
  | none => s
  | some port =>
    let s := s.dropLocal (port, p)
    let e := leOf (p.payload.take 1) % 64
    let n := BitVec.ofNat 32 (leOf (p.payload.drop 4))
    let m := s.mirrorEnt e
    if m.size == 0 || !s.mayFill e m p true then s
    else
      let s := s.mirrorClose e n
      match s.ram.refillIn with
      | some (x, src, 0) => if x == e && src == p.src then { s with ram := { s.ram with refillIn := some (x, src, 1) } } else s
      | _ => s

/-- SNAP_CLOSE_SEND: every store of an entry of the snapshot is performed, so the sender closes it: in this device at once,
at the neighbour by a packet (R343, R344, R477). -/
def State.closeSend (s : State) (e : Nat) : State :=
  match s.ram.snap with
  | none => s
  | some x =>
    match x.runs.find? fun r => r.entry == e && !r.failed && !r.closed && !r.unread && r.tags.isEmpty with
    | none => s
    | some r =>
      let s := s.setSnapRuns fun q => if q == r then { q with closed := true } else q
      let s := if r.own then s.mirrorClose e x.step
        else s.issuePacket 0 (.snap e) .snapClose 4 r.dst 0 8 (bytesOf 4 e ++ bytesOf 4 x.step.toNat)
      s.endSnap

/-- REFILL_COMPLETE: the refill of an own entry has closed, failed or been superseded: MEM_REFILL_DONE is raised and
CTL_REFILL_STAT shows the end (R491, R492). -/
def State.refillDone (s : State) : State :=
  match s.ram.refillIn with
  | some (e, _, how) =>
    if how == 0 then s
    else
      let s := { s with ram := { s.ram with refillIn := none } }
      let s := s.setFld .ctlRefillStat 0 0 ctlRefillStat_busy 0
      let s := if how == 2 then s.flag .ctlRefillStat 0 0 ctlRefillStat_failed else s
      let s := if how == 3 then s.flag .ctlRefillStat 0 0 ctlRefillStat_superseded else s
      s.raise 134 (e + (if how == 1 then 0 else 2 ^ 8))
  | none => s

/-! ### Messages between Lumdom instances (R404, R481, R482) -/

/-- The number of member devices below and at this one goes up the tree, or, at the root, is the group's size and goes down
(R481). -/
def State.tellSize (s : State) : State :=
  let n := s.step.counted + 1
  if s.isRoot then
    let s := { s with step := { s.step with size := n } }
    s.each s.step.children fun s c => s.sendMgmt c.toNat (.groupSize n)
  else s.sendMgmt s.step.parent.toNat (.members n)

/-- What a message of another Lumdom does. -/
def State.mgmtIn (s : State) (src : Nat) (m : Mgmt) : State :=
  let child := s.step.children.contains (BitVec.ofNat 16 src)
  let fromParent := !s.isRoot && BitVec.ofNat 16 src == s.step.parent
  let endRefill (e how : Nat) : State := match s.ram.refillIn with
    | some (x, y, 0) => if x == e && y == src then { s with ram := { s.ram with refillIn := some (x, y, how) } } else s
    | _ => s
  match m with
  | .stepAborted tag => if tag == s.step.groupTag && (child || fromParent) then s.stepAbort (some src) else s
  | .members n =>
    if !child || s.step.countsDue == 0 then s
    else
      let s := { s with step := { s.step with counted := s.step.counted + n, countsDue := s.step.countsDue - 1 } }
      if s.step.countsDue == 0 then s.tellSize else s
  | .groupSize n =>
    if !fromParent then s
    else
      let s := { s with step := { s.step with size := n } }
      s.each s.step.children fun s c => s.sendMgmt c.toNat (.groupSize n)
  | .interval n =>
    if !fromParent then s
    else
      let o := { s.step.openSet with snap := { s.step.openSet.snap with interval := n, computed := true } }
      let s := { s with step := { s.step with openSet := o, interval := n } }
      s.each s.step.children fun s c => s.sendMgmt c.toNat (.interval n)
  | .refill e b n => s.startRefill src e b n
  | .refillFailed e => endRefill e 2
  | .refillSuperseded e => endRefill e 3
  | .mirrorEntry e b n =>
    let x : Mirror := { (default : Mirror) with base := b, size := n }
    { s with ram := { s.ram with nbrMirror := tput s.ram.nbrMirror e x } }

/-- MGMT: a message between Lumdom instances; one of the step group waits until this device is in a group (R404, R481). -/
def State.mgmtTake (s : State) (p : Packet) (m : Mgmt) : State :=
  let early := s.groupState == 0 && (match m with
    | .members _ => true
    | .groupSize _ => true
    | _ => false)
  match s.received p .mgmt with
  | none => s
  | some port => if early then s else (s.dropLocal (port, p)).mgmtIn p.src m

/-! ### Reduction messages (R366 to R382) -/

/-- A reduction message of a kind, with its port. -/
def State.redMsg (s : State) (p : Packet) (kind : Nat) : Option Nat :=
  if (redHdrOf p.payload).kind == kind then s.received p .reduce else none

/-- A partial or summary leaves the list of received packets; its receive slots follow R376. -/
def State.redFrom (s : State) (port : Nat) (p : Packet) (ecc : Ecc) : State :=
  let s := { s with fab := { s.fab with rxLocal := s.fab.rxLocal.erase (port, p) } }
  (s.redIn port p ecc).settleRed

/-- PARTIAL_RECEIVE (R367, R375): it waits while the traffic to its segment is held (R20, R322). -/
def State.partialTake (s : State) (p : Packet) (ecc : Ecc) : State :=
  match s.redMsg p 0 with
  | some port => if s.redWaits (redHdrOf p.payload) then s else s.redFrom port p ecc
  | none => s

/-- SUMMARY_RECEIVE (R370, R375). -/
def State.summaryTake (s : State) (p : Packet) : State :=
  match s.redMsg p 1 with
  | some port => s.redFrom port p .clean
  | none => s

/-- ABORT_NOTICE_RECEIVE (R380). -/
def State.noticeTake (s : State) (p : Packet) : State :=
  match s.redMsg p 2 with
  | some port => (s.dropLocal (port, p)).noticeIn (atTower port) p.src (redHdrOf p.payload)
  | none => s

/-- BUCKET_COMPLETE: the bucket completes and its record is written (R372). A digest pair that Lumdom finds to differ, in a
bucket completed with OK in a group of two or more, is reported with the sender's rank (RED_DIGEST_MISMATCH, R382). -/
def State.bucketEnd (s : State) (g e b : Nat) (differs : Option Nat) : State :=
  let key := grpKey g e
  let was := (s.run key b).complete
  let s := s.bucketComplete g e b
  let ok := !was && (s.run key b).complete && !((s.run key b).sums.any (·.poisoned)) && (s.grp key).size ≥ 2
  match differs with
  | some rank => if ok then s.raise 768 (g % 2 ^ 8 + b % 2 ^ 16 * 2 ^ 8 + rank % 2 ^ 24 * 2 ^ 24) else s
  | none => s

/-- RED_GRP_BASE_WRITE: the base of the group table is written while no entry is valid (RED_GRP_BASE). -/
def State.grpBaseWrite (s : State) (hi : Bool) (v : Word) : State :=
  if s.anyGroup then s.flag .redGrpErr 0 0 redGrpErr_cfgWriteIgnored
  else if hi then s.setReg .redGrpBaseHi 0 0 (v &&& 0xFFFF)
  else s.setReg .redGrpBaseLo 0 0 v

/-! ### The commands -/

/-- WRITE_PACKET_RECEIVE (R404): `snap` says that the sender's snapshot or refill traffic brought it (R347; log entry 87). -/
def execWritePacketReceive (p : WriteIn) (s : State) : Host.Outcome State Fault Refusal :=
  .next (s.writeIn p.pkt p.snap)
/-- READ_PACKET_RECEIVE (R404). -/
def execReadPacketReceive (p : Packet) (ecc : Ecc) (s : State) : Host.Outcome State Fault Refusal := .next (s.readIn p ecc)
/-- READ_DATA (R404). -/
def execReadData (p : Packet) (s : State) : Host.Outcome State Fault Refusal := .next (s.dataIn p)
/-- WRITE_ACK (R404). -/
def execWriteAck (p : Packet) (s : State) : Host.Outcome State Fault Refusal := .next (s.ackIn p)
/-- NACK (R406). -/
def execNack (p : Packet) (s : State) : Host.Outcome State Fault Refusal := .next (s.nackIn p)
/-- SNAP_CLOSE (R344). -/
def execSnapClose (p : Packet) (s : State) : Host.Outcome State Fault Refusal := .next (s.closeIn p)
/-- MGMT (R404). -/
def execMgmt (p : Packet) (m : Mgmt) (s : State) : Host.Outcome State Fault Refusal := .next (s.mgmtTake p m)
/-- REQUEST_TIMEOUT (R405). -/
def execRequestTimeout (tag : Half) (s : State) : Host.Outcome State Fault Refusal := .next (s.reqTimeout tag.toNat)
/-- SNAP_CLOSE_SEND (R343). -/
def execSnapCloseSend (e : Fin 64) (s : State) : Host.Outcome State Fault Refusal := .next (s.closeSend e.val)
/-- REFILL_COMPLETE (R492). -/
def execRefillComplete (s : State) : Host.Outcome State Fault Refusal := .next s.refillDone
/-- PARTIAL_RECEIVE (R367). -/
def execPartialReceive (p : Packet) (ecc : Ecc) (s : State) : Host.Outcome State Fault Refusal := .next (s.partialTake p ecc)
/-- SUMMARY_RECEIVE (R370). -/
def execSummaryReceive (p : Packet) (s : State) : Host.Outcome State Fault Refusal := .next (s.summaryTake p)
/-- ABORT_NOTICE_RECEIVE (R380). -/
def execAbortNoticeReceive (p : Packet) (s : State) : Host.Outcome State Fault Refusal := .next (s.noticeTake p)
/-- BUCKET_COMPLETE (R372). -/
def execBucketComplete (g : Byte) (e b : Half) (differs : Option Nat) (s : State) : Host.Outcome State Fault Refusal :=
  .next (s.bucketEnd g.toNat e.toNat b.toNat differs)
/-- RED_GRP_BASE_WRITE (R349). -/
def execRedGrpBaseWrite (hi : Bool) (v : Word) (s : State) : Host.Outcome State Fault Refusal := .next (s.grpBaseWrite hi v)

end Sys2Proof.Machine
end

