-- ==== Sys2Proof/Machine/Sha.lean ====
section
/-! DEFINITION. SHA-384 and RSA-3072 signatures with PSS padding (R533, R545; log entry 41). -/

namespace Sys2Proof.Machine

/-! ### SHA-384 -/

/-- The largest number of the form r + (a number below 2^b) whose k-th power is at most n, where r is such a number. -/
def rootOf (k n b r : Nat) : Nat :=
  match b with
  | 0 => r
  | j + 1 => rootOf k n j (if (r + 2 ^ j) ^ k ≤ n then r + 2 ^ j else r)

/-- The first `n` primes above `p`, tried up to `fuel` numbers. -/
def primesFrom (fuel p n : Nat) : List Nat :=
  match fuel with
  | 0 => []
  | f + 1 =>
    if n == 0 then []
    else if p ≥ 2 && (List.range 30).all (fun d => d < 2 || d ≥ p || p % d != 0) then p :: primesFrom f (p + 1) (n - 1)
    else primesFrom f (p + 1) n

/-- The round constants: the first 64 bits of the fractions of the cube roots of the first 80 primes. -/
def shaK : List Nat := (primesFrom 420 2 80).map fun p => rootOf 3 (p * 2 ^ 192) 68 0 % 2 ^ 64
/-- The initial state: the first 64 bits of the fractions of the square roots of the ninth to sixteenth primes. -/
def shaInit : List Nat := ((primesFrom 60 2 16).drop 8).map fun p => rootOf 2 (p * 2 ^ 128) 68 0 % 2 ^ 64

def rotr64 (x n : Nat) : Nat := x / 2 ^ n + x % 2 ^ n * 2 ^ (64 - n)
def shaS0 (x : Nat) : Nat := rotr64 x 28 ^^^ rotr64 x 34 ^^^ rotr64 x 39
def shaS1 (x : Nat) : Nat := rotr64 x 14 ^^^ rotr64 x 18 ^^^ rotr64 x 41
def shaT0 (x : Nat) : Nat := rotr64 x 1 ^^^ rotr64 x 8 ^^^ (x / 2 ^ 7)
def shaT1 (x : Nat) : Nat := rotr64 x 19 ^^^ rotr64 x 61 ^^^ (x / 2 ^ 6)

/-- The big-endian number of bytes, and the `n` big-endian bytes of a number. -/
def beOf (bs : List Byte) : Nat := bs.foldl (fun a b => a * 256 + b.toNat) 0
def beBytes (n v : Nat) : List Byte := (List.range n).map fun i => BitVec.ofNat 8 (v / 2 ^ (8 * (n - 1 - i)))

/-- One round. -/
def shaRound (h : List Nat) (kw : Nat) : List Nat :=
  match h with
  | [a, b, c, d, e, f, g, i] =>
    let ch := (e &&& f) ^^^ ((2 ^ 64 - 1 - e) &&& g)
    let t1 := i + shaS1 e + ch + kw
    let maj := (a &&& b) ^^^ (a &&& c) ^^^ (b &&& c)
    [(t1 + shaS0 a + maj) % 2 ^ 64, a, b, c, (d + t1) % 2 ^ 64, e, f, g]
  | _ => h

/-- The message schedule, `n` words more, newest first. -/
def shaExtend (n : Nat) (w : List Nat) : List Nat :=
  match n with
  | 0 => w
  | k + 1 => shaExtend k (((shaT1 (w.getD 1 0) + w.getD 6 0 + shaT0 (w.getD 14 0) + w.getD 15 0) % 2 ^ 64) :: w)

/-- A 128-byte block taken into the state. -/
def shaBlock (ks h : List Nat) (blk : List Byte) : List Nat :=
  let w := (List.range 16).map fun i => beOf ((blk.drop (8 * i)).take 8)
  let ws := (shaExtend 64 w.reverse).reverse
  let r := (List.zipWith (fun k x => (k + x) % 2 ^ 64) ks ws).foldl shaRound h
  List.zipWith (fun x y => (x + y) % 2 ^ 64) h r

/-- The padded message's blocks, at most `n` of them, taken in turn. -/
def shaBlocks (ks : List Nat) (n : Nat) (h : List Nat) (bs : List Byte) : List Nat :=
  match n with
  | 0 => h
  | k + 1 => shaBlocks ks k (shaBlock ks h (bs.take 128)) (bs.drop 128)

/-- SHA-384 of bytes: 48 bytes. -/
def sha384 (bs : List Byte) : List Byte :=
  let n := bs.length
  let padded := bs ++ [0x80] ++ List.replicate ((239 - n % 128) % 128) 0 ++ beBytes 16 (8 * n)
  ((shaBlocks shaK (padded.length / 128) shaInit padded).take 6).flatMap (beBytes 8)

/-! ### RSA with PSS padding (R533) -/

/-- `b ^ (2 ^ n)` modulo `m`. -/
def sqMod (n b m : Nat) : Nat :=
  match n with
  | 0 => b
  | k + 1 => sqMod k (b * b % m) m

/-- The mask generation function MGF1 with SHA-384. -/
def mgf1 (seed : List Byte) (n : Nat) : List Byte :=
  ((List.range ((n + 47) / 48)).flatMap fun i => sha384 (seed ++ beBytes 4 i)).take n

/-- The RSA-3072 signature `sig` of `msg` under `modulus` verifies: public exponent 65,537, PSS with SHA-384 and a salt of 48
bytes (R533). -/
def rsaOk (modulus sig msg : List Byte) : Bool :=
  let m := beOf modulus
  let s := beOf sig
  if m < 2 ^ 3071 || s ≥ m || sig.length != 384 then false
  else
    let bits := m.log2
    let len := (bits + 7) / 8
    let em := beBytes len (sqMod 16 s m * s % m)
    let db := em.take (len - 49)
    let h := (em.drop (len - 49)).take 48
    let mask := mgf1 h (len - 49)
    let plain := List.zipWith (fun a b => a ^^^ b) db mask
    let top := 8 * len - bits
    let first : Byte := BitVec.ofNat 8 ((plain.headD 0).toNat % 2 ^ (8 - top))
    let plain := first :: plain.drop 1
    let pad := len - 97
    let salt := plain.drop pad
    (em.getLastD 0 == 0xBC) && (db.headD 0).toNat / 2 ^ (8 - top) == 0
      && plain.take pad == List.replicate (pad - 1) 0 ++ [0x01]
      && h == sha384 (List.replicate 8 0 ++ sha384 msg ++ salt)

end Sys2Proof.Machine
end

