-- ==== Sys2Proof/Machine/Boot.lean ====
section
/-! DEFINITION. The boot store, image verification, the boot ROM, firmware confirmation and the measurements (R532 to R546,
R553). -/

namespace Sys2Proof.Machine

/-! ### The boot store (R536) -/

/-- `n` bytes of the boot store from an offset. -/
def State.flashBytes (s : State) (o n : Nat) : List Byte :=
  (List.range n).map fun i => sparseGet s.pwr.flash (Config.flashByte (o + i)) (o + i)

/-- Bytes written to the boot store from an offset. -/
def State.flashPut (s : State) (o : Nat) (bs : List Byte) : State :=
  match bs with
  | [] => s
  | b :: rest =>
    State.flashPut { s with pwr := { s.pwr with flash := sparseInsert s.pwr.flash o b } } (o + 1) rest

/-- Offset of a slot (R536). -/
def slotOffset (k : Nat) : Nat := k * 0x1000000

/-- A boot record (R536). -/
structure BootRec where
  seq : Nat
  slot : Nat
  confirmed : Bool
  tries : Nat
deriving DecidableEq, Repr

/-- Offset of a boot record copy. -/
def recOffset (c : Nat) : Nat := 0x2000000 + c * 0x10000

/-- The CRC-64 of R381. -/
def crc64 (bs : List Byte) : Nat := crcMsb 64 0x42F0E1EBA9EA3693 0 bs

/-- A boot record copy, where its magic and CRC are right. -/
def State.bootRec (s : State) (c : Nat) : Option BootRec :=
  let bs := s.flashBytes (recOffset c) 32
  let w (i : Nat) : Nat := leOf ((bs.drop (4 * i)).take 4)
  if w 0 == 0x4C4D4252 && leOf (bs.drop 24) == crc64 (bs.take 24) then
    some { seq := w 1, slot := w 2 % 2, confirmed := w 2 / 2 % 2 == 1, tries := w 2 / 4 % 4 }
  else none

/-- The governing copy and its record: the valid one with the greater seq (R536). -/
def State.governing (s : State) : Option (Nat × BootRec) :=
  match s.bootRec 0, s.bootRec 1 with
  | some a, some b => if a.seq < b.seq then some (1, b) else some (0, a)
  | some a, none => some (0, a)
  | none, some b => some (1, b)
  | none, none => none

/-- The belfry may use the flash bus (R553). -/
def State.flashHere (s : State) : Bool := !s.pwr.released && !s.bit .tstTapStat 0 0 tstTapStat_testMode

/-- A boot record is written to the copy that does not govern, with the next seq (R537); a write that the bus release cuts
off leaves the earlier record in force (R553). -/
def State.writeRecord (s : State) (slot : Nat) (confirmed : Bool) (tries : Nat) : State :=
  if !s.flashHere then s
  else
    let (c, seq) := match s.governing with
      | some (g, r) => (1 - g, r.seq + 1)
      | none => (0, 1)
    let body := [0x4C4D4252, seq % 2 ^ 32, slot + confirmed.toNat * 2 + tries * 4, 0, 0, 0].flatMap (bytesOf 4)
    s.flashPut (recOffset c) (body ++ bytesOf 8 (crc64 body))

/-! ### Images (R534, R535) -/

/-- Word `i` of an image header. -/
def imgWord (img : List Byte) (i : Nat) : Nat := leOf ((img.drop (4 * i)).take 4)
/-- Bits hi to lo of word `i` of an image header. -/
def imgFld (img : List Byte) (i hi lo : Nat) : Nat := imgWord img i / 2 ^ lo % 2 ^ (hi - lo + 1)
/-- Bytes of words `i` to `i + n - 1`. -/
def imgBytes (img : List Byte) (i n : Nat) : List Byte := (img.drop (4 * i)).take (4 * n)

/-- The header size, and the limit of a body (R534). -/
def imgHeader : Nat := 17120
def imgBodyMax : Nat := 16760096

/-- Check 1 of R535: magic, version, reserved fields, body length, revocations and floor. -/
def imgFormOk (img : List Byte) : Bool :=
  let n := imgWord img 2
  imgWord img 0 == 0x4C4D4657 && imgWord img 1 == 1 && 1 ≤ n && n ≤ imgBodyMax
  && imgFld img 4 7 6 == 0 && imgFld img 4 15 14 == 0 && imgFld img 4 19 18 == 0 && imgFld img 4 31 24 == 0
  && imgWord img 5 == 0 && imgWord img 6 == 0 && imgWord img 7 == 0
  && imgFld img 4 23 20 / 2 ^ imgFld img 4 17 16 % 2 == 0 && imgFld img 4 13 8 ≤ imgFld img 4 5 0

/-- IMAGE_VERIFY: the code of the first check an image fails under the fuses; 0 where it passes all (R535). -/
def imgVerify (floor revoked : Nat) (img : List Byte) : Nat :=
  let k := imgFld img 4 17 16
  let signed := imgBytes img 0 128
  let modulus := imgBytes img 20 96
  let pub := imgBytes img 116 12
  if !imgFormOk img then 1
  else if revoked.testBit k then 2
  else if sha384 (modulus ++ pub) != (List.range 48).map (Config.keyHash k) then 3
  else if sha384 ((img.drop imgHeader).take (imgWord img 2)) != imgBytes img 8 12 then 4
  else if !rsaOk modulus (imgBytes img 128 96) signed then 5
  else if !Config.slhOk pub (imgBytes img 224 4056) signed then 6
  else if imgFld img 4 5 0 < floor then 7
  else 0

/-- The image in a slot of the boot store. -/
def State.slotImage (s : State) (k : Nat) : List Byte :=
  let n := leOf (s.flashBytes (slotOffset k + 8) 4)
  s.flashBytes (slotOffset k) (imgHeader + (if n ≤ imgBodyMax then n else 0))

/-! ### Measurements (R545) -/

/-- The 48 bytes of a measurement register. -/
def State.mr (s : State) (r : Nat) : List Byte := (List.range 12).flatMap fun w => bytesOf 4 (s.reg .secMr 0 (12 * r + w)).toNat
/-- A measurement register set. -/
def State.setMr (s : State) (r : Nat) (bs : List Byte) : State :=
  s.each (List.range 12) fun s w => s.setReg .secMr 0 (12 * r + w) (BitVec.ofNat 32 (leOf ((bs.drop (4 * w)).take 4)))
/-- An extend (R545). -/
def State.extendMr (s : State) (r : Nat) (d : List Byte) : State := s.setMr r (sha384 (s.mr r ++ d))

/-! ### The boot ROM (R538) -/

/-- The fuses as SEC_FLOOR shows them. -/
def State.showFuses (s : State) : State :=
  (s.setFld .secFloor 0 0 secFloor_floor s.pwr.floor).setFld .secFloor 0 0 secFloor_revoked s.pwr.revoked

/-- A failed verification is noted (R538). -/
def State.noteFail (s : State) (code : Nat) : State := s.setFld .secBootStat 0 0 secBootStat_lastFail code

/-- Steps 5 and 6: the image in slot `k` is measured and Lumdom starts from it. -/
def State.startImage (s : State) (k : Nat) (fallback confirmed : Bool) : State :=
  let img := s.slotImage k
  let s := s.extendMr 1 (imgBytes img 0 128)
  let s := s.extendMr 2 (Config.mr2Data k fallback s.pwr.cause)
  let s := s.setFld .secBootStat 0 0 secBootStat_slot k
  { s with pwr := { s.pwr with
      version := imgWord img 3, svn := imgFld img 4 5 0, newFloor := imgFld img 4 13 8, revoke := imgFld img 4 23 20,
      confirmed := confirmed, watch := some s.refclk } }

/-- BOOT_ROM_RUN: steps 1 to 6 of R538; the answer is whether Lumdom has started. -/
def State.bootRom (s : State) : State × Bool :=
  let s := s.showFuses
  let s := s.each (List.range 4) fun s r => s.setMr r (List.replicate 48 0)
  let s := s.extendMr 0 (Config.mr0Data s.pwr.floor s.pwr.revoked)
  let (s, slot, confirmed) := match s.governing with
    | none => (s, 0, true)
    | some (_, r) =>
      if r.confirmed then (s, r.slot, true)
      else if r.tries < 3 then (s.writeRecord r.slot false (r.tries + 1), r.slot, false)
      else ((s.writeRecord (1 - r.slot) true 0).flag .secBootStat 0 0 secBootStat_trialExpired, 1 - r.slot, true)
  let verify (k : Nat) : Nat := imgVerify s.pwr.floor s.pwr.revoked (s.slotImage k)
  if verify slot == 0 then (s.startImage slot false confirmed, true)
  else
    let s := (s.noteFail (verify slot)).flag .secBootStat 0 0 secBootStat_fallback
    let other := 1 - slot
    if verify other == 0 then (s.startImage other true confirmed, true)
    else ((s.noteFail (verify other)).flag .secBootStat 0 0 secBootStat_halted, false)

/-- FIRMWARE_CONFIRM: as mailbox 0 opens, floor and revoke fuses are burned and a confirmed record of the running slot is
written (R540). -/
def State.confirmFirmware (s : State) : State :=
  let s := { s with pwr := { s.pwr with
    floor := max s.pwr.floor s.pwr.newFloor, revoked := s.pwr.revoked ||| s.pwr.revoke, confirmed := true, watch := none,
    openTick := some s.refclk } }
  s.showFuses.writeRecord (s.fld .secBootStat 0 0 secBootStat_slot) true 0

end Sys2Proof.Machine
end

