-- ==== Sys2Proof/Machine/Power.lean ====
section
/-! DEFINITION. Clocks, the 48 V input, power-up, reset, throttling and telemetry (R508 to R531, R538 to R540, R550,
R553). -/

namespace Sys2Proof.Machine

/-! ### Loops and crystals (R508 to R517) -/

/-- A loop is locked on the crystal in use. -/
def State.lockLoop (s : State) (i : Nat) : State :=
  let sel := s.fld .clkSrcStat 0 0 clkSrcStat_activeSel
  let s := (s.setFld .clkLoopStat 0 i clkLoopStat_locked 1).setFld .clkLoopStat 0 i clkLoopStat_coasting 0
  s.setFld .clkLoopStat 0 i clkLoopStat_ref sel

def State.locked (s : State) (i : Nat) : Bool := s.bit .clkLoopStat 0 i clkLoopStat_locked
def State.coasts (s : State) (i : Nat) : Bool := s.bit .clkLoopStat 0 i clkLoopStat_coasting

/-- CLK_SRC_STAT shows whether some loop coasts, and whether neither crystal is stable (R513, R517). -/
def State.showClocks (s : State) : State :=
  let any := (List.range 27).any s.coasts
  let both := !s.bit .clkSrcStat 0 0 clkSrcStat_xaStable && !s.bit .clkSrcStat 0 0 clkSrcStat_xbStable
  (s.setFld .clkSrcStat 0 0 clkSrcStat_coasting any.toNat).setFld .clkSrcStat 0 0 clkSrcStat_bothLost both.toNat

/-- HOST_LINK_LOST: the host link drops (R422, R515). -/
def State.hostLinkLost (s : State) : State :=
  if s.bit .hostLinkStat 0 0 hostLinkStat_linkUp then
    (s.setFld .hostLinkStat 0 0 hostLinkStat_linkUp 0).flag .hostErr 0 0 hostErr_linkLost
  else s

/-- A loop that the loss of its reference brings to its lowest frequency: one that is locked, or on its way there (R513). -/
def State.refLoop (s : State) (i : Nat) : Bool := s.locked i || (s.coasts i && s.pwr.ramping.testBit i)

/-- The loops of a list coast at their lowest frequency: src_lost is set and CLK_SRC_LOST raised with their mask; the
host link drops with its loop (R513, R515). The lanes of a fabric port's loop fault by LANE_FAULT commands. -/
def State.coast (s : State) (l : List Nat) : State :=
  if l.isEmpty then s
  else
    let s := s.each l fun s i =>
      let s := (s.setFld .clkLoopStat 0 i clkLoopStat_locked 0).setFld .clkLoopStat 0 i clkLoopStat_coasting 1
      s.count .clkLoopStat 0 i clkLoopStat_lockLosses 1
    let mask := l.foldl (fun a i => a + 2 ^ i) 0
    let s := { s with pwr := { s.pwr with ramping := s.pwr.ramping &&& (2 ^ 27 - 1 - mask) } }
    let s := ((s.flag .clkSrcStat 0 0 clkSrcStat_srcLost).showClocks).raise 0 mask
    if l.contains 26 then s.hostLinkLost else s

/-- The stable bit of a crystal: XA, or XB where `x`. -/
def crystalFld (x : Bool) : Fld := if x then clkSrcStat_xbStable else clkSrcStat_xaStable
def State.crystalOk (s : State) (x : Bool) : Bool := s.bit .clkSrcStat 0 0 (crystalFld x)

/-- CRYSTAL_LOST: a crystal counts too low; the loss of the selected one makes every loop coast (R512, R513, R517). -/
def State.crystalLost (s : State) (x : Bool) : State :=
  if s.pwr.st == .off then s
  else
    let s := (s.setFld .clkSrcStat 0 0 (crystalFld x) 0).showClocks
    if s.bit .clkSrcStat 0 0 clkSrcStat_activeSel == x then s.coast ((List.range 27).filter s.refLoop) else s

/-- CLK_SEL_WRITE: a write that names a stable crystal makes every loop take it as reference, and lets coasting loops
relock; any other is ignored and sets sel_refused (R516). -/
def State.selWrite (s : State) (v : Word) : State :=
  let x := v.toNat % 2 == 1
  if !s.crystalOk x then s.flag .clkSrcStat 0 0 clkSrcStat_selRefused
  else
    let s := (s.setFld .clkSel 0 0 clkSel_sel x.toNat).setFld .clkSrcStat 0 0 clkSrcStat_activeSel x.toNat
    let s := s.each ((List.range 27).filter fun i => s.locked i || s.coasts i) fun s i =>
      s.setFld .clkLoopStat 0 i clkLoopStat_ref x.toNat
    let mask := ((List.range 27).filter s.coasts).foldl (fun a i => a + 2 ^ i) 0
    { s with pwr := { s.pwr with ramping := s.pwr.ramping ||| mask } }

/-- LOOP_RELOCK: a coasting loop that a CLK_SEL write lets ramp relocks (R516). -/
def State.relock (s : State) (i : Nat) : State :=
  if s.coasts i && s.pwr.ramping.testBit i then
    let s := { s with pwr := { s.pwr with ramping := s.pwr.ramping &&& (2 ^ 27 - 1 - 2 ^ i) } }
    (s.lockLoop i).showClocks
  else s

/-! ### End of boot (R458, R499, R507) -/

/-- Sense, target, merge and forwarding of a source of the catalogue (R506). -/
def catalogue (n : Nat) : Nat × Nat × Nat × Nat :=
  if n == 0 then (0, 0, 2, 0)
  else if n == 1 then (1, 0, 2, 1)
  else if n == 2 || n == 6 then (0, 0, 0, 1)
  else if n == 5 then (0, 0, 1, 1)
  else if n ≤ 31 then (0, 4, 0, 0)
  else if n ≤ 47 then (0, 3, 2, 1)
  else if n ≤ 111 then (0, 4, 2, 0)
  else if n ≤ 127 then (0, 4, 0, 0)
  else if n ≤ 132 then (0, 1, 2, 1)
  else if n == 133 then (0, 1, 0, 1)
  else if n == 134 then (0, 1, 1, 1)
  else if n ≤ 146 then (0, 2, 2, 1)
  else if n == 147 then (0, 2, 0, 1)
  else if n == 160 then (0, 3, 0, 1)
  else if n == 768 then (0, 4, 0, 0)
  else (0, 4, 2, 0)

/-- Lumdom programs every source of the catalogue with both masks 0, and sets lock (R499, R507). -/
def State.programIrq (s : State) : State :=
  let one (s : State) (n : Nat) : State :=
    let (sense, target, merge, fwd) := catalogue n
    s.setReg .irqSrcCfg 0 n (BitVec.ofNat 32 (sense * 4 + target * 8 + merge * 64 + fwd * 256))
  (s.each ((List.range 769).filter srcListed) one).flag .irqLock 0 0 irqLock_lock

/-- Lumdom creates context 15 with 4 slots per tower, its thread indices and the lantern defaults (R458, R461); every context
has its default settings (R459, R460). -/
def State.createLantern (s : State) : State :=
  let s := s.each (List.range 16) fun s c => s.defaultSettings c
  let s := s.setReg .ctlCtxState 0 15 1
  let mask := (List.range 8).foldl (fun a t => a + 15 * 2 ^ (32 * t)) 0
  let s := { s with ctx := { s.ctx with slotMask := tput s.ctx.slotMask 15 mask } }
  s.each (List.range 8) fun s t =>
    (s.setFld .vecThrRange t 15 vecThrRange_baseUnits (258048 / 64)).setFld .vecThrRange t 15 vecThrRange_countUnits (4096 / 64)

/-- A field of CTL_ISLAND_READY set to all ones. -/
def State.islandsUp (s : State) (f : Fld) : State := s.setFld .ctlIslandReady 0 0 f (2 ^ f.width - 1)

/-- Loops of a list lock. -/
def State.lockLoops (s : State) (l : List Nat) : State := s.each l State.lockLoop

/-! ### Power-up (R523) -/

/-- Steps 5 to 9: drums, cupolas and the host SerDes come up; where mailbox 0 opens, boot ends, the firmware is confirmed,
and the codec and the ports follow, whose training starts (R523, R540). -/
def State.fromLumdom (s : State) (b : BootInfo) : State :=
  let s := { s with pwr := { s.pwr with st := .running } }
  let s := (s.lockLoops [8]).islandsUp ctlIslandReady_drumReady
  let s := (s.lockLoops (List.range 8)).islandsUp ctlIslandReady_cupolaReady
  let s := (s.lockLoops [26]).islandsUp ctlIslandReady_hostSerdesReady
  if !b.opens then s
  else
    let s := (s.createLantern).programIrq
    let m : Mbox := { (default : Mbox) with isOpen := true }
    let s := { s with host := { s.host with mboxes := tput s.host.mboxes 0 m } }
    let s := s.confirmFirmware
    let s := (s.lockLoops [18]).islandsUp ctlIslandReady_codecReady
    let s := (s.lockLoops (List.range' 20 6)).islandsUp ctlIslandReady_portReady
    s.each (List.range 6) State.startTraining

/-- Step 4: the boot ROM runs, unless an external programmer has the flash bus (R538, R553). -/
def State.fromRom (s : State) (b : BootInfo) : State :=
  if s.pwr.ownLow then
    ({ s with pwr := { s.pwr with st := .flashWait, released := true } }).flag .tstTapStat 0 0 tstTapStat_flashExternal
  else
    let (s, ok) := s.bootRom
    if ok then s.fromLumdom b else { s with pwr := { s.pwr with st := .halted } }

/-- Steps 2 and 3: a stable crystal is selected, XA before XB; the reference and control loops lock, and the refclk counter
starts at 0. With neither stable the belfry goes no further (R523). -/
def State.fromCrystals (s : State) (b : BootInfo) : State :=
  let s := s.setFld .clkSrcStat 0 0 clkSrcStat_fastStable 1
  let s := (s.setFld .clkSrcStat 0 0 clkSrcStat_xaStable b.xa.toNat).setFld .clkSrcStat 0 0 clkSrcStat_xbStable b.xb.toNat
  if !b.xa && !b.xb then { s.showClocks with pwr := { s.pwr with st := .judging } }
  else
    let x := !b.xa
    let s := (s.setFld .clkSel 0 0 clkSel_sel x.toNat).setFld .clkSrcStat 0 0 clkSrcStat_activeSel x.toNat
    let s := { s.showClocks with refclk := 0 }
    (s.lockLoops [19, 17]).fromRom b

/-- POWER_GOOD_RISE: the input has been at 42 V or more for 10 ms, and power-up begins (R521). -/
def State.powerGood (s : State) (b : BootInfo) : State :=
  if s.pwr.st != .off || s.pwr.overVolt then s
  else ({ s with pwr := { s.pwr with underVolt := false } }).fromCrystals b

/-- CRYSTAL_STABLE: a crystal is judged stable again; a power-up that waited for one goes on (R511, R517, R523). -/
def State.crystalStable (s : State) (x : Bool) (opens : Bool) : State :=
  match s.pwr.st with
  | .judging => s.fromCrystals { xa := !x, xb := x, opens := opens }
  | .off => s
  | .held => s
  | _ => (s.setFld .clkSrcStat 0 0 (crystalFld x) 1).showClocks

/-! ### Loss of power and reset (R522, R525 to R527, R550) -/

/-- The device after everything but the waiting commands, the fuses, the boot store and what it has sent is gone: memory
holds free values (R522, R526). -/
def State.wiped (s : State) (regs : List (Nat × Word)) (pwr : PwrPart) : State :=
  { State.reset with
    pending := s.pending, regs := regs, freeCtr := s.freeCtr + 3, refclk := s.refclk, pwr := pwr,
    ram := { State.reset.ram with undef := undefinedMemory s.freeCtr },
    host := { hostReset with tx := s.host.tx, replies := s.host.replies } }

/-- Every regulator turns off: all state is lost (R521, R522). -/
def State.powerOff (s : State) (overVolt : Bool) : State :=
  { s.wiped [] { (default : PwrPart) with
      overVolt := overVolt, floor := s.pwr.floor, revoked := s.pwr.revoked, flash := s.pwr.flash, ownLow := s.pwr.ownLow } with
    refclk := 0 }

/-- INPUT_UNDERVOLTAGE (R521, R551). -/
def State.underVoltage (s : State) : State :=
  if s.pwr.st == .off then s
  else
    let u := s.powerOff s.pwr.overVolt
    { u with pwr := { u.pwr with underVolt := true } }
/-- INPUT_OVERVOLTAGE (R521). -/
def State.overVoltage (s : State) : State := s.powerOff true
/-- INPUT_OVERVOLTAGE_CLEAR (R521). -/
def State.overClear (s : State) : State := { s with pwr := { s.pwr with overVolt := false } }

/-- The registers of the belfry. -/
def belfryRegs (l : List (Nat × Word)) : List (Nat × Word) :=
  l.filter fun x =>
    match allRegs[x.1 / 8192]? with
    | some r => (regDef r).block == .belfry
    | none => false

/-- The power part as a reset leaves it: fuses, boot store, pins and the running cause stay. -/
def PwrPart.afterReset (p : PwrPart) (cause : Nat) : PwrPart :=
  { (default : PwrPart) with
    st := .held, rstLow := p.rstLow, tripHold := p.tripHold, cause := cause, floor := p.floor, revoked := p.revoked,
    flash := p.flash, ownLow := p.ownLow, released := p.released, scan := p.scan, cells := p.cells }

/-- RESET_SEQUENCE, steps 1 and 2: Lumdom, mailboxes and links stop; every island but the belfry is held in reset, its loop
stopped and its ready bit clear; memory is undefined, while the repair list stays (R320, R526). -/
def State.resetSequence (s : State) (cause : Nat) : State :=
  if s.pwr.st == .off then s
  else
    let repair := s.ram.repair
    let s := s.wiped (belfryRegs s.regs) (s.pwr.afterReset cause)
    let s := { s with ram := { s.ram with repair := repair } }
    let s := s.setReg .ctlIslandReady 0 0 0
    s.each ((List.range 27).filter fun i => i != 17 && i != 19) fun s i =>
      (s.setFld .clkLoopStat 0 i clkLoopStat_locked 0).setFld .clkLoopStat 0 i clkLoopStat_coasting 0

/-- Steps 3 and 4: the belfry's registers take their reset values, CLK_RESET_CAUSE the cause, and the device goes on at the
judgment of the crystals, once RST_N is high and no trip holds it (R526, R527, R530, R550). The test access port keeps its
state. -/
def State.resume (s : State) (b : BootInfo) : State :=
  if s.pwr.st != .held || !s.pwr.holdOver || s.pwr.rstLow || s.pwr.tripHold then s
  else
    let tap := s.reg .tstTapStat 0 0
    let s := { s with regs := [], irq := default }
    let s := (s.setReg .tstTapStat 0 0 tap).setFld .clkResetCause 0 0 clkResetCause_cause s.pwr.cause
    s.fromCrystals b

/-- RST_N_ASSERT: a reset of cause 1, which also resets the test access port and ends test mode (R550, R557). -/
def State.rstAssert (s : State) : State :=
  if s.pwr.st == .off then s
  else
    let s := s.resetSequence 1
    let s := { s with pwr := { s.pwr with rstLow := true, scan := 0 } }
    (s.setFld .tstTapStat 0 0 tstTapStat_lastIr 1).setFld .tstTapStat 0 0 tstTapStat_testMode 0

/-- RST_N_RELEASE (R550). -/
def State.rstRelease (s : State) (b : BootInfo) : State :=
  ({ s with pwr := { s.pwr with rstLow := false } }).resume b

/-- RESET_HOLD_EXPIRE: the 500 µs of step 3 are over (R526). -/
def State.holdExpire (s : State) (b : BootInfo) : State :=
  if s.pwr.st != .held then s else ({ s with pwr := { s.pwr with holdOver := true } }).resume b

/-- BOOT_WATCHDOG: 100,000,000 refclk ticks after Lumdom started mailbox 0 is not open (R539). -/
def State.bootWatchdog (s : State) : State :=
  match s.pwr.watch with
  | some a => if s.pwr.st == .running && 100000000 ≤ (s.refclk - a).toNat then s.resetSequence 5 else s
  | none => s

/-! ### HBM training (R313, R524) -/

/-- HBM training begins: the HBM group loops lock (R523, step 10). -/
def State.beginTraining (s : State) : State :=
  (s.lockLoops (List.range' 9 8)).showClocks |> fun s => { s with pwr := { s.pwr with training := true } }

/-- HBM_TRAINING_START: a second after mailbox 0 opened, unless it has begun (R524). -/
def State.trainingStart (s : State) : State :=
  match s.pwr.openTick with
  | some a => if !s.pwr.training && 100000000 ≤ (s.refclk - a).toNat then s.beginTraining else s
  | none => s

/-- HBM_TRAINING_COMPLETE: a controller group is ready; where a stack of it failed a required item the stack is reported
failed and the bit stays 0 (R313). A group that was lost stays so until a device reset (R21). -/
def State.trainingDone (s : State) (g : Nat) (failed : List Nat) : State :=
  let bad := (failed.filter fun k => k / 3 == g && k < 24).eraseDups
  if !s.pwr.training || s.pwr.lost.contains (hbmIsland g) then s
  else if bad.isEmpty then
    let w := s.fld .ctlIslandReady 0 0 ctlIslandReady_hbmGroupReady
    s.setFld .ctlIslandReady 0 0 ctlIslandReady_hbmGroupReady (w ||| 2 ^ g)
  else { s with pwr := { s.pwr with failed := (s.pwr.failed ++ bad).eraseDups } }

/-! ### Throttling (R528 to R530) -/

/-- The throttle level of a tower (CLK_THROTTLE). -/
def State.level (s : State) (t : Nat) : Nat := s.fld .clkThrottle 0 0 clkThrottle_levels / 4 ^ t % 4

/-- A tower's level set, with THERMAL_THROTTLE's condition (R529). -/
def State.setLevel (s : State) (t v : Nat) : State :=
  let w := s.fld .clkThrottle 0 0 clkThrottle_levels
  let s := s.setFld .clkThrottle 0 0 clkThrottle_levels (w - s.level t * 4 ^ t + v * 4 ^ t)
  let mask := ((List.range 8).filter fun i => s.level i != 0).foldl (fun a i => a + 2 ^ i) 0
  s.setCond 1 (if mask == 0 then none else some mask)

/-- A tower rises one level, up to 3, and its step timer starts anew (R529). -/
def State.levelUp (s : State) (t : Nat) : State :=
  let s := { s with pwr := { s.pwr with hot := tput s.pwr.hot t (some s.refclk), calm := tput s.pwr.calm t s.refclk } }
  if s.level t ≥ 3 then s else (s.setLevel t (s.level t + 1)).count .clkThrottle 0 0 clkThrottle_steps 1

/-- The thresholds, in the units of a sensor: 1/8 °C. -/
def State.throttleAt (s : State) : Int := 8 * s.fld .clkThermCfg 0 0 clkThermCfg_throttleC
def State.tripAt (s : State) : Int := 8 * s.fld .clkThermCfg 0 0 clkThermCfg_tripC
def State.calmBelow (s : State) : Int := s.throttleAt - 8 * s.fld .clkThermCfg 0 0 clkThermCfg_hystC

/-- THROTTLE_RISE: the hottest sensor of a tower reaches throttle_c; a coasting tower loop changes no level (R513, R529). -/
def State.throttleRise (s : State) (t : Nat) (temp : Int) : State :=
  if temp < s.throttleAt || !s.locked t then s else s.levelUp t

/-- THROTTLE_STEP_TIMER: 100 µs more at or above throttle_c (R529). -/
def State.throttleStep (s : State) (t : Nat) (temp : Int) : State :=
  match tget s.pwr.hot t with
  | some a => if 10000 ≤ (s.refclk - a).toNat && s.throttleAt ≤ temp && s.locked t then s.levelUp t else s
  | none => s

/-- THROTTLE_FALL: 1 ms below throttle_c − hyst_c (R529). -/
def State.throttleFall (s : State) (t : Nat) (temp : Int) : State :=
  if s.calmBelow ≤ temp || s.level t == 0 || !s.locked t || (s.refclk - tget s.pwr.calm t).toNat < 100000 then s
  else
    let s := { s with pwr := { s.pwr with hot := tput s.pwr.hot t none, calm := tput s.pwr.calm t s.refclk } }
    s.setLevel t (s.level t - 1)

/-- THERMAL_TRIP: a sensor at trip_c for 100 µs resets the device with cause 4, and holds it (R530). -/
def State.thermalTrip (s : State) (temp : Int) : State :=
  if temp < s.tripAt || s.pwr.st == .off || s.pwr.st == .held then s
  else ({ s with pwr := { s.pwr with tripHold := true } }).resetSequence 4

/-- TRIP_RECOVERY: the hottest sensor is below trip_c − 10 °C (R530). -/
def State.tripRecovery (s : State) (temp : Int) (b : BootInfo) : State :=
  if !s.pwr.tripHold || s.tripAt - 80 ≤ temp then s
  else ({ s with pwr := { s.pwr with tripHold := false } }).resume b

/-! ### Telemetry (R531) -/

/-- TELEMETRY_SAMPLE: a sample of 64 words, the sensor words from `sensors` at their own places (R531). -/
def State.telemetrySample (s : State) (sensors : List Word) : State :=
  if s.pwr.st != .running || (s.refclk - s.pwr.sampleTick).toNat < 10000 then s
  else
    let st := (s.reg .clkSrcStat 0 0).toNat
    let clock := st / 8 % 2 + st / 2 % 2 * 2 + st / 4 % 2 * 4 + st / 64 % 2 * 8
    let coast := ((List.range 27).filter s.coasts).foldl (fun a i => a + 2 ^ i) 0
    let n (i : Nat) : Nat := (sensors.getD i 0).toNat
    let ws : List Nat := [s.pwr.samples, s.refclk.toNat % 2 ^ 32, s.refclk.toNat / 2 ^ 32] ++ (List.range' 3 32).map n
      ++ [n 35 % 2 ^ 16, n 36, s.fld .clkThrottle 0 0 clkThrottle_levels, clock, coast,
          s.fld .clkResetCause 0 0 clkResetCause_cause, n 41, n 42] ++ List.replicate 21 0
    { s with pwr := { s.pwr with
        telemetry := ws.map (BitVec.ofNat 32), samples := s.pwr.samples + 1, sampleTick := s.refclk } }

/-! ### The boot flash pins (R553) -/

/-- FLASH_OWN_N_FALL: an external programmer asks for the flash bus (R553). -/
def State.ownFall (s : State) : State := { s with pwr := { s.pwr with ownLow := true } }

/-- FLASH_BUS_RELEASE: the belfry ends the flash operation in progress and releases the bus (R553). -/
def State.busRelease (s : State) : State :=
  if s.pwr.ownLow && (s.pwr.st == .running || s.pwr.st == .halted) then
    ({ s with pwr := { s.pwr with released := true } }).flag .tstTapStat 0 0 tstTapStat_flashExternal
  else s

/-- FLASH_OWN_N_RISE: the bus returns with what the programmer wrote, and a waiting boot ROM goes on (R553). -/
def State.ownRise (s : State) (writes : List (Nat × Byte)) (b : BootInfo) : State :=
  if !s.pwr.ownLow then s
  else
    let s := if s.pwr.released then s.each writes fun s x => s.flashPut x.1 [x.2] else s
    let wait := s.pwr.st == .flashWait
    let s := { s with pwr := { s.pwr with ownLow := false, released := false } }
    let s := s.setFld .tstTapStat 0 0 tstTapStat_flashExternal 0
    if wait then s.fromRom b else s

/-! ### The commands -/

/-- CRYSTAL_LOST (R513). -/
def execCrystalLost (x : Bool) (s : State) : Host.Outcome State Fault Refusal := .next (s.crystalLost x)
/-- LOOP_LOCK_LOST (R513). -/
def execLoopLockLost (i : Fin 27) (s : State) : Host.Outcome State Fault Refusal := .next (s.coast ([i.val].filter s.locked))
/-- CLK_SEL_WRITE (R516). -/
def execClkSelWrite (v : Word) (s : State) : Host.Outcome State Fault Refusal := .next (s.selWrite v)
/-- LOOP_RELOCK (R516). -/
def execLoopRelock (i : Fin 27) (s : State) : Host.Outcome State Fault Refusal := .next (s.relock i.val)
/-- CRYSTAL_STABLE (R517). -/
def execCrystalStable (x opens : Bool) (s : State) : Host.Outcome State Fault Refusal := .next (s.crystalStable x opens)
/-- POWER_GOOD_RISE (R521). -/
def execPowerGoodRise (b : BootInfo) (s : State) : Host.Outcome State Fault Refusal := .next (s.powerGood b)
/-- HBM_TRAINING_START (R524). -/
def execHbmTrainingStart (s : State) : Host.Outcome State Fault Refusal := .next s.trainingStart
/-- HBM_TRAINING_COMPLETE (R313). -/
def execHbmTrainingComplete (g : Tower) (failed : List Nat) (s : State) : Host.Outcome State Fault Refusal :=
  .next (s.trainingDone g.val failed)
/-- INPUT_UNDERVOLTAGE (R521). -/
def execInputUndervoltage (s : State) : Host.Outcome State Fault Refusal := .next s.underVoltage
/-- INPUT_OVERVOLTAGE (R521). -/
def execInputOvervoltage (s : State) : Host.Outcome State Fault Refusal := .next s.overVoltage
/-- INPUT_OVERVOLTAGE_CLEAR (R521). -/
def execInputOvervoltageClear (s : State) : Host.Outcome State Fault Refusal := .next s.overClear
/-- RST_N_ASSERT (R550). -/
def execRstNAssert (s : State) : Host.Outcome State Fault Refusal := .next s.rstAssert
/-- RST_N_RELEASE (R550). -/
def execRstNRelease (b : BootInfo) (s : State) : Host.Outcome State Fault Refusal := .next (s.rstRelease b)
/-- RESET_HOLD_EXPIRE (R526). -/
def execResetHoldExpire (b : BootInfo) (s : State) : Host.Outcome State Fault Refusal := .next (s.holdExpire b)
/-- THROTTLE_RISE (R529). -/
def execThrottleRise (t : Tower) (temp : Int) (s : State) : Host.Outcome State Fault Refusal :=
  .next (s.throttleRise t.val temp)
/-- THROTTLE_STEP_TIMER (R529). -/
def execThrottleStepTimer (t : Tower) (temp : Int) (s : State) : Host.Outcome State Fault Refusal :=
  .next (s.throttleStep t.val temp)
/-- THROTTLE_FALL (R529). -/
def execThrottleFall (t : Tower) (temp : Int) (s : State) : Host.Outcome State Fault Refusal :=
  .next (s.throttleFall t.val temp)
/-- THERMAL_TRIP (R530). -/
def execThermalTrip (temp : Int) (s : State) : Host.Outcome State Fault Refusal := .next (s.thermalTrip temp)
/-- TRIP_RECOVERY (R530). -/
def execTripRecovery (temp : Int) (b : BootInfo) (s : State) : Host.Outcome State Fault Refusal :=
  .next (s.tripRecovery temp b)
/-- TELEMETRY_SAMPLE (R531). -/
def execTelemetrySample (sensors : List Word) (s : State) : Host.Outcome State Fault Refusal :=
  .next (s.telemetrySample sensors)
/-- BOOT_WATCHDOG (R539). -/
def execBootWatchdog (s : State) : Host.Outcome State Fault Refusal := .next s.bootWatchdog
/-- FLASH_OWN_N_FALL (R553). -/
def execFlashOwnNFall (s : State) : Host.Outcome State Fault Refusal := .next s.ownFall
/-- FLASH_BUS_RELEASE (R553). -/
def execFlashBusRelease (s : State) : Host.Outcome State Fault Refusal := .next s.busRelease
/-- FLASH_OWN_N_RISE (R553). -/
def execFlashOwnNRise (writes : List (Nat × Byte)) (b : BootInfo) (s : State) : Host.Outcome State Fault Refusal :=
  .next (s.ownRise writes b)

end Sys2Proof.Machine
end

