-- ==== Sys2Proof/Machine/RegAccess.lean ====
section
/-! DEFINITION. Reads and writes of registers by threads, Lumdom and the debug path, with the effects their tables give them
(R7, R8, R28, R494, R495). -/

namespace Sys2Proof.Machine

/-! ### Field access types (R7) -/

/-- The bits of a register with an access type. -/
def accMask (r : RegId) (a : Access) : Word :=
  (regDef r).fields.foldl (fun m f => if f.acc == a then m ||| f.mask else m) 0

/-- A register after a write of `v`: RW bits take it, a 1 clears a W1C bit and sets a W1S bit, all others stay (R7). -/
def plainWrite (r : RegId) (old v : Word) : Word :=
  let rw := accMask r .rw
  let keep := (old &&& ~~~rw) ||| (v &&& rw)
  (keep &&& ~~~(v &&& accMask r .w1c)) ||| (v &&& accMask r .w1s)

/-- A register after a read: its RC fields are cleared (R7). -/
def afterRead (r : RegId) (old : Word) : Word := old &&& ~~~(accMask r .rc)

/-! ### Reads -/

/-- Threads of context `c` in tower `t` that occupy a seat (VEC_THR_RUN). -/
def State.runThreads (s : State) (t c : Nat) : Nat :=
  (s.threadsWhere fun k r => keyTower k == t && r.ctx == c && s.seated k r).length

/-- What repeat `i` of register `r` of tower `t` reads as, with the state after the read: RC fields clear, IRQ_CLAIM claims,
a read of CTL_REFCLK_LO latches the upper half, and a count of busy cycles, which depends on timing, is a free value (R7,
R500, CTL_REFCLK_LO; log entry 3). -/
def State.readReg (s : State) (r : RegId) (t i : Nat) : Word × State :=
  match r with
  | .vecThrLive => (BitVec.ofNat 32 (s.liveThreads t i), s)
  | .vecThrRun => (BitVec.ofNat 32 (s.runThreads t i), s)
  | .atnStarved => (BitVec.ofNat 32 (s.starved t i).length, s)
  | .vecSeatBusy => (BitVec.ofNat 32 s.free.1, s.free.2)
  | .redBusy => (BitVec.ofNat 32 s.free.1, s.free.2)
  | .ctlRefclkLo => (s.refclk.truncate 32, s.setReg .ctlRefclkHi 0 0 (BitVec.ofNat 32 (s.refclk.toNat / 2 ^ 32)))
  | .irqSrcStat => (s.srcStat i, s.setReg r t i (afterRead r (s.reg r t i)))
  | .irqClaim => s.claim i
  | .irqComplete => (0, s)
  | r => (s.reg r t i, s.setReg r t i (afterRead r (s.reg r t i)))

/-! ### Writes -/

/-- The use of a queue's register: base or size, tail, completion head. -/
inductive QUse where
  | base | tail | cqHead
deriving DecidableEq, Repr

/-- The queue kind and use of a register that R122 governs. -/
def queueUse (r : RegId) : Option (QKind × QUse) :=
  [QKind.matrix, .sleeve, .mover, .reduction, .decode, .encode].findSome? fun k =>
    let q := qRegs k
    if r == q.tail then some (k, .tail)
    else if r == q.cqHead then some (k, .cqHead)
    else if r == q.baseLo || r == q.baseHi || r == q.cqLo || r == q.cqHi then some (k, .base)
    else none

/-- Any thread of context `c` is not FREE, in any tower (R193). -/
def State.anyThread (s : State) (c : Nat) : Bool := !(s.ctxThreads c).isEmpty

/-- VEC_CTX_CFG_WRITE: stored unless a thread of the context is live (R193). -/
def State.writeCtxCfg (s : State) (t c : Nat) (v : Word) : State :=
  if s.anyThread c then s.flag .vecErr t c vecErr_cfgWriteIgnored else s.setReg .vecCtxCfg t c (v &&& 1)

/-- The ranges [a, a + n) and [b, b + m) meet. -/
def rangesMeet (a n b m : Nat) : Bool := n != 0 && m != 0 && a < b + m && b < a + n

/-- VEC_THR_RANGE_WRITE: stored unless a thread of the context is live, the range passes the last index, or it overlaps another
context's (R193, VEC_THR_RANGE). -/
def State.writeThrRange (s : State) (t c : Nat) (v : Word) : State :=
  let b := 64 * fldOf v vecThrRange_baseUnits
  let n := 64 * fldOf v vecThrRange_countUnits
  let meets := (List.range 16).any fun d => d != c && rangesMeet b n (s.thrBase t d) (s.thrCount t d)
  if s.anyThread c || b + n > 262144 || meets then s.flag .vecErr t c vecErr_cfgWriteIgnored
  else s.setReg .vecThrRange t c (plainWrite .vecThrRange 0 v)

/-- MEM_LOCAL_CFG is free to change: no context from 0 to 14 is active, and context 15 has no thread and no queue with work
(R317). -/
def State.localCfgFree (s : State) : Bool :=
  (List.range 15).all (fun c => s.ctxState c == 0) && (s.ctxThreads 15).isEmpty
    && ctxQueues.all fun q => !s.qHasWork q.1 q.2 15

/-- A write of MEM_LOCAL_CFG of one drum; a change of L leaves the contents of HBM undefined (R317). -/
def State.writeLocalCfg (s : State) (t : Nat) (v : Word) : State :=
  let l := fldOf v memLocalCfg_localGib
  if !s.localCfgFree || l > 64 then s.flag .memErr t 0 memErr_cfgWriteIgnored
  else if l == s.localGib t then s
  else (s.setFld .memLocalCfg t 0 memLocalCfg_localGib l).spoil 0 0x018000000000

/-- A write of CLK_THERM_CFG, each field under its own limit (CLK_THERM_CFG). -/
def State.writeTherm (s : State) (v : Word) : State :=
  let put (s : State) (f : Fld) (ok : Bool) : State := if ok then s.setFld .clkThermCfg 0 0 f (fldOf v f) else s
  let s := put s clkThermCfg_throttleC (fldOf v clkThermCfg_throttleC ≤ 105)
  let s := put s clkThermCfg_hystC (fldOf v clkThermCfg_hystC != 0)
  put s clkThermCfg_tripC (fldOf v clkThermCfg_tripC > s.fld .clkThermCfg 0 0 clkThermCfg_throttleC)

/-- A write of PLYN_VIOL_CFG: a 0 leaves its field as it is (PLYN_VIOL_CFG). -/
def State.writeViolCfg (s : State) (t : Nat) (v : Word) : State :=
  let put (s : State) (f : Fld) : State := if fldOf v f == 0 then s else s.setFld .plynViolCfg t 0 f (fldOf v f)
  put (put s plynViolCfg_violLimit) plynViolCfg_violWindow

/-- The port whose drum is that of tower `t`. -/
def portOf (t : Nat) : Option Nat := (List.range 6).find? fun p => portTower p == t

/-- A word of a routing table keeps the dir and alt_ok fields of its four entries; bits [7:3] of an entry are 0 (R419). -/
def routeWord (v : Word) : Word := v &&& 0x07070707

/-- A write of `v` to repeat `i` of register `r` of tower `t`, with the effects its table gives it (R7). -/
def State.writeReg (s : State) (r : RegId) (t i : Nat) (v : Word) : State :=
  let plain := s.setReg r t i (plainWrite r (s.reg r t i) v)
  match queueUse r with
  | some (k, .tail) => s.writeQTail k t i (v.toNat % 2 ^ 16)
  | some (k, .cqHead) => s.writeCqHead k t i (v.toNat % 2 ^ 16)
  | some (k, .base) => s.writeQBase k t i r v
  | none =>
    match r with
    | .vecCtxCfg => s.writeCtxCfg t i v
    | .vecThrRange => s.writeThrRange t i v
    | .atnPoolTail => s.writePoolTail t i (v.toNat % 2 ^ 16)
    | .atnPoolBaseLo => s.writePoolBase t i false v
    | .atnPoolBaseHi => s.writePoolBase t i true v
    | .atnPageTimeout => if v == 0 then s.flag .atnErr t i atnErr_cfgWriteIgnored else plain
    | .memLocalCfg => s.writeLocalCfg t v
    | .redGrpBaseLo => s.grpBaseWrite false v
    | .redGrpBaseHi => s.grpBaseWrite true v
    | .plynPortCfg =>
      (match portOf t with
       | some p => plain.judgePort p
       | none => plain)
    | .plynViolCfg => s.writeViolCfg t v
    | .plynFabAddr => if t == 0 then plain.readdress else plain
    | .plynReqTimeout => if v == 0 then s else plain
    | .plynRtT => s.setReg r t i (routeWord v)
    | .plynRtS => s.setReg r t i (routeWord v)
    | .plynRtD => s.setReg r t i (routeWord v)
    | .hostPfcCfg => plain.flushStalled
    | .hostUdpPort => if v.toNat % 2 ^ 16 == 0 || v.toNat % 2 ^ 16 == 4791 then s else plain
    | .hostEvtRetry => if v == 0 then s else plain
    | .irqSrcCfg => s.writeSrcCfg i v
    | .irqComplete => s.coreComplete i (v.toNat % 1024)
    | .clkSel => s.selWrite v
    | .clkThermCfg => s.writeTherm v
    | _ => plain

/-- A store by a thread of context `c` to the register is allowed: a bound register belongs to its context (SEQ_BND). -/
def ownReg (c : Nat) (r : RegId) (i : Nat) : Bool := r != .seqBnd || i / 4 == c

/-- An access to a register address: none at an address that is misaligned or unassigned (R27, R28). -/
def regTarget (a : Nat) : Option (RegId × Nat × Nat) := if a % 4 == 0 then regAt a else none

/-- Lumdom's access to the register at an address, served by the island that holds it (R564): `f` is what it does there; an
unassigned address takes nothing (R27), and an access whose way is closed waits (R20, R21). -/
def State.regAccess (s : State) (a : Nat) (f : RegId → Nat → Nat → State) : State :=
  match regTarget a with
  | some (r, t, i) => if s.trafficHeld belfryIsland [(a, 4)] then s else f r t i
  | none => s

/-! ### The commands -/

/-- REGISTER_WRITE: Lumdom writes the register at an address (R7). -/
def execRegisterWrite (a : Addr) (v : Word) (s : State) : Host.Outcome State Fault Refusal :=
  .next (s.regAccess a.toNat fun r t i => s.writeReg r t i v)

/-- W1C_FIELD_WRITE: a write that meets hardware sets of the bits `sets` in the same cycle leaves those W1C bits at 1
(R494). -/
def execW1cFieldWrite (a : Addr) (v sets : Word) (s : State) : Host.Outcome State Fault Refusal :=
  .next (s.regAccess a.toNat fun r t i =>
    let s := s.writeReg r t i v
    s.setReg r t i (s.reg r t i ||| (sets &&& accMask r .w1c)))

/-- The RC fields of a register hold the events the hardware added in the cycle of the read, `added` by field number (R495). -/
def addedWord (r : RegId) (added : List Nat) : Word :=
  (regDef r).fields.zipIdx.foldl (fun w x =>
    if x.1.acc == .rc then setFldOf w x.1 (min (added.getD x.2 0) (2 ^ x.1.width - 1)) else w) 0

/-- RC_FIELD_READ: a read returns the value from before its cycle; afterwards an RC field holds the events of that cycle
alone (R495). -/
def execRcFieldRead (a : Addr) (added : List Nat) (s : State) : Host.Outcome State Fault Refusal :=
  .next (s.regAccess a.toNat fun r t i =>
    let x := s.readReg r t i
    let s := x.2
    { s.setReg r t i (s.reg r t i ||| addedWord r added) with readData := x.1 })

/-- QUEUE_TAIL_WRITE (R87, R122). -/
def execQueueTailWrite (k : QKind) (t : Tower) (c : CtxId) (v : Word) (s : State) : Host.Outcome State Fault Refusal :=
  .next (s.writeQTail k t.val c.val (v.toNat % 2 ^ 16))
/-- QUEUE_CQ_HEAD_WRITE (R122). -/
def execQueueCqHeadWrite (k : QKind) (t : Tower) (c : CtxId) (v : Word) (s : State) : Host.Outcome State Fault Refusal :=
  .next (s.writeCqHead k t.val c.val (v.toNat % 2 ^ 16))
/-- QUEUE_BASE_WRITE: base LO, base HI with the size, or the same of the completion ring (R122). -/
def execQueueBaseWrite (k : QKind) (t : Tower) (c : CtxId) (which : Fin 4) (v : Word) (s : State) :
    Host.Outcome State Fault Refusal :=
  let q := qRegs k
  let r := match which with
    | 0 => q.baseLo | 1 => q.baseHi | 2 => q.cqLo | 3 => q.cqHi
  .next (s.writeQBase k t.val c.val r v)

end Sys2Proof.Machine
end

