-- ==== Sys2Proof/Machine/Accesses.lean ====
section
/-! DEFINITION. Accesses in flight: which of a thread's accesses may be performed, what each does where it is performed, and
stores held at a drum (R51, R52, R172, R194 to R200, R319, R345, R347). -/

namespace Sys2Proof.Machine

/-! ### Order (R194, R195, R198) -/

/-- Two accesses of a thread touch a common byte (R194). -/
def Acc.meets (a b : Acc) : Bool := a.addr < b.addr + b.len && b.addr < a.addr + a.len

/-- Access `n` of a thread may be performed: no earlier one touches its bytes, none is an acquire, and a release is the first
(R194, R195). -/
def orderOk (l : List Acc) (n : Nat) : Bool :=
  match l[n]? with
  | none => false
  | some a => (l.take n).all fun b => !b.meets a && !b.acquire && !a.release

/-- The access returns data to a scalar or vector register. -/
def Acc.returns (a : Acc) : Bool := a.kind != .store && a.kind != .vamoAdd

/-- The address an access is served at: a lantern access in the range of its pair that R51 gives it. -/
def State.servedAt (s : State) (a : Acc) : Nat :=
  match a.lantern with
  | .served p b =>
    (match s.pairOf a.addr with
     | some (_, _, off) =>
       let e := tget s.step.active.banks p
       (if b then e.baseB else e.baseA) + off
     | none => a.addr)
  | _ => a.addr

/-- The first and last byte of an access where it is served. -/
def State.accEnds (s : State) (a : Acc) : List Nat := [s.servedAt a, s.servedAt a + (a.len - 1)]

/-- The access waits for its bank pair (R51), or for the way from its cupola to the island that serves it (R17, R20, R21, R564).
-/
def State.accBlocked (s : State) (k : Nat) (a : Acc) : Bool :=
  let i := cupolaIsland (keyTower k)
  (match a.lantern with
   | .held _ => true
   | _ => false) || (s.accEnds a).any fun b => !s.wayOpen i (s.serving i b)

/-- The access's pseudo-channel is held for calibration, or earlier arrivals wait there (R322, R324). -/
def State.accLined (s : State) (k : Nat) (a : Acc) : Bool :=
  let v := keyTower k
  (s.accEnds a).any fun b => s.calHolds v b || s.lineAhead v b a.line

/-- The access at place `n` joins the line of its pseudo-channel, under the next arrival number (R322, R324). -/
def State.joinLine (s : State) (k n : Nat) (a : Acc) : State :=
  if a.inLine then s
  else
    let m := s.thr.line + 1
    ({ s with thr := { s.thr with line := m } }).setAccs k ((s.accs k).set n { a with line := m, goesTo := s.servedAt a })

/-! ### What an access does -/

/-- The FP32 sum of an atomic: its code, and the conditions it raises (R212, R218, R223). -/
def amoFp (old x : Nat) : Nat × FFlags :=
  let r := fpAdd ffFp32 (ffFp32.decode old) (ffFp32.decode x)
  (r.code, r.flags)

/-- The value an atomic leaves in a `w`-bit word, none where AMOCAS does not match, and the conditions it raises (R223, R232). -/
def amoNew (a : Acc) (w old : Nat) : Option (Nat × FFlags) :=
  let x := a.data
  let plain (v : Nat) : Option (Nat × FFlags) := some (v, FFlags.none)
  match a.kind with
  | .amoAdd => plain ((old + x) % 2 ^ w)
  | .amoMin => plain (if a.sgn then (if untwos w x < untwos w old then x else old) else min old x)
  | .amoMax => plain (if a.sgn then (if untwos w x > untwos w old then x else old) else max old x)
  | .amoSwap => plain x
  | .amoCas => if old == a.cmp then plain x else none
  | .amoAnd => plain (old &&& x)
  | .amoOr => plain (old ||| x)
  | .amoFadd => some (amoFp old x)
  | .vamoAdd => if a.float then some (amoFp old x) else plain ((old + x) % 2 ^ w)
  | .store => plain x
  | .load => none

/-- The bits an access names within its bytes, and its bytes with those bits replaced (R223). -/
def Acc.pick (a : Acc) (word : Nat) : Nat := word / 2 ^ a.shift % 2 ^ a.bits
def Acc.merge (a : Acc) (word v : Nat) : Nat := word - a.pick word * 2 ^ a.shift + v % 2 ^ a.bits * 2 ^ a.shift

/-- A context fault at an access in flight, with the address of its instruction (R179, R319). -/
def State.accFault (s : State) (k : Nat) (a : Acc) (cause addr : Nat) : State :=
  s.ctxFault (s.trec k).ctx
    { cause := cause, tower := keyTower k, unit := 0, remote := false, thread := keyIndex k, pc := a.pc, addr := addr,
      jobTag := 0, descIndex := 0, step := s.stepNo, tick := s.refclk, further := 0, threadsFreed := 0,
      groupsAborted := 0 }

/-- An access leaves its thread's list. -/
def State.dropAcc (s : State) (k n : Nat) : State := s.setAccs k ((s.accs k).eraseIdx n)

/-- The eight bytes of the word at `a`, which lies in slot `p` of tower `t`, as they stand or stood at one moment since the slot
was claimed: which moment is a free value (R200). -/
def State.wordSeen (s : State) (t p a : Nat) : List Byte × State :=
  let l := s.slotPast t p
  let x := s.free
  let view := match l[x.1 % (l.length + 1)]? with
    | some y => s.asHeld y
    | none => s
  (view.bytes a 8, x.2)

/-- The value a load returns at `addr`, with the state after: a register is read with its effects; each 64-bit word of a slot that
is FILLING or DRAINING is one that the word held since the slot was claimed (R200). -/
def State.loadValue (s : State) (a : Acc) (addr : Nat) : Nat × State :=
  match regionOf addr with
  | .regSpace =>
    (match regTarget addr with
     | some (r, t, i) => let x := s.readReg r t i; (x.1.toNat, x.2)
     | none => (0, s))
  | .acc t =>
    let p := addr % 0x02000000 / 0x100000
    if s.slotSt t p == .filling || s.slotSt t p == .draining then
      let lo := s.wordSeen t p (addr / 8 * 8)
      let hi := lo.2.wordSeen t p (addr / 8 * 8 + 8)
      (a.pick (leOf (((lo.1 ++ hi.1).drop (addr % 8)).take a.len)), hi.2)
    else (a.pick (s.num addr a.len), s)
  | _ => (a.pick (s.num addr a.len), s)

/-- Data reach the destination register, unless the access was abandoned (R172, R177). -/
def State.accDeliver (s : State) (k : Nat) (a : Acc) (v : Nat) : State :=
  if a.stale then s
  else
    let x := s.seat k
    match a.dst with
    | .none => s
    | .scalar r sgn =>
      let d : DWord := if sgn then BitVec.ofInt 64 (untwos a.bits v) else BitVec.ofNat 64 v
      s.setSeat k (x.setS r d)
    | .vec r e w => s.setSeat k (x.setElem r w e v)

/-- The bits of an access are written, merged into its bytes as one access (R199, R223); a store into a mirror entry is
discarded and faults its context (R347). -/
def State.accWrite (s : State) (k : Nat) (a : Acc) (v : Nat) : State :=
  if (s.mirrorAt a.addr).isSome || (s.mirrorAt (a.addr + a.len - 1)).isSome then s.accFault k a 3 a.addr
  else s.storeNum a.addr a.len (a.merge (s.num a.addr a.len) v)

/-- An uncorrectable error met by a read: the drum records it and the thread's context faults (R319, R321); in accumulator
memory the slot's owner faults (R120). -/
def State.threadUe (s : State) (k : Nat) (a : Acc) (bad : Nat) : State :=
  match regionOf bad with
  | .acc _ => s.readUe (keyTower k) bad
  | _ => (s.recordUe (keyTower k) bad).accFault k a (if inDrum bad then 0x12 else 0x11) bad

/-- Conditions join the flags of thread `k`: in its seat, or in its record where it is parked (R175, R177, R232). -/
def State.orThread (s : State) (k : Nat) (fl : FFlags) : State :=
  let r := s.trec k
  if fl == FFlags.none then s
  else if r.st == .running then s.setSeat k ((s.seat k).orFlags fl)
  else s.setRec k { r with sc := { r.sc with flags := r.sc.flags.or fl } }

/-- A store or atomic is performed: an atomic reads, changes and writes its word as one access (R199); a store to a register
is a write of it (R196), and one to another context's bound register faults (SEQ_BND). Answers the old value. -/
def State.performWrite (s : State) (k : Nat) (a : Acc) (e : Ecc) : Nat × State :=
  match regionOf a.addr, regTarget a.addr with
  | .regSpace, some (r, t, i) =>
    if ownReg (s.trec k).ctx r i then (0, s.writeReg r t i (BitVec.ofNat 32 a.data)) else (0, s.accFault k a 3 a.addr)
  | .regSpace, none => (0, s.accFault k a 3 a.addr)
  | _, _ =>
    if a.kind == .store then (0, s.accWrite k a a.data)
    else
      match s.readError a.addr a.len e with
      | some bad => (0, s.threadUe k a bad)
      | none =>
        let s := s.countFixed (keyTower k) a.addr a.len e
        let old := a.pick (s.num a.addr a.len)
        match amoNew a a.bits old with
        | some (v, fl) => (old, (s.orThread k fl).accWrite k a v)
        | none => (old, s)

/-- An atomic's old value reaches its register, if its context is still ACTIVE, and the atomic or store leaves the list. -/
def State.finishWrite (s : State) (k n : Nat) (a : Acc) (e : Ecc) : State :=
  let x := (s.dropAcc k n).performWrite k a e
  if a.returns && x.2.ctxActive (s.trec k).ctx then x.2.accDeliver k a x.1 else x.2

/-- A store or atomic that may be performed is held where R52 or R345 holds it, and performed otherwise. -/
def State.tryWrite (s : State) (k n : Nat) (a : Acc) (e : Ecc) : State :=
  let hold (h : Held) : State := s.setAccs k ((s.accs k).set n { a with held := h })
  if a.held != .no then s
  else if s.bankHeld [(a.addr, a.len)] then hold .bank
  else if s.snapHolds a.addr || s.snapHolds (a.addr + a.len - 1) then hold .snapshot
  else s.finishWrite k n a e

/-- A load is performed and its data return (R172); a stale view completes with STALE_VIEW and its data are a free value (R51; log
entry 17); an uncorrectable error faults the context and returns nothing (R319), or, in a slot of another context, a free value
(log entry 48). -/
def State.finishLoad (s : State) (k n : Nat) (a : Acc) (e : Ecc) : State :=
  let addr := s.servedAt a
  let s := s.dropAcc k n
  if a.lantern == .stale then
    let x := ({ s with step := { s.step with staleViews := (k, a.addr, a.tag) :: s.step.staleViews } }).free
    x.2.accDeliver k a (x.1 % 2 ^ a.bits)
  else
    match s.readError addr a.len (if regionOf addr == .regSpace then .clean else e) with
    | some bad =>
      let s := s.threadUe k a bad
      if s.ctxActive (s.trec k).ctx then
        let x := s.free
        x.2.accDeliver k a (x.1 % 2 ^ a.bits)
      else s
    | none =>
      let s := if regionOf addr == .regSpace then s else s.countFixed (keyTower k) addr a.len e
      let x := s.loadValue a addr
      x.2.accDeliver k a (x.1 % 2 ^ a.bits)

/-- LOAD_COMPLETE: the load or scalar atomic at place `n` among the accesses in flight of thread `k` is performed and its data
return, when the orders of R194 and R195 allow it; it joins the line of a pseudo-channel that calibration holds (R322). -/
def State.loadComplete (s : State) (k n : Nat) (e : Ecc) : State :=
  match (s.accs k)[n]? with
  | none => s
  | some a =>
    if !a.returns || !orderOk (s.accs k) n || s.accBlocked k a then s
    else if s.accLined k a then s.joinLine k n a
    else if a.kind == .load then s.finishLoad k n a e
    else s.tryWrite k n a e

/-- STORE_PERFORMED: the store, or element of a vector atomic, at place `n` is performed, when the orders of R194 and R195
allow it, or is held at the drum; it joins the line of a pseudo-channel that calibration holds (R322). -/
def State.storePerformed (s : State) (k n : Nat) (e : Ecc) : State :=
  match (s.accs k)[n]? with
  | none => s
  | some a =>
    if a.returns || !orderOk (s.accs k) n || s.accBlocked k a then s
    else if s.accLined k a then s.joinLine k n a
    else s.tryWrite k n a e

/-- A store held for `h` is released once `free` says that what held it is over. -/
def State.release (s : State) (k n : Nat) (h : Held) (free : State → Acc → Bool) (e : Ecc) : State :=
  match (s.accs k)[n]? with
  | none => s
  | some a =>
    if a.held == h && free s a then
      (s.setAccs k ((s.accs k).set n { a with held := .no })).tryWrite k n { a with held := .no } e
    else s

/-! ### The commands -/

/-- LOAD_COMPLETE (R172): `ecc` is the outcome of the read (R318, R319, R321). -/
def execLoadComplete (t : Tower) (i n : Nat) (ecc : Ecc) (s : State) : Host.Outcome State Fault Refusal :=
  .next (s.loadComplete (thrKey t.val i) n ecc)
/-- STORE_PERFORMED (R194): `ecc` is the outcome of the read that a vector atomic makes. -/
def execStorePerformed (t : Tower) (i n : Nat) (ecc : Ecc) (s : State) : Host.Outcome State Fault Refusal :=
  .next (s.storePerformed (thrKey t.val i) n ecc)
/-- BANK_STORE_RELEASE: a store held behind a lantern access is performed once no such access is outstanding (R52). -/
def execBankStoreRelease (t : Tower) (i n : Nat) (ecc : Ecc) (s : State) : Host.Outcome State Fault Refusal :=
  .next (s.release (thrKey t.val i) n .bank (fun s a => !s.bankHeld [(a.addr, a.len)]) ecc)
/-- SNAPSHOT_HELD_STORE_RELEASE: a store held on a page of a bank being snapshotted is performed once the snapshot has read
the page (R345). -/
def execSnapshotHeldStoreRelease (t : Tower) (i n : Nat) (ecc : Ecc) (s : State) : Host.Outcome State Fault Refusal :=
  .next (s.release (thrKey t.val i) n .snapshot (fun s a => !(s.snapHolds a.addr || s.snapHolds (a.addr + a.len - 1))) ecc)

end Sys2Proof.Machine
end

