-- ==== Sys2Proof/Machine/Roce.lean ====
section
/-! DEFINITION. The RoCEv2 engine at the level of messages: windows, requests from the host, acknowledgments, retries and
congestion (R425 to R429, R568; log entry 42). -/

namespace Sys2Proof.Machine

/-- The host link is up. -/
def State.linkUp (s : State) : Bool := s.bit .hostLinkStat 0 0 hostLinkStat_linkUp

/-- The window that serves a request: the lowest-numbered enabled one whose key matches, whose range holds the extent and whose
permissions include bit `perm`; no window reaches a mirror region (R427). -/
def State.windowFor (s : State) (rkey : Word) (a n perm : Nat) : Option Nat :=
  if s.mirrorHit a n then none
  else (List.range 64).find? fun w =>
    let x := tget s.host.windows w
    x.perms != 0 && x.rkey == rkey.toNat && x.base ≤ a && a + n ≤ x.base + x.size * 4096 && x.perms.testBit perm

/-- A queue pair answers requests of the host. -/
def Qp.responds (x : Qp) : Bool := x.st == .rtr || x.st == .rts

/-- How a request's PSN stands to the expected one. -/
inductive PsnPlace where
  | expected | duplicate | ahead
deriving DecidableEq, Repr

/-- The place of a PSN among the 2^24. -/
def psnPlace (psn expect : Nat) : PsnPlace :=
  let d := (psn + 2 ^ 24 - expect) % 2 ^ 24
  if d == 0 then .expected else if d < 2 ^ 23 then .ahead else .duplicate

/-- CNP_SEND: a marked packet makes the device send a congestion notification, one in each 5,000 refclk ticks (R429); none goes
to a peer without a neighbour entry (R422). -/
def State.cnpSend (s : State) (q : Nat) (ce : Bool) : State :=
  let x := s.qp q
  let due : Bool := match x.cnpTick with
    | some t => 5000 ≤ (s.refclk - t).toNat
    | none => true
  if ce && due && (s.neighbourOf x.ip).isSome then (s.setQp q { x with cnpTick := some s.refclk }).emit (.cnp q) else s

/-- The queue pair a received RoCEv2 packet is for: index 0 to 4,095 at device queue pair number 0x1000 + index; a packet whose
ICRC fails, or for another number, is for none (R425). -/
def RoceHdr.pair (h : RoceHdr) : Option Nat :=
  let n := h.qpn.toNat
  if h.icrcOk && 0x1000 ≤ n && n < 0x2000 then some (n - 0x1000) else none

/-- A RoCEv2 packet comes in: `f` is what it does at its queue pair, which takes packets in RTR and RTS; one marked CE is answered
with a congestion notification (R425, R429). -/
def State.roceIn (s : State) (h : RoceHdr) (f : State → Nat → State) : State :=
  match h.pair with
  | some q => if s.linkUp && (s.qp q).responds then f (s.cnpSend q h.ce) q else s
  | none => s

/-- A request of the host at queue pair `q`: `serve` is what it does in its turn or, where `again` allows, as a duplicate; one
that skips a PSN is refused with a NAK (R425). Without a neighbour entry nothing can be answered, which is an error of the pair
(R422, R426). -/
def State.request (s : State) (q psn packets : Nat) (again : Bool) (serve : State → State) : State :=
  let x := s.qp q
  if (s.neighbourOf x.ip).isNone then s.qpError q 6
  else
    match psnPlace psn x.rqPsn with
    | .ahead => s.emit (.nak q x.rqPsn 0)
    | .duplicate => if again then serve s else s.emit (.ack q ((x.rqPsn + 2 ^ 24 - 1) % 2 ^ 24))
    | .expected => serve (s.setQp q { x with rqPsn := (psn + packets) % 2 ^ 24 })

/-- A request no window allows: a NAK for remote access, and the pair moves to ERROR (R427). -/
def State.refuseAccess (s : State) (q psn : Nat) : State := (s.emit (.nak q psn 2)).qpError q 4

/-- RDMA_WRITE_RECEIVE: the bytes are stored through a window, in PSN order, and acknowledged (R427, R428). A store that is held
on its way or at its drum makes the request wait (R20, R52, R322, R345). -/
def State.rdmaWrite (s : State) (h : RoceHdr) (psn a : Nat) (rkey : Word) (data : List Byte) : State :=
  if (s.windowFor rkey a data.length 1).isSome && s.storesHeld hostIsland [(a, data.length)] then s
  else s.roceIn h fun s q =>
    let n := psnCount (s.qp q).mtu data.length
    s.request q psn n false fun s =>
      match s.windowFor rkey a data.length 1 with
      | none => s.refuseAccess q psn
      | some _ => (s.store a data).emit (.ack q ((psn + n - 1) % 2 ^ 24))

/-- RDMA_READ_RECEIVE: the bytes are read through a window and returned; an uncorrectable error is answered with a NAK for a
remote operational error and moves the pair to ERROR (R319, R427). A read that is held on its way waits (R20, R322). -/
def State.rdmaRead (s : State) (h : RoceHdr) (psn a : Nat) (rkey : Word) (len : Nat) (ecc : Ecc) : State :=
  if (s.windowFor rkey a len 0).isSome && s.trafficHeld hostIsland [(a, len)] then s
  else s.roceIn h fun s q =>
    s.request q psn (psnCount (s.qp q).mtu len) true fun s =>
      match s.windowFor rkey a len 0 with
      | none => s.refuseAccess q psn
      | some _ =>
        let s := s.countFixed (decodeTower hostIsland) a len ecc
        match s.readError a len ecc with
        | some bad => ((s.readUe (decodeTower hostIsland) bad).emit (.nak q psn 3)).qpError q 5
        | none => s.emit (.readResp q psn (s.bytes a len))

/-! ### The device as requester -/

/-- A message's last PSN is at or before `psn`, counting from the first message sent. -/
def RMsg.within (m : RMsg) (mtu first psn : Nat) : Bool :=
  (m.psn + psnCount mtu m.len - 1 + 2 ^ 24 - first) % 2 ^ 24 ≤ (psn + 2 ^ 24 - first) % 2 ^ 24

/-- The oldest messages, at most `n`, that are WRITEs ending at or before `psn` are acknowledged: their bytes are performed
(R425). -/
def State.ackWrites (s : State) (q first psn n : Nat) : State :=
  match n with
  | 0 => s
  | k + 1 =>
    let x := s.qp q
    match x.sent with
    | [] => s
    | m :: rest =>
      if m.read || !m.within x.mtu first psn then s
      else ((s.setQp q { x with sent := rest, tries := 0, ackTick := s.refclk }).partWritten m.job m.part m.len).ackWrites q first psn k

/-- Retransmission of every message not acknowledged, unless the retry count is used up or the neighbour entry is gone (R422,
R425, R426). -/
def State.retransmit (s : State) (q : Nat) : State :=
  let x := s.qp q
  if x.sent.isEmpty then s
  else if x.retry ≤ x.tries then s.qpError q 3
  else if (s.neighbourOf x.ip).isNone then s.qpError q 6
  else (s.each x.sent fun s m => s.emit (.rdma q m)).setQp q { x with tries := x.tries + 1, ackTick := s.refclk }

/-- ROCE_ACK_RECEIVE: an ACK up to `psn`, or a NAK at `psn` with a code: 0 a sequence error and 3 a remote operational error,
after which the rest is sent again; 1 an invalid request and 2 remote access, which move the pair to ERROR (R425, R426). -/
def State.ackReceive (s : State) (q psn : Nat) (nak : Option (Fin 4)) : State :=
  let x := s.qp q
  if x.st != .rts then s
  else
    let first := match x.sent with
      | m :: _ => m.psn
      | [] => psn
    let n := x.sent.length
    match nak with
    | none =>
      if 2 ^ 23 ≤ (psn + 2 ^ 24 - first) % 2 ^ 24 then s else (s.ackWrites q first psn n).qpPump q 17
    | some 1 => s.qpError q 2
    | some 2 => s.qpError q 1
    | some _ => if psn == first then s.retransmit q else (s.ackWrites q first ((psn + 2 ^ 24 - 1) % 2 ^ 24) n).retransmit q

/-- RDMA_READ_RESPONSE_RECEIVE: the data of a READ of the device come in; WRITEs sent before it are acknowledged by it, and a
response that skips a READ is dropped (R425). -/
def State.readResponse (s : State) (q psn : Nat) (data : List Byte) : State :=
  let x := s.qp q
  match x.sent.find? fun m => m.read with
  | none => s
  | some m =>
    if x.st != .rts || m.psn != psn || m.len != data.length then s
    else
      let first := match x.sent with
        | y :: _ => y.psn
        | [] => psn
      let s := s.ackWrites q first ((psn + 2 ^ 24 - 1) % 2 ^ 24) x.sent.length
      let s := s.setQp q { s.qp q with sent := (s.qp q).sent.erase m, tries := 0, ackTick := s.refclk }
      (s.partData m.job m.part data).qpPump q 17

/-- The send rate halved, but not below 1/256 of the line rate (R429). -/
def Qp.halved (x : Qp) : Qp :=
  if x.rate < 2 * 2 ^ x.rateBits then { x with rate := 1, rateBits := 0 } else { x with rateBits := x.rateBits + 1 }

/-- The send rate raised by 1/16 of the line rate, but not above the line rate (R429). -/
def Qp.raised (x : Qp) : Qp :=
  let r := x.rate + 16 * 2 ^ x.rateBits
  if 256 * 2 ^ x.rateBits ≤ r then { x with rate := 256, rateBits := 0 } else { x with rate := r }

/-- CNP_RECEIVE: a congestion notification halves the send rate, at most once in each 5,000 refclk ticks and not below 1/256 of
line rate (R429). -/
def State.cnpReceive (s : State) (q : Nat) : State :=
  let x := { s.qp q with calmTick := s.refclk }
  let due : Bool := match x.cutTick with
    | some t => 5000 ≤ (s.refclk - t).toNat
    | none => true
  s.setQp q (if due then { x.halved with cutTick := some s.refclk } else x)

/-- RATE_RECOVERY: 5,500 refclk ticks without a notification raise the rate by 1/16 of line rate (R429). -/
def State.rateRecovery (s : State) (q : Nat) : State :=
  let x := s.qp q
  if x.responds && x.rate < 256 * 2 ^ x.rateBits && 5500 ≤ (s.refclk - x.calmTick).toNat then
    s.setQp q { x.raised with calmTick := s.refclk }
  else s

/-- The ack time-out of a queue pair in refclk ticks: 4.096 µs × 2^code, and none for code 0 (R425; log entry 42). -/
def Qp.ackTicks (x : Qp) : Option Nat := if x.ackTimeout == 0 then none else some (4096 * 2 ^ x.ackTimeout / 10)

/-- ROCE_RETRY_TIMEOUT: the ack time-out of a queue pair in RTS has passed since its last sending or progress (R425, R426). -/
def State.retryTimeout (s : State) (q : Nat) : State :=
  let x := s.qp q
  match x.ackTicks with
  | some n => if x.st == .rts && n ≤ (s.refclk - x.ackTick).toNat then s.retransmit q else s
  | none => s

/-! ### The commands -/

/-- RDMA_WRITE_RECEIVE (R428): the PSN, the address, key and data of the message. -/
def execRdmaWriteReceive (q : RoceDest) (psn : BitVec 24) (va : DWord) (rkey : Word) (data : List Byte) (ce : Bool)
    (s : State) : Host.Outcome State Fault Refusal :=
  .next (s.rdmaWrite ⟨q, ce⟩ psn.toNat va.toNat rkey data)
/-- RDMA_READ_RECEIVE (R427): `ecc` is the outcome of the read. -/
def execRdmaReadReceive (q : RoceDest) (psn : BitVec 24) (va : DWord) (rkey len : Word) (ce : Bool) (ecc : Ecc)
    (s : State) : Host.Outcome State Fault Refusal :=
  .next (s.rdmaRead ⟨q, ce⟩ psn.toNat va.toNat rkey len.toNat ecc)
/-- RDMA_READ_RESPONSE_RECEIVE (R425). -/
def execRdmaReadResponseReceive (h : RoceHdr) (psn : BitVec 24) (data : List Byte) (s : State) :
    Host.Outcome State Fault Refusal :=
  .next (s.roceIn h fun s q => s.readResponse q psn.toNat data)
/-- ROCE_ACK_RECEIVE (R425). -/
def execRoceAckReceive (h : RoceHdr) (psn : BitVec 24) (nak : Option (Fin 4)) (s : State) :
    Host.Outcome State Fault Refusal :=
  .next (s.roceIn h fun s q => s.ackReceive q psn.toNat nak)
/-- ROCE_RETRY_TIMEOUT (R425). -/
def execRoceRetryTimeout (q : Fin 4096) (s : State) : Host.Outcome State Fault Refusal := .next (s.retryTimeout q.val)
/-- CNP_RECEIVE (R429). -/
def execCnpReceive (h : RoceHdr) (s : State) : Host.Outcome State Fault Refusal := .next (s.roceIn h fun s q => s.cnpReceive q)
/-- RATE_RECOVERY (R429). -/
def execRateRecovery (q : Fin 4096) (s : State) : Host.Outcome State Fault Refusal := .next (s.rateRecovery q.val)

end Sys2Proof.Machine
end

