-- ==== Sys2Proof/Machine/Belpel.lean ====
section
/-! DEFINITION. Frames, the Belpel datagrams and the host event queue (R422 to R424, R430 to R440). -/

namespace Sys2Proof.Machine

/-! ### Addresses (R424, R571) -/

/-- The MAC address: 02 and bits [39:0] of the serial number (R424). -/
def ownMac : List Byte := 0x02 :: beBytes 5 (Config.serial.toNat % 2 ^ 40)

/-- The IPv6 link-local address, by the modified EUI-64 rule (R424). -/
def linkLocal : List Byte :=
  let m := ownMac
  [0xFE, 0x80, 0, 0, 0, 0, 0, 0, m.getD 0 0 ^^^ 0x02] ++ (m.drop 1).take 2 ++ [0xFF, 0xFE] ++ m.drop 3

/-- An IPv4 address in the mapped form of 16 bytes (R571). -/
def mapped (a : List Byte) : List Byte := List.replicate 10 0 ++ [0xFF, 0xFF] ++ a

/-- The value of an address: an IPv4 address alone where it is mapped (HOST_BELPEL_SRC, R571). -/
def addrValue (a : List Byte) : Nat := if a.take 12 == mapped [] then beOf (a.drop 12) else beOf a

/-! ### Belpel datagrams (R431 to R434) -/

/-- Word `i` of a datagram, padded with zeros. -/
def dgWord (bs : List Byte) (i : Nat) : Nat := leOf ((bs.drop (4 * i)).take 4)

/-- The bytes of a Belpel datagram (R431). -/
def belpelBytes (type mailbox seq echo : Nat) (body : List Byte) : List Byte :=
  [0xB31E + 2 ^ 16 + type * 2 ^ 24, mailbox + body.length * 2 ^ 16, seq, echo].flatMap (bytesOf 4) ++ body

/-- A Belpel datagram of the device from its UDP port `own`, under its next sequence number (R431); none goes to a peer without a
neighbour entry (R422). -/
def State.sendBelpelFrom (s : State) (own : Nat) (dest : List Byte × Nat) (type echo : Nat) (body : List Byte) : State :=
  if (s.neighbourOf dest.1).isNone then s
  else
    let d : Datagram := { ip := dest.1, port := dest.2, bytes := belpelBytes type 0 s.host.txSeq.toNat echo body }
    { s with host := { s.host with txSeq := s.host.txSeq + 1 } }.emit (.belpel own d)

/-- The UDP port that carries Belpel datagrams (R431). -/
def State.udpPort (s : State) : Nat := s.fld .hostUdpPort 0 0 hostUdpPort_port

/-- A Belpel datagram from the configured port. -/
def State.sendBelpel (s : State) (dest : List Byte × Nat) (type echo : Nat) (body : List Byte) : State :=
  s.sendBelpelFrom s.udpPort dest type echo body

def State.mbox (s : State) (n : Nat) : Mbox := tget s.host.mboxes n
def State.setMbox (s : State) (n : Nat) (m : Mbox) : State :=
  { s with host := { s.host with mboxes := tput s.host.mboxes n m } }

/-- The allow list accepts a source (R433). -/
def State.allowed (s : State) (ip : List Byte) (port : Nat) : Bool :=
  s.host.allow.isEmpty || s.host.allow.any fun x => x.1 == ip && (x.2 == 0 || x.2 == port)

/-- The body lengths a type requires (R432). -/
def bodyLen (type : Nat) : Nat × Nat :=
  match type with
  | 2 => (16, 1024) | 7 => (0, 1024) | _ => (4, 4)

/-- The reason a datagram is malformed: the first check of R433 that fails; 0 where none does. -/
def State.badReason (s : State) (d : Datagram) : Nat :=
  let b := d.bytes
  let w0 := dgWord b 0
  let w1 := dgWord b 1
  let ty := w0 / 2 ^ 24
  let mb := w1 % 64
  let len := w1 / 2 ^ 16
  let range := bodyLen ty
  let command := ty == 1 || ty == 2
  if b.length < 16 then 1
  else if w0 % 2 ^ 16 != 0xB31E then 2
  else if w0 / 2 ^ 16 % 16 != 1 then 3
  else if !s.allowed d.ip d.port then 4
  else if !(List.contains [1, 2, 5, 7] ty) then 5
  else if len + 16 != b.length || len < range.1 || range.2 < len then 6
  else if w0 / 2 ^ 20 % 16 != 0 || w1 / 64 % 2 ^ 10 != 0 || dgWord b 3 != 0 || (!command && mb != 0)
      || (ty == 1 && dgWord b 4 / 2 ^ 16 != 0) then 7
  else if command && !(s.mbox mb).isOpen then 8
  else if ty == 1 && (s.mbox mb).slots ≤ dgWord b 4 then 9
  else if ty == 5 && later (BitVec.ofNat 32 (dgWord b 4)) s.host.lastSent then 10
  else 0

/-- BELPEL_MALFORMED: a failing datagram is counted, logged with its source, and answered with ERROR (R433, R434). -/
def State.malformed (s : State) (d : Datagram) (reason : Nat) : State :=
  let s := s.count .hostBelpelBad 0 0 hostBelpelBad_count 1
  let s := s.setReg .hostBelpelLog 0 0 (BitVec.ofNat 32 (reason + dgWord d.bytes 1 % 64 * 2 ^ 8))
  let v := addrValue d.ip
  let s := s.each (List.range 4) fun s i => s.setReg .hostBelpelSrc 0 i (BitVec.ofNat 32 (v / 2 ^ (32 * i)))
  let s := s.flag .hostErr 0 0 hostErr_belpelBad
  let head := (List.range 16).map fun i => d.bytes.getD i 0
  let ws := [Status.malformed.code + reason * 2 ^ 16, (s.reg .hostBelpelBad 0 0).toNat, 0, 0]
  s.sendBelpel (d.ip, d.port) 6 (dgWord d.bytes 2) (ws.flatMap (bytesOf 4) ++ head)

/-- The oldest datagram received is `d`: it is taken; one that fails a check of R433 is refused, one of type `ty` is acted on by
`f`, and any other stays for the command of its own type. -/
def State.takeDatagram (s : State) (d : Datagram) (ty : Nat) (f : State → State) : State :=
  match s.host.rx with
  | [] => s
  | x :: rest =>
    if x != d then s
    else
      let t := { s with host := { s.host with rx := rest } }
      let r := s.badReason d
      if r != 0 then t.malformed d r
      else if dgWord d.bytes 0 / 2 ^ 24 == ty then f t
      else s

/-- A datagram that is not later than the last one accepted is counted as stale (R435, R436). -/
def State.stale (s : State) : State := s.count .hostBelpelStale 0 0 hostBelpelStale_count 1

/-- A datagram's seq is accepted: the first one, or one later than the last (R435, R436, R439). -/
def accepts (last : Option Word) (seq : Word) : Bool :=
  match last with
  | none => true
  | some l => later seq l

/-- Items join a mailbox's accepted commands, in acceptance order (R436, R440, R445). -/
def State.acceptItems (s : State) (mb : Nat) (l : List MbItem) : State :=
  let n := s.host.accepted
  let m := s.mbox mb
  let s := s.setMbox mb { m with queue := m.queue ++ l.zipIdx.map fun (x, i) => (n + i, x) }
  { s with host := { s.host with accepted := n + l.length } }

/-- DOORBELL's effect: a later seq sets the tail, and the slots up to it are accepted in slot order; any other is stale (R435,
R440). -/
def State.doorbell (s : State) (d : Datagram) : State :=
  let mb := dgWord d.bytes 1 % 64
  let seq := BitVec.ofNat 32 (dgWord d.bytes 2)
  let tail := dgWord d.bytes 4
  let m := s.mbox mb
  if !accepts m.bellSeq seq then s.stale
  else
    let n := (tail + m.slots - m.tail) % m.slots
    let items := (List.range n).map fun i => MbItem.slot ((m.tail + i) % m.slots) seq (d.ip, d.port)
    (s.setMbox mb { m with tail := tail, bellSeq := some seq }).acceptItems mb items

/-- INLINE_CMD's effect: a later seq is accepted for execution, an equal one gets the stored REPLY where there is one, and any
other is stale (R436). -/
def State.inlineCmd (s : State) (d : Datagram) : State :=
  let mb := dgWord d.bytes 1 % 64
  let seq := BitVec.ofNat 32 (dgWord d.bytes 2)
  let m := s.mbox mb
  if accepts m.inSeq seq then
    (s.setMbox mb { m with inSeq := some seq, inReply := none }).acceptItems mb [.inline seq (d.ip, d.port) (d.bytes.drop 16)]
  else if m.inSeq == some seq then
    match m.inReply with
    | some r => s.sendBelpel (d.ip, d.port) 3 seq.toNat r
    | none => s
  else s.stale

/-! ### Events (R437, R438) -/

/-- The bytes of an event record (R437). -/
def EvtRec.bytes (r : EvtRec) : List Byte :=
  bytesOf 4 r.seq.toNat ++ bytesOf 4 (r.source % 2 ^ 10 + r.ctx % 16 * 2 ^ 10) ++ bytesOf 8 r.arg.toNat

/-- EVENT_ACK's effect: records up to the one named are freed, and the host completes their sources (R437, R501). -/
def State.eventAck (s : State) (n : Word) : State :=
  let freed (r : EvtRec) : Bool := r.seq == n || earlier r.seq n
  let gone := s.host.events.filter freed
  let s := { s with host := { s.host with events := s.host.events.filter fun r => !freed r } }
  s.each gone fun s r => if s.srcFld r.source irqSrcCfg_target == 4 then s.complete r.source else s

/-- The first records that are due, at most 32, are sent to the endpoint in one EVENT datagram (R437). -/
def State.sendEvents (s : State) (due : EvtRec → Bool) : State :=
  match s.host.endpoint with
  | none => s
  | some dest =>
    let l := (s.host.events.filter due).take 32
    match l.getLast? with
    | none => s
    | some r =>
      if !s.linkUp || (s.neighbourOf dest.1).isNone then s
      else
        let mark (x : EvtRec) : EvtRec := if l.contains x then { x with sentTick := some s.refclk } else x
        let last := if later r.seq s.host.lastSent then r.seq else s.host.lastSent
        let s := { s with host := { s.host with events := s.host.events.map mark, lastSent := last } }
        s.sendBelpel dest 4 0 (l.flatMap EvtRec.bytes)

/-- The record has not been acknowledged within HOST_EVT_RETRY ticks of its last sending (R437). -/
def State.retryDue (s : State) (r : EvtRec) : Bool :=
  match r.sentTick with
  | none => false
  | some t => (s.reg .hostEvtRetry 0 0).toNat ≤ (s.refclk - t).toNat

/-! ### Frames (R422, R423, R430) -/

/-- A discarded frame, packet or datagram is counted (R422, R423). -/
def State.rxBad (s : State) : State := s.count .hostRxBad 0 0 hostRxBad_count 1

/-- What a received IP packet's payload does: Belpel datagrams wait for their commands, an echo request and a solicitation are
answered; RoCEv2 messages are commands of their own (R422, R423). -/
def State.ipBody (s : State) (v6 : Bool) (src : List Byte) (b : IpBody) : State :=
  match b with
  | .udp sp dp sumOk sumZero bytes =>
    if (sumZero && v6) || (!sumZero && !sumOk) then s.rxBad
    else if dp == 4791 then s
    else if dp == s.udpPort then
      { s with host := { s.host with rx := s.host.rx ++ [{ ip := src, port := sp, bytes := bytes }] } }
    else s.rxBad
  | .echoRequest bytes => s.emit (.echoReply src bytes)
  | .solicit target =>
    if v6 && (target == linkLocal || s.host.ipv6 == some target) then s.emit (.neighbourAdvert src target) else s
  | .other => s

/-- The VLAN id the port takes; a frame with other tags than one of it is not received (R422). -/
def State.tagsOk (s : State) (tags : List Nat) : Bool :=
  match tags with
  | [] => true
  | [v] => v == s.fld .hostPfcCfg 0 0 hostPfcCfg_vlanId
  | _ => false

/-- The Ethernet broadcast address, and whether an address is one of IPv6 neighbour discovery. -/
def broadcast : List Byte := List.replicate 6 0xFF
def discoveryMac (m : List Byte) : Bool := m.take 3 == [0x33, 0x33, 0xFF]

/-- ETHERNET_FRAME_RECEIVE: a frame that fails its FCS or is longer than 9,216 bytes, a wrong tag, and the packets R422 and R423
name are discarded and counted; a frame for another address is not received. -/
def State.frameIn (s : State) (f : Frame) : State :=
  if !s.linkUp then s
  else if !f.fcsOk || f.length > 9216 || !s.tagsOk f.tags then s.rxBad
  else
    let own := f.dst == ownMac
    match f.body with
    | .arpRequest target =>
      if (own || f.dst == broadcast) && s.host.ipv4 == some target then s.emit (.arpReply target) else s
    | .ipv4 src dst sumOk options fragment b =>
      if !own then s
      else if !sumOk || options || fragment then s.rxBad
      else if s.host.ipv4 == some dst then s.ipBody false (mapped src) b else s
    | .ipv6 src dst extension fragment b =>
      let nd : Bool := match b with
        | .solicit _ => discoveryMac f.dst
        | _ => false
      if !own && !nd then s
      else if extension || fragment then s.rxBad
      else if nd || dst == linkLocal || s.host.ipv6 == some dst then s.ipBody true src b else s
    | .other => s

/-- The priority carries RoCEv2 or Belpel traffic (R430). -/
def State.carries (s : State) (p : Nat) : Bool :=
  p == s.fld .hostPfcCfg 0 0 hostPfcCfg_rocePrio || p == s.fld .hostPfcCfg 0 0 hostPfcCfg_belpelPrio

/-- PFC_PAUSE_SEND: free space of a priority's receive buffer falls below the pause threshold, or recovers above the resume
threshold (R430). -/
def State.pfcSend (s : State) (x : Option (Fin 8 × Bool)) : State :=
  match x with
  | none => s
  | some (p, pause) =>
    let on := s.host.pausing.testBit p.val
    if !s.linkUp || !s.carries p.val || !s.bit .hostPfcCfg 0 0 hostPfcCfg_pfcEn || on == pause then s
    else ({ s with host := { s.host with pausing := s.host.pausing ^^^ 2 ^ p.val } }).emit (.pfc p.val pause)

/-- PFC_PAUSE_RECEIVE: a received pause holds what is sent on its priority while flow control is enabled, and a resume lets it go;
one for a priority that carries neither class is counted (R430). -/
def State.pfcReceive (s : State) (p : Nat) (pause : Bool) : State :=
  if !s.linkUp then s
  else if pause && !s.carries p then { s with host := { s.host with stray := s.host.stray + 1 } }
  else if pause then
    if s.bit .hostPfcCfg 0 0 hostPfcCfg_pfcEn then { s with host := { s.host with paused := s.host.paused ||| 2 ^ p } } else s
  else
    let on := s.host.paused.testBit p
    ({ s with host := { s.host with paused := if on then s.host.paused ^^^ 2 ^ p else s.host.paused } }).flushStalled

/-- HOST_LINK_UP: the PCS aligns and FEC locks on all lanes while the host SerDes island is ready and its loop is locked (R424,
R515). -/
def State.hostLinkUp (s : State) : State :=
  if s.pwr.st == .running && s.bit .ctlIslandReady 0 0 ctlIslandReady_hostSerdesReady && s.locked 26 then
    s.setFld .hostLinkStat 0 0 hostLinkStat_linkUp 1
  else s

/-! ### The commands -/

/-- ETHERNET_FRAME_RECEIVE (R422): `pfc` is a threshold the frame makes a receive buffer cross (R430). -/
def execEthernetFrameReceive (f : Frame) (pfc : Option (Fin 8 × Bool)) (s : State) : Host.Outcome State Fault Refusal :=
  .next ((s.frameIn f).pfcSend pfc)
/-- PFC_PAUSE_RECEIVE (R430). -/
def execPfcPauseReceive (p : Fin 8) (pause : Bool) (s : State) : Host.Outcome State Fault Refusal :=
  .next (s.pfcReceive p.val pause)
/-- HOST_LINK_UP (R424). -/
def execHostLinkUp (s : State) : Host.Outcome State Fault Refusal := .next s.hostLinkUp
/-- LINK_LOST (R422). -/
def execLinkLost (s : State) : Host.Outcome State Fault Refusal := .next s.hostLinkLost
/-- DOORBELL (R435). -/
def execDoorbell (d : Datagram) (s : State) : Host.Outcome State Fault Refusal :=
  .next (s.takeDatagram d 1 fun s => s.doorbell d)
/-- INLINE_CMD (R436). -/
def execInlineCmd (d : Datagram) (s : State) : Host.Outcome State Fault Refusal :=
  .next (s.takeDatagram d 2 fun s => s.inlineCmd d)
/-- EVENT_ACK (R437). -/
def execEventAck (d : Datagram) (s : State) : Host.Outcome State Fault Refusal :=
  .next (s.takeDatagram d 5 fun s => s.eventAck (BitVec.ofNat 32 (dgWord d.bytes 4)))
/-- ECHO_REQ: answered by ECHO_REPLY with the body unchanged (R432). -/
def execEchoReq (d : Datagram) (s : State) : Host.Outcome State Fault Refusal :=
  .next (s.takeDatagram d 7 fun s => s.sendBelpel (d.ip, d.port) 8 (dgWord d.bytes 2) (d.bytes.drop 16))
/-- EVENT_DATAGRAM_SEND: records not yet sent go to the endpoint (R437). -/
def execEventDatagramSend (s : State) : Host.Outcome State Fault Refusal :=
  .next (s.sendEvents fun r => r.sentTick.isNone)
/-- EVENT_RETRY: records unacknowledged for HOST_EVT_RETRY ticks are sent again (R437). -/
def execEventRetry (s : State) : Host.Outcome State Fault Refusal := .next (s.sendEvents s.retryDue)

end Sys2Proof.Machine
end

