-- ==== Sys2Proof/Machine/CodecIssue.lean ====
section
/-! DEFINITION. The codec queues: descriptors, checks at issue, grants, faults and maintenance mode (10: R273 to R287, R300,
R301, R307, R308, R310, R311). -/

namespace Sys2Proof.Machine

/-! ### Descriptors (R282, R300) -/

def ceilDiv (a b : Nat) : Nat := (a + b - 1) / b

/-- Engine 0 to 7 of a decode descriptor; 8 or 9 of an encode descriptor. -/
def cdcEngine (k : QKind) (w : List Nat) : Nat := if k == .decode then dfld w 0 4 2 else 8 + dfld w 0 9 9
def CdcEng.num (e : CdcEng) : Nat :=
  match e with
  | .dec i => i.val
  | .enc i => 8 + i.val
/-- The queue kind of an engine. -/
def engQueue (e : Nat) : QKind := if e < 8 then .decode else .encode

def cdcEos (k : QKind) (w : List Nat) : Bool := if k == .decode then dfld w 0 20 20 == 1 else dfld w 0 12 12 == 1
def cdcIrq (k : QKind) (w : List Nat) : Bool := if k == .decode then dfld w 0 21 21 == 1 else dfld w 0 13 13 == 1
def cdcWaitPrev (k : QKind) (w : List Nat) : Bool := if k == .decode then dfld w 0 22 22 == 1 else dfld w 0 14 14 == 1
def cdcCont (k : QKind) (w : List Nat) : Bool := if k == .decode then dfld w 0 5 5 == 1 else dfld w 0 10 10 == 1
def cdcTag (w : List Nat) : Nat := dfld w 1 15 0
def CdcJob.kind (j : CdcJob) : QKind := engQueue j.eng
def CdcJob.tag (j : CdcJob) : Nat := cdcTag j.words
/-- The ring control block of a job. -/
def CdcJob.ring (j : CdcJob) : Nat := daddr j.words (if j.eng < 8 then 6 else 12)

/-- Fields of a decode descriptor (R282). -/
def dAv1 (w : List Nat) : Bool := dfld w 0 1 0 == 1
def dChanMode (w : List Nat) : Nat := dfld w 0 7 6
def dChannels (w : List Nat) : Nat := if dChanMode w == 1 then 1 else 3
def dToken (w : List Nat) : Nat := 16 * 2 ^ dfld w 0 15 14
def dMapEn (w : List Nat) : Bool := dfld w 0 29 29 == 1
def dCmapEn (w : List Nat) : Bool := dfld w 0 30 30 == 1
def dWeightEn (w : List Nat) : Bool := dfld w 0 31 31 == 1
def dReorder (w : List Nat) : Nat := dfld w 1 28 24
def dCropX (w : List Nat) : Nat := dfld w 2 15 0
def dCropY (w : List Nat) : Nat := dfld w 2 31 16
def dCropW (w : List Nat) : Nat := dfld w 3 15 0
def dCropH (w : List Nat) : Nat := dfld w 3 31 16
def dFirst (w : List Nat) : Nat := w.getD 4 0
def dFrames (w : List Nat) : Nat := dfld w 5 15 0
def dFrameStride (w : List Nat) : Nat := dfld w 5 23 16
def dCStride (w : List Nat) : Nat := dfld w 5 31 24
def dOutRow (w : List Nat) : Nat := w.getD 10 0
def dOutFrame (w : List Nat) : Nat := w.getD 11 0
def dRotate (w : List Nat) : Nat := dfld w 15 1 0
def dMirror (w : List Nat) : Bool := dfld w 15 2 2 == 1

/-- Tokens across and down an output frame (R292). -/
def dTw (w : List Nat) : Nat := ceilDiv (dCropW w) (dToken w)
def dTh (w : List Nat) : Nat := ceilDiv (dCropH w) (dToken w)
/-- Tokens of one output frame. -/
def dTokens (w : List Nat) : Nat := dTw w * dTh w

/-- Pictures and bytes of the decoded picture store (R287). -/
def dSlots (w : List Nat) : Nat := if dAv1 w then 10 else 17
def dStoreMib (w : List Nat) : Nat := dSlots w * (ceilDiv (dfld w 31 15 0 * dfld w 31 31 16 * 3) (2 ^ 20) + 1)

/-- Frames of a job. -/
def cdcFrames (k : QKind) (w : List Nat) : Nat := if k == .decode then dFrames w else dfld w 1 31 16

/-- Fields of an encode descriptor (R300). -/
def eClass (w : List Nat) : Nat := dfld w 0 1 0
def eCtu (w : List Nat) : Nat := if dfld w 0 3 3 == 1 then 32 else 64
def eInput (w : List Nat) : Nat := dfld w 0 5 4
def eRc (w : List Nat) : Nat := dfld w 0 8 7
def eRoi (w : List Nat) : Bool := dfld w 0 11 11 == 1
def eQp (w : List Nat) : Nat := dfld w 0 25 20
def eWidth (w : List Nat) : Nat := dfld w 2 15 0
def eHeight (w : List Nat) : Nat := dfld w 2 31 16
def eRateNum (w : List Nat) : Nat := dfld w 3 15 0
def eRateDen (w : List Nat) : Nat := dfld w 3 31 16
def eBitrate (w : List Nat) : Nat := w.getD 4 0
def eIdrPeriod (w : List Nat) : Nat := dfld w 5 31 16
def eSliceRows (w : List Nat) : Nat := dfld w 6 7 0
def eRefresh (w : List Nat) : Nat := dfld w 6 15 8
def eCStride (w : List Nat) : Nat := dfld w 6 23 16
def eInRow (w : List Nat) : Nat := w.getD 10 0
def eInFrame (w : List Nat) : Nat := w.getD 11 0
/-- CTU rows and columns of a picture. -/
def eCtuRows (w : List Nat) : Nat := ceilDiv (eHeight w) (eCtu w)
def eCtuCols (w : List Nat) : Nat := ceilDiv (eWidth w) (eCtu w)

/-- Bytes one input frame spans: the planes, or the tensor rows (R302). -/
def eExtent (w : List Nat) : Nat :=
  if eInput w == 2 then (eHeight w - 1) * eInRow w + eWidth w * eCStride w * 2
  else eHeight w * eInRow w + 2 * (eHeight w / 2 * (eInRow w / 2))

/-- MiB the reference store needs (R301). -/
def eStoreMib (w : List Nat) : Nat := 2 * (ceilDiv (eWidth w * eHeight w * 3) (2 ^ 20) + 1)

/-- A level of HEVC: ten times its number, luma samples of a picture and per second, kbit/s in the Main and the High tier (0:
none), as H.265 lists them (R275; log entry 43). -/
structure Level where
  num : Nat
  ps : Nat
  sr : Nat
  main : Nat
  high : Nat
deriving DecidableEq, Repr

/-- The levels of HEVC from 1 to 5.1 (R275). -/
def levels : List Level :=
  [⟨10, 36864, 552960, 128, 0⟩, ⟨20, 122880, 3686400, 1500, 0⟩, ⟨21, 245760, 7372800, 3000, 0⟩,
   ⟨30, 552960, 16588800, 6000, 0⟩, ⟨31, 983040, 33177600, 10000, 0⟩, ⟨40, 2228224, 66846720, 12000, 30000⟩,
   ⟨41, 2228224, 133693440, 20000, 50000⟩, ⟨50, 8912896, 267386880, 25000, 100000⟩,
   ⟨51, 8912896, 534773760, 40000, 160000⟩]

/-- The lowest level whose limits the job meets, and whether it needs the High tier (R275). -/
def eLevel (w : List Nat) : Option (Nat × Bool) :=
  levels.findSome? fun l =>
    let luma := eWidth w * eHeight w
    let fits := luma ≤ l.ps && eWidth w * eWidth w ≤ 8 * l.ps && eHeight w * eHeight w ≤ 8 * l.ps
      && luma * eRateNum w ≤ l.sr * eRateDen w
    if fits && eBitrate w ≤ l.main then some (l.num, false)
    else if fits && eBitrate w ≤ l.high then some (l.num, true)
    else none

/-! ### Rings (R278) -/

/-- [a, a + n) lies wholly in HBM or in one drum SRAM window. -/
def oneWindow (a n : Nat) : Bool :=
  a + n ≤ 0x018000000000 || (inDrum a && inDrum (a + n - 1) && drumOf a == drumOf (a + n - 1))

/-- [a, a + n) lies wholly in HBM or in one drum SRAM window's general scratch. -/
def oneScratch (a n : Nat) : Bool :=
  n == 0 || a + n ≤ 0x018000000000
    || (oneWindow a n && (match regionOf a, regionOf (a + n - 1) with
        | .scratch _, .scratch _ => true
        | _, _ => false))

/-- A ring control block (R278). -/
structure Ring where
  base : Nat
  size : Nat
  prod : Nat
  cons : Nat
  stream : Nat
deriving DecidableEq, Repr

/-- The ring control block at `a`. -/
def State.ringAt (s : State) (a : Nat) : Ring :=
  let w := s.wordsAt a 16
  { base := daddr w 0, size := w.getD 2 0, prod := w.getD 3 0, cons := w.getD 4 0, stream := dfld w 5 15 0 }

/-- The ring control block at `a` is as R278 asks. -/
def State.ringSound (s : State) (a : Nat) : Bool :=
  let w := s.wordsAt a 16
  let r := s.ringAt a
  a % 64 == 0 && oneWindow a 64 && daddrOk w 0 && r.base % 4096 == 0 && r.size % 4096 == 0 && r.size ≥ 65536
    && oneWindow r.base r.size && dfld w 5 31 16 == 0 && (List.range 10).all fun i => w.getD (6 + i) 0 == 0

/-! ### Checks at issue (R283, R301, R308) -/

/-- The first two rows of the table of R283; `m` is maintenance mode (R308). -/
def decChecks1 (m : Bool) (w : List Nat) : List (Bool × Status) :=
  [ (dfld w 0 1 0 ≥ 2 || dChanMode w == 3 || dfld w 0 11 10 == 3 || dfld w 0 15 14 == 3 || dfld w 1 31 29 != 0
      || dfld w 14 31 3 != 0 || dfld w 15 31 3 != 0 || dfld w 18 31 2 != 0 || dfld w 23 31 16 != 0
      || !daddrOk w 6 || !daddrOk w 8 || (dMapEn w && !daddrOk w 12) || (dCmapEn w && !daddrOk w 16)
      || (dWeightEn w && !daddrOk w 20) || !daddrOk w 24 || !daddrOk w 26
      || (!m && (dfld w 15 2 0 != 0 || w.getD 19 0 != 0))
      || (m && (dMapEn w || dCmapEn w || dWeightEn w)), .badDescriptor),
    (dFrames w == 0 || dFrameStride w == 0 || dCropW w == 0 || dCropH w == 0 || dCropX w % 2 == 1 || dCropY w % 2 == 1
      || dCropW w % 2 == 1 || dCropH w % 2 == 1 || dCropW w > 8192 || dCropH w > 8192 || dReorder w > 16
      || dCStride w < dChannels w || dOutRow w < dCropW w * dCStride w * 2 || dOutFrame w < dCropH w * dOutRow w,
      .badDescriptor),
    (daddr w 8 % 256 != 0 || (dWeightEn w && daddr w 20 % 2 != 0) || daddr w 24 % 32 != 0 || daddr w 26 % 4096 != 0,
      .badDescriptor) ]

/-- The rows of the table of R283 below the ring's. -/
def decChecks2 (w : List Nat) : List (Bool × Status) :=
  let m := dFrames w * dTokens w
  [ (dfld w 0 19 16 != 1 && dfld w 0 19 16 != 2, .badFormat),
    ((dFrames w - 1) * dOutFrame w + dCropH w * dOutRow w > w.getD 29 0 * 1024, .lengthRange),
    (w.getD 28 0 < dStoreMib w, .lengthRange),
    ((dMapEn w && !oneScratch (daddr w 12) (ceilDiv (dfld w 14 2 0 + m) 8))
      || (dCmapEn w && !oneScratch (daddr w 16) (ceilDiv (dfld w 18 1 0 + m) 4))
      || (dWeightEn w && !oneScratch (daddr w 20) (2 * m)) || !oneScratch (daddr w 26) (dStoreMib w * 2 ^ 20),
      .lengthRange) ]

/-- The first rows for an encode descriptor (R301). -/
def encChecks1 (w : List Nat) : List (Bool × Status) :=
  let wd := eWidth w
  let ht := eHeight w
  [ (eClass w == 3 || eInput w == 3 || eRc w == 3 || eQp w > 51 || dfld w 0 31 26 != 0 || dfld w 6 31 24 != 0
      || !daddrOk w 8 || !daddrOk w 12 || (eRoi w && !daddrOk w 14) || (eInput w == 2 && !daddrOk w 16) || !daddrOk w 19
      || (List.range 10).any (fun i => w.getD (22 + i) 0 != 0), .badDescriptor),
    (dfld w 1 31 16 == 0 || eRateNum w == 0 || eRateDen w == 0 || eBitrate w == 0 || eBitrate w > 160000
      || dfld w 5 15 0 == 0 || dfld w 5 15 0 > 10000 || (eInput w == 2 && eCStride w < 3), .badDescriptor),
    (wd < 64 || wd > 4096 || wd % 8 != 0 || ht < 64 || ht > 2304 || ht % 8 != 0 || wd * ht > 8912896, .badDescriptor),
    ((eLevel w).isNone, .badDescriptor),
    ((eClass w == 2 && (eRefresh w < 8 || eRefresh w > 128)) || (eClass w == 1 && eSliceRows w == 0), .badDescriptor),
    (daddr w 8 % 256 != 0 || (eRoi w && daddr w 14 % 256 != 0) || (eInput w == 2 && daddr w 16 % 32 != 0)
      || daddr w 19 % 4096 != 0, .badDescriptor) ]

/-- The rows below the ring's for an encode descriptor (R301). -/
def encChecks2 (w : List Nat) : List (Bool × Status) :=
  [ ((dfld w 1 31 16 - 1) * eInFrame w + eExtent w > w.getD 18 0 * 1024, .lengthRange),
    (w.getD 21 0 < eStoreMib w, .lengthRange),
    (!oneScratch (daddr w 19) (eStoreMib w * 2 ^ 20), .lengthRange) ]

/-- Every check of a codec descriptor, in order (R283, R301). -/
def State.cdcChecks (s : State) (k : QKind) (m : Bool) (w : List Nat) : Except Stop Unit := do
  let a := daddr w (if k == .decode then 6 else 12)
  checks (if k == .decode then decChecks1 m w else encChecks1 w)
  checks [(!(a % 64 == 0 && oneWindow a 64), .badDescriptor)]
  s.reads codecIsland 7 [(a, 64)]
  checks [(!s.ringSound a, .badDescriptor)]
  checks (if k == .decode then decChecks2 w else encChecks2 w)

/-! ### Issue (R276) -/

/-- A job for descriptor `w` of context `c`, with the active settings `l` of its issue (R41). -/
def newCdcJob (k : QKind) (c : Nat) (w : List Nat) (index : Nat) (l : Sampled) : CdcJob :=
  { (default : CdcJob) with
    eng := cdcEngine k w, c := c, words := w, index := index, sampled := l, enc := { (default : EncFlags) with qpMin := 51 } }

/-- A job enters the complex. -/
def State.addCdcJob (s : State) (j : CdcJob) : State :=
  { s with cdc := { s.cdc with jobs := tput s.cdc.jobs s.cdc.nextJob j, nextJob := s.cdc.nextJob + 1 } }

/-- Maintenance mode is on (CDC_MODE). -/
def State.maint (s : State) : Bool := s.bit .cdcMode 0 0 cdcMode_maint

/-- The descriptor at the head of a codec queue of context `c` is checked and issued (R276, R283, R301). -/
def State.cdcIssueCtx (s : State) (k : QKind) (c : Nat) : State :=
  let a := s.descAddr k 0 c
  let w := s.descWords k 0 c
  let index := s.qHead k 0 c
  let e := cdcEngine k w
  if s.maint || !s.qCanIssue k 0 c || (cdcWaitPrev k w && !s.qIdle k 0 c) then s
  else if !descRegionOk k 0 a then s.unitFault c 0 7 causeAddress a 0 index
  else if s.trafficHeld codecIsland [(a, 128)] then s
  else
    match s.knownBad a 128 with
    | some b => s.unitUe c 0 7 b 0 index
    | none =>
      match s.cdcChecks k false w with
      | .error .wait => s
      | .error (.fault u b) => s.unitFault c 0 u causeAddress b (cdcTag w) index
      | .error (.ue u b) => s.unitUe c 0 u b (cdcTag w) index
      | .error (.reject st) =>
        s.qReject k e c (cdcEos k w) (cdcIrq k w) [cdcTag w + st.code * 2 ^ 16, 0, 0, 0, 0, 0, 0, index * 2 ^ 16]
      | .ok _ => (s.qIssued k e c s.cdc.nextJob (cdcEos k w && s.member c)).addCdcJob (newCdcJob k c w index (s.sample c))

/-- In maintenance mode Lumdom hands a descriptor to the complex; one that fails a check does nothing (R307, R308; log entry
44). -/
def State.cdcIssueLumdom (s : State) (k : QKind) (w : List Nat) : State :=
  if !s.maint then s
  else
    match s.cdcChecks k true w with
    | .error _ => s
    | .ok _ => s.addCdcJob (newCdcJob k 16 w 0 default)

/-- DECODE_JOB_ISSUE and ENCODE_JOB_ISSUE. -/
def State.cdcIssue (s : State) (k : QKind) (x : CdcSrc) : State :=
  match x with
  | .queue c => s.cdcIssueCtx k c.val
  | .lumdom w => s.cdcIssueLumdom k (w.map (·.toNat))

/-! ### Grants (R276, R285, R465, R467) -/

/-- The job an engine runs. -/
def State.cdcRunning (s : State) (e : Nat) : Option Nat :=
  (s.cdc.jobs.find? fun x => x.2.eng == e && x.2.granted).map (·.1)

/-- The job that is granted engine `e` next: a request that has waited 4,096 cycles (`aged` names the oldest), a job of
Lumdom, then by priority and round-robin, in issue order within a context (R276, R465, R467). -/
def State.cdcPick (s : State) (e : Nat) (aged : Option Nat) : Option Nat :=
  let ready := (s.cdc.jobs.filter fun x => x.2.eng == e && !x.2.granted).map (·.1)
  match aged.filter ready.contains with
  | some n => some n
  | none =>
    match ready.find? fun n => (s.cdcJob n).c == 16 with
    | some n => some n
    | none =>
      match nextCtx (tget s.cdc.lastCtx e) (ready.map fun n => ((s.cdcJob n).c, (s.cdcJob n).sampled.prio)) with
      | some c => ready.find? fun n => (s.cdcJob n).c == c
      | none => none

/-- The output frame whose picture has index `i`, of a decode descriptor (R284). -/
def wantedFrame (w : List Nat) (i : Nat) : Option Nat :=
  if dFirst w ≤ i && (i - dFirst w) % dFrameStride w == 0 && (i - dFirst w) / dFrameStride w < dFrames w then
    some ((i - dFirst w) / dFrameStride w)
  else none

/-- A decode engine takes up a job: it goes on with the stream state it holds for the job's ring and context where cont asks
for it, and starts afresh otherwise, skipping records up to a random access point (R285). Wanted pictures that a continued
stream's store holds serve the job (log entry 45). -/
def State.decBegin (s : State) (j : CdcJob) : State × CdcJob :=
  let x := s.decStream j.eng
  let cont := cdcCont .decode j.words
  if cont && x.of == some (j.ring, j.c) then
    let held := x.store.reverse.filterMap fun p => (wantedFrame j.words p.index).map fun k => (k, p)
    (s, { j with held := held })
  else
    (s.setDecStream j.eng { (default : DecStream) with of := some (j.ring, j.c), skip := true },
     { j with dec := { j.dec with contLost := cont } })

/-- An encode engine takes up a job: without state to continue, the stream begins with an IDR picture (R300, R304, R310). The
number of a stream's first record is a free value (log entry 3). -/
def State.encBegin (s : State) (j : CdcJob) : State × CdcJob :=
  let x := s.encStream j.eng
  let cont := cdcCont .encode j.words
  if cont && x.of == some (j.ring, j.c) then (s, j)
  else
    let (v, s) := s.free
    (s.setEncStream j.eng { (default : EncStream) with of := some (j.ring, j.c), seq := v % 2 ^ 32, force := cont },
     { j with enc := { j.enc with contLost := cont } })

/-- CODEC_ENGINE_GRANT: an issued job gets its engine once the engine is free (R276, R465). -/
def State.cdcGrant (s : State) (e : Nat) (aged : Option Nat) : State :=
  if (s.cdcRunning e).isSome then s
  else
    match s.cdcPick e aged with
    | none => s
    | some n =>
      let j := { s.cdcJob n with granted := true, tick := s.refclk }
      let (s, j) := if e < 8 then s.decBegin j else s.encBegin j
      let s := if j.c < 16 then { s with cdc := { s.cdc with lastCtx := tput s.cdc.lastCtx e j.c } } else s
      s.setCdcJob n j

/-! ### Faults and completion (R309, R311) -/

/-- A codec access of job `n` meets an address fault: the job is given up without a record (R311). -/
def State.cdcFault (s : State) (n addr : Nat) : State :=
  let j := s.cdcJob n
  let s := s.cdcDrop n
  if j.c < 16 then s.unitFault j.c 0 7 causeAddress addr j.tag j.index else s

/-- A codec access of job `n` meets an uncorrectable error (R319). -/
def State.cdcUe (s : State) (n addr : Nat) : State :=
  let j := s.cdcJob n
  let s := s.cdcDrop n
  if j.c < 16 then s.unitUe j.c 0 7 addr j.tag j.index else s.recordUe (decodeTower codecIsland) addr

/-- A store of a codec job is allowed, under the settings its issue sampled (R41, R462). -/
def CdcJob.writeOk (j : CdcJob) (s : State) (a n : Nat) : Bool :=
  if j.c < 16 then s.ctxWriteOk j.sampled j.c a n else unitWriteOk a n && (n == 0 || !s.mirrorHit a n)

/-- The accesses of job `n` are made: a byte range it may not read or write is an address fault, an uncorrectable error in
what it reads faults too, accesses that are held leave everything as it was (R311, R319, R345, R52, R20, R322); otherwise `act`
follows. The writes are those of `ws`, the reads `rs`. -/
def State.cdcAccess (s : State) (n : Nat) (rs ws : List (Nat × Nat)) (ecc : Ecc) (act : State → State) : State :=
  let j := s.cdcJob n
  match rs.find? fun x => !unitReadOk x.1 x.2 with
  | some x => s.cdcFault n x.1
  | none =>
    match ws.find? fun x => !j.writeOk s x.1 x.2 with
    | some x => s.cdcFault n x.1
    | none =>
      if s.trafficHeld codecIsland rs || s.storesHeld codecIsland ws then s
      else
        match s.spansError rs ecc with
        | some a => s.cdcUe n a
        | none => act (s.countSpans (decodeTower codecIsland) rs ecc)

/-- Job `n` completes with its record; a job of Lumdom has none (R276, R309). -/
def State.cdcComplete (s : State) (n : Nat) (words : List Nat) (seen : Bool) : State :=
  let j := s.cdcJob n
  let s := { s with cdc := { s.cdc with jobs := sparseDrop s.cdc.jobs n } }
  if j.c < 16 then
    let s := s.qCompleted j.kind j.eng j.c n { words := words, after := none }
    let s := if seen then s.flag (qRegs j.kind).err 0 j.c cdcDqErr_dataSeen else s
    s.raiseDone j.kind j.eng j.c (cdcIrq j.kind j.words)
  else s

/-! ### Maintenance mode (R307) -/

/-- Every codec queue of a context that exists is empty, and the complex has no job. -/
def State.cdcQuiet (s : State) : Bool :=
  s.cdc.jobs.isEmpty && (List.range 16).all fun c =>
    s.ctxState c == 0 || ([QKind.decode, .encode].all fun k => !s.qHasWork k 0 c && !s.qOutstanding k 0 c)

/-- MAINT_MODE_CHANGE: the mode asked for takes effect once every codec queue is empty (R307). -/
def State.maintChange (s : State) : State :=
  if s.bit .cdcMode 0 0 cdcMode_maintPending && s.cdcQuiet then
    (s.setFld .cdcMode 0 0 cdcMode_maint (1 - s.fld .cdcMode 0 0 cdcMode_maint)).setFld .cdcMode 0 0 cdcMode_maintPending 0
  else s

/-! ### The commands -/

/-- DECODE_JOB_ISSUE (R283). -/
def execDecodeJobIssue (x : CdcSrc) (s : State) : Host.Outcome State Fault Refusal := .next (s.cdcIssue .decode x)
/-- ENCODE_JOB_ISSUE (R301). -/
def execEncodeJobIssue (x : CdcSrc) (s : State) : Host.Outcome State Fault Refusal := .next (s.cdcIssue .encode x)
/-- CODEC_ENGINE_GRANT (R276). -/
def execCodecEngineGrant (e : CdcEng) (aged : Option Nat) (s : State) : Host.Outcome State Fault Refusal :=
  .next (s.cdcGrant e.num aged)
/-- MAINT_MODE_CHANGE (R307). -/
def execMaintModeChange (s : State) : Host.Outcome State Fault Refusal := .next s.maintChange

end Sys2Proof.Machine
end

