-- ==== Sys2Proof/Machine/Sleeve.lean ====
section
/-! DEFINITION. The sleeve engine: issue, passes, hand-off and completion (06). -/

namespace Sys2Proof.Machine

/-! ### The descriptor (R153, R160) -/

def SlvJob.op (j : SlvJob) : Nat := dfld j.words 0 3 0
def SlvJob.head (j : SlvJob) : Bool := dfld j.words 0 4 4 == 1
def SlvJob.fmtIn (j : SlvJob) : Fmt := (Fmt.ofCode (dfld j.words 0 8 5)).getD .bf16
def SlvJob.fmtW (j : SlvJob) : Fmt := (Fmt.ofCode (dfld j.words 0 12 9)).getD .bf16
def SlvJob.fmtOut (j : SlvJob) : Fmt := (Fmt.ofCode (dfld j.words 0 16 13)).getD .fp32
def SlvJob.inMantle (j : SlvJob) : Nat := dfld j.words 0 18 17
def SlvJob.outMantle (j : SlvJob) : Nat := dfld j.words 0 20 19
def SlvJob.tag (j : SlvJob) : Nat := dfld j.words 1 15 0
def SlvJob.cStride (j : SlvJob) : Nat := dfld j.words 22 15 0
def SlvJob.cStrideOut (j : SlvJob) : Nat := dfld j.words 22 31 16
def SlvJob.tailEn (j : SlvJob) : Bool := dfld j.words 27 16 16 == 1

/-- Geometry laid out as loop-descriptor words 18 to 23 (R160). -/
def slvLoop (w : List Nat) : List Nat := List.replicate 18 0 ++ (w.drop 16).take 6

/-- Input channels, output channels, output positions and window taps. -/
def slvCin (w : List Nat) : Nat := dfld (slvLoop w) 21 31 16
def slvCout (w : List Nat) : Nat := if dfld w 0 3 0 == 0 then dfld w 1 31 16 else slvCin w
def slvPositions (w : List Nat) : Nat :=
  let l := slvLoop w
  dfld l 19 31 16 * dfld l 21 15 0 * dfld l 20 31 16 * dfld l 20 15 0
def slvTaps (w : List Nat) : Nat :=
  let l := slvLoop w
  dfld l 22 10 8 * dfld l 22 7 4 * dfld l 22 3 0
/-- K of a convolution (R136). -/
def slvK (w : List Nat) : Nat := slvTaps w * slvCin w

/-- Positions of one pass (R150); a pooling or upsampling pass takes whole positions (log entry 39). -/
def slvPerPass (w : List Nat) : Nat :=
  if dfld w 0 3 0 == 0 && dfld w 0 4 4 == 1 then 1024 else 1024 / max 1 (slvCout w)

/-- Passes of a job. -/
def slvPasses (w : List Nat) : Nat := (slvPositions w + slvPerPass w - 1) / slvPerPass w

/-- cclk cycles of one pass (R150, R152). -/
def slvPassCycles (w : List Nat) : Nat :=
  match dfld w 0 3 0 with
  | 0 => if dfld w 0 4 4 == 1 then slvK w else (slvK w + 15) / 16
  | 1 => slvTaps w
  | 2 => slvTaps w
  | 3 => 1
  | _ => 4

/-! ### Checks at issue (R161) -/

/-- Reserved fields of a sleeve descriptor and of the address fields it uses are 0 (R91, R160). -/
def slvReservedOk (w : List Nat) : Bool :=
  let conv := dfld w 0 3 0 == 0
  let window := dfld w 0 3 0 ≤ 2
  let l := slvLoop w
  daddrOk w 2 && daddrOk w 6 && (!conv || daddrOk w 4) && (!(conv && dfld w 0 21 21 == 1) || daddrOk w 8)
  && (dfld w 0 8 5 < 3 || daddrOk w 10) && (!conv || dfld w 0 12 9 < 3 || daddrOk w 12)
  && (dfld w 0 16 13 < 3 || daddrOk w 14) && dfld w 23 31 8 == 0 && dfld w 27 31 17 == 0
  && (List.range 4).all (fun i => w.getD (28 + i) 0 == 0)
  && (!window || (dfld l 22 11 11 == 0 && dfld l 23 31 28 == 0))

/-- A used geometry field is 0 or beyond its limit (R161). -/
def slvGeometryBad (w : List Nat) : Bool :=
  let l := slvLoop w
  let z (i hi lo : Nat) : Bool := dfld l i hi lo == 0
  let window := dfld w 0 3 0 ≤ 2
  z 18 15 0 || z 18 31 16 || z 19 15 0 || z 19 31 16 || z 20 15 0 || z 20 31 16 || z 21 15 0
  || (window && (z 22 3 0 || z 22 7 4 || z 22 10 8 || z 22 15 12 || z 22 19 16 || z 22 23 20 || z 22 27 24
      || z 22 31 28 || z 23 3 0 || dfld l 22 3 0 > 11 || dfld l 22 7 4 > 11))
  || (!window && (dfld w 23 3 0 == 0 || dfld w 23 7 4 == 0 || dfld w 23 3 0 > 8 || dfld w 23 7 4 > 8))
  || dfld w 22 15 0 < slvCin w || dfld w 22 31 16 < slvCout w

/-- Scale records a sleeve descriptor names, with the format code each must hold (R162). -/
def slvRecords (w : List Nat) : List (Nat × Nat) :=
  let one (code i : Nat) (used : Bool) : List (Nat × Nat) :=
    if used && ((Fmt.ofCode code).any (·.delayed)) then [(daddr w i, code)] else []
  one (dfld w 0 8 5) 10 true ++ one (dfld w 0 12 9) 12 (dfld w 0 3 0 == 0) ++ one (dfld w 0 16 13) 14 true

/-- Bytes behind an operand of `n` elements, or of `n` elements in mantle blocks (R135, R161). -/
def slvExtent (f : Fmt) (mantle n : Nat) : Nat := if mantle != 0 then n / 128 * mantleBytes mantle else n * f.bits / 8

/-- The checks of R161 down to the used addresses. -/
def slvChecks1 (w : List Nat) : List (Bool × Status) :=
  let op := dfld w 0 3 0
  let l := slvLoop w
  let cin := slvCin w
  let cinMax := if op == 0 then (if dfld w 0 4 4 == 1 then 4096 else 16) else 1024
  let coutMax := if dfld w 0 4 4 == 1 then 16 else 1024
  [ (op > 4 || !slvReservedOk w, .badDescriptor),
    (cin == 0 || cin > cinMax || (op == 0 && (slvCout w == 0 || slvCout w > coutMax)), .badDescriptor),
    (slvGeometryBad w, .badDescriptor),
    (op ≥ 3 && (dfld l 20 15 0 != dfld l 18 15 0 * dfld w 23 3 0 || dfld l 20 31 16 != dfld l 18 31 16 * dfld w 23 7 4
      || dfld l 21 15 0 != dfld l 19 15 0), .badDescriptor),
    (daddr w 2 % 256 != 0 || (op == 0 && daddr w 4 % 256 != 0) || daddr w 6 % 256 != 0
      || (op == 0 && dfld w 0 21 21 == 1 && daddr w 8 % 16 != 0) || ((slvRecords w).any fun r => r.1 % 16 != 0),
      .badDescriptor) ]

/-- The formats a sleeve descriptor may name. -/
def slvFormatBad (w : List Nat) : Bool :=
  let fi := dfld w 0 8 5
  let fw := dfld w 0 12 9
  fi == 0 || fi > 4 || (dfld w 0 3 0 == 0 && (fw == 0 || fw > 3)) || dfld w 0 16 13 > 4

/-- The rest of the checks of R161. -/
def State.slvChecks2 (s : State) (t c : Nat) (w : List Nat) : List (Bool × Status) :=
  let l := slvLoop w
  let fi := (Fmt.ofCode (dfld w 0 8 5)).getD .bf16
  let fw := (Fmt.ofCode (dfld w 0 12 9)).getD .bf16
  let fo := (Fmt.ofCode (dfld w 0 16 13)).getD .fp32
  let im := dfld w 0 18 17
  let om := dfld w 0 20 19
  let inPos := dfld l 19 31 16 * dfld l 19 15 0 * dfld l 18 31 16 * dfld l 18 15 0
  [ ((slvRecords w).any fun r => s.recordFmt r.1 != r.2, .badFormat),
    ((im != 0 && (!half16 fi || dfld w 22 15 0 % 128 != 0)) || (om != 0 && (!half16 fo || dfld w 22 31 16 % 128 != 0)),
      .badFormat),
    (dfld w 27 16 16 == 1 && dfld w 27 15 0 ≥ s.qSize .matrix t c, .badDescriptor),
    (slvExtent fi im (inPos * dfld w 22 15 0) > w.getD 24 0 * 1024
      || (dfld w 0 3 0 == 0 && slvExtent fw 0 (slvCout w * slvK w) > w.getD 25 0 * 1024)
      || slvExtent fo om (slvPositions w * dfld w 22 31 16) > w.getD 26 0 * 1024, .lengthRange) ]

/-- The byte ranges of the records' last_exp that the issue stores to (R68). -/
def slvExpSpans (w : List Nat) : List (Nat × Nat) := (slvRecords w).map fun r => (r.1 + 5, 1)

/-- The checks of R161 in order; a scale record outside a drum SRAM window faults (R565), as does one whose last_exp the context
may not store to (R25, R347, R462). -/
def State.slvIssueChecks (s : State) (t c : Nat) (w : List Nat) : Except Stop Unit := do
  checks (slvChecks1 w)
  checks [(slvFormatBad w, .badFormat)]
  match (slvRecords w).find? fun r => !recordOk r.1 with
  | some r => .error (.fault 3 r.1)
  | none => do
    s.reads (cupolaIsland t) 3 ((slvRecords w).map fun r => (r.1, 144))
    checks (s.slvChecks2 t c w)
    s.writesOk (cupolaIsland t) 3 c (slvExpSpans w)

/-- The exponent of a delayed-scaled operand at issue (R162). -/
def State.slvExp (s : State) (code a : Nat) : Int :=
  match Fmt.ofCode code with
  | some f => if f.delayed then s.scaleExp a f s.stepNo else 0
  | none => 0

def State.slvJob (s : State) (n : Nat) : SlvJob := tget s.slv.jobs n
def State.setSlvJob (s : State) (n : Nat) (j : SlvJob) : State :=
  { s with slv := { s.slv with jobs := tput s.slv.jobs n j } }

/-- The job that the engine of tower `t` takes when it has none: a request that has waited 4,096 cycles (`aged` names the oldest),
then by the priority each job sampled and round-robin, in issue order within a context (R41, R465, R467). -/
def State.slvNext (s : State) (t : Nat) (aged : Option Nat) : Option Nat :=
  let ready := (s.slv.jobs.filter fun x => x.2.t == t && !x.2.tailDue).map (·.1)
  match aged.filter ready.contains with
  | some n => some n
  | none =>
    match nextCtx (tget s.slv.lastCtx t) (ready.map fun n => ((s.slvJob n).c, (s.slvJob n).sampled.prio)) with
    | some c => ready.find? fun n => (s.slvJob n).c == c
    | none => none

/-- The engine of tower `t` is granted where it has no job: at the completion of its job, or at an issue to an idle engine; a
job is never pre-empted (R465). -/
def State.slvGrant (s : State) (t : Nat) (aged : Option Nat) : State :=
  match tget s.slv.cur t, s.slvNext t aged with
  | none, some n =>
    { s with slv := { s.slv with cur := tput s.slv.cur t (some n), lastCtx := tput s.slv.lastCtx t (s.slvJob n).c } }
  | _, _ => s

/-- SLEEVE_ISSUE: the descriptor at the head of the sleeve queue is checked and issued (R159, R161). -/
def State.sleeveIssue (s : State) (t c : Nat) : State :=
  let a := s.descAddr .sleeve t c
  let w := s.descWords .sleeve t c
  let index := s.qHead .sleeve t c
  let tag := dfld w 1 15 0
  if !s.qCanIssue .sleeve t c || (dfld w 0 26 26 == 1 && !s.qIdle .sleeve t c) then s
  else if !descRegionOk .sleeve t a then s.unitFault c t 3 causeAddress a 0 index
  else if s.trafficHeld (cupolaIsland t) [(a, 128)] then s
  else
    match s.knownBad a 128 with
    | some b => s.unitUe c t 3 b 0 index
    | none =>
      match s.slvIssueChecks t c w with
      | .error (.fault u b) => s.unitFault c t u causeAddress b tag index
      | .error (.ue u b) => s.unitUe c t u b tag index
      | .error .wait => s
      | .error (.reject st) =>
        s.qReject .sleeve t c (dfld w 0 24 24 == 1) (dfld w 0 25 25 == 1)
          [tag + st.code * 2 ^ 16, 0, 0, 0, 0, index, 0, 0]
      | .ok _ =>
        let j : SlvJob :=
          { t := t, c := c, words := w, index := index, ein := s.slvExp (dfld w 0 8 5) (daddr w 10),
            ew := if dfld w 0 3 0 == 0 then s.slvExp (dfld w 0 12 9) (daddr w 12) else 0,
            eout := s.slvExp (dfld w 0 16 13) (daddr w 14), step := s.stepNo, sampled := s.sample c, pass := 0, saturated := false,
            nonfinite := false, busy := 0, tailDue := false }
        let s := s.each (slvRecords w) fun s r =>
          s.setLastExp r.1 (if r.1 == daddr w 14 && (j.fmtOut).delayed then j.eout
            else if r.1 == daddr w 10 && (j.fmtIn).delayed then j.ein else j.ew)
        let n := s.slv.nextJob
        let s := s.qIssued .sleeve t c n (dfld w 0 24 24 == 1 && s.member c)
        ({ s with slv := { s.slv with jobs := tput s.slv.jobs n j, nextJob := n + 1 } }).slvGrant t none

/-! ### Values (R151, R154 to R158) -/

/-- Input element of channel `c` at input position `pos`. -/
def State.slvIn (s : State) (j : SlvJob) (pos c : Nat) : FVal :=
  let i := pos * j.cStride + c
  let base := daddr j.words 2
  let v := if j.inMantle != 0 then j.fmtIn.decode (s.mantleRead base j.inMantle j.fmtIn i)
    else j.fmtIn.decode (s.elemCode base j.fmtIn.bits i)
  v.scale (-j.ein)

/-- Weight (n, k). -/
def State.slvWeight (s : State) (j : SlvJob) (n k : Nat) : FVal :=
  (j.fmtW.decode (s.elemCode (daddr j.words 4) j.fmtW.bits (n * slvK j.words + k))).scale (-j.ew)

/-- A value rounded to FP32, to nearest. -/
def toF32 (v : FVal) : FVal := ffFp32.decode (ffFp32.encode .nearest v).code

/-- Convolution output (m, n): exact sums of 16 (stem) or 1 (head) products folded in ascending K, then bias and ReLU
(R150, R151, R158). -/
def State.slvConv (s : State) (j : SlvJob) (m n : Nat) : FVal :=
  let k := slvK j.words
  let l := slvLoop j.words
  let width := if j.head then 1 else 16
  let term (i : Nat) : FVal :=
    if i < k then
      match convPos l m i with
      | some (pos, c) => (s.slvIn j pos c).mul (s.slvWeight j n i)
      | none => .zero
    else .zero
  let acc := (List.range ((k + width - 1) / width)).foldl (fun a g =>
    toF32 (a.add ((List.range width).foldl (fun x i => x.add (term (g * width + i))) .zero))) FVal.zero
  let acc := if dfld j.words 0 21 21 == 1 then toF32 (acc.add (ffFp32.decode (s.word (daddr j.words 8 + 4 * n)))) else acc
  if dfld j.words 0 22 22 == 1 && acc.isNeg then .zero else acc

/-- In-bounds taps of a pooling window at position `m`, channel `c`, in window order. -/
def State.slvWindow (s : State) (j : SlvJob) (m c : Nat) : List (Option FVal) :=
  (List.range (slvTaps j.words)).map fun i =>
    (convPos (slvLoop j.words) m (i * slvCin j.words + c)).map fun p => s.slvIn j p.1 c

/-- Max pooling (R154, R156). -/
def State.slvMax (s : State) (j : SlvJob) (m c : Nat) : FVal :=
  match (s.slvWindow j m c).filterMap id with
  | [] => .zero
  | v :: rest => rest.foldl FVal.maximum v

/-- Average pooling (R154, R155). -/
def State.slvAvg (s : State) (j : SlvJob) (m c : Nat) : FVal :=
  let taps := s.slvWindow j m c
  let n := (taps.filterMap id).length
  if n == 0 then .zero
  else
    let sum := taps.foldl (fun a v => toF32 (a.add (v.getD .zero))) FVal.zero
    let d := if dfld j.words 0 23 23 == 1 then slvTaps j.words else n
    ffFp32.decode (fpDiv ffFp32 sum (toF32 (FVal.ofInt d))).code

/-- Twice the source coordinate u of R157 times the factor, an exact integer: u = num / (2 up). -/
def upNum (x up : Nat) : Int := 2 * (x : Int) + 1 - up

/-- An index clamped to 0 to n − 1. -/
def clampIdx (n : Nat) (i : Int) : Nat := if i < 0 then 0 else if i ≥ n then n - 1 else i.toNat

/-- The position in the output decomposed: column, row, and the frame index with the batch. -/
def slvOutPos (l : List Nat) (m : Nat) : Nat × Nat × Nat :=
  (m % dfld l 20 15 0, m / dfld l 20 15 0 % dfld l 20 31 16, m / dfld l 20 15 0 / dfld l 20 31 16)

/-- Input element at column, row and frame. -/
def State.slvAt (s : State) (j : SlvJob) (x y f c : Nat) : FVal :=
  let l := slvLoop j.words
  s.slvIn j ((f * dfld l 18 31 16 + y) * dfld l 18 15 0 + x) c

/-- Nearest upsampling: the input at floor(u + 1/2), clamped (R157). -/
def State.slvNearest (s : State) (j : SlvJob) (m c : Nat) : FVal :=
  let l := slvLoop j.words
  let (xo, yo, f) := slvOutPos l m
  let ux := dfld j.words 23 3 0
  let uy := dfld j.words 23 7 4
  let at_ (o up n : Nat) : Nat := clampIdx n ((upNum o up + up) / (2 * (up : Int)))
  s.slvAt j (at_ xo ux (dfld l 18 15 0)) (at_ yo uy (dfld l 18 31 16)) f c

/-- i0 and the FP32 weight of R157 on one axis. -/
def upFrac (o up : Nat) : Int × FVal :=
  let n := upNum o up
  let d : Int := 2 * (up : Int)
  (n / d, ffFp32.decode (fpDiv ffFp32 (FVal.ofInt (n % d)) (FVal.ofInt d)).code)

/-- Bilinear upsampling, each operation in FP32 in the order given (R157). -/
def State.slvBilinear (s : State) (j : SlvJob) (m c : Nat) : FVal :=
  let l := slvLoop j.words
  let (xo, yo, f) := slvOutPos l m
  let (x0, wx) := upFrac xo (dfld j.words 23 3 0)
  let (y0, wy) := upFrac yo (dfld j.words 23 7 4)
  let nx := dfld l 18 15 0
  let ny := dfld l 18 31 16
  let p (dy dx : Int) : FVal := s.slvAt j (clampIdx nx (x0 + dx)) (clampIdx ny (y0 + dy)) f c
  let one : FVal := .fin false 1 0
  let mul (a b : FVal) : FVal := toF32 (a.mul b)
  let add (a b : FVal) : FVal := toF32 (a.add b)
  let ix := add one wx.neg
  let iy := add one wy.neg
  add (mul iy (add (mul ix (p 0 0)) (mul wx (p 0 1)))) (mul wy (add (mul ix (p 1 0)) (mul wx (p 1 1))))

/-- The output value at position `m`, channel `n`, before conversion. -/
def State.slvValue (s : State) (j : SlvJob) (m n : Nat) : FVal :=
  match j.op with
  | 0 => s.slvConv j m n
  | 1 => s.slvMax j m n
  | 2 => s.slvAvg j m n
  | 3 => s.slvNearest j m n
  | _ => s.slvBilinear j m n

/-! ### Passes (R150, R163, R167, R465) -/

/-- Output positions of pass `p` that lie in the output (R158). -/
def slvRows (w : List Nat) (p : Nat) : List Nat :=
  (List.range (slvPerPass w)).filterMap fun i =>
    let m := p * slvPerPass w + i
    if m < slvPositions w then some m else none

/-- Input positions that output position `m` touches. -/
def slvTouched (w : List Nat) (m : Nat) : List Nat :=
  let l := slvLoop w
  if dfld w 0 3 0 ≤ 2 then
    (List.range (slvTaps w)).filterMap fun i => (convPos l m (i * slvCin w)).map (·.1)
  else
    let (xo, yo, f) := slvOutPos l m
    let nx := dfld l 18 15 0
    let ny := dfld l 18 31 16
    let ux := dfld w 23 3 0
    let uy := dfld w 23 7 4
    let xs := if dfld w 0 3 0 == 3 then [clampIdx nx ((upNum xo ux + ux) / (2 * (ux : Int)))]
      else [clampIdx nx (upNum xo ux / (2 * (ux : Int))), clampIdx nx (upNum xo ux / (2 * (ux : Int)) + 1)]
    let ys := if dfld w 0 3 0 == 3 then [clampIdx ny ((upNum yo uy + uy) / (2 * (uy : Int)))]
      else [clampIdx ny (upNum yo uy / (2 * (uy : Int))), clampIdx ny (upNum yo uy / (2 * (uy : Int)) + 1)]
    ys.flatMap fun y => xs.map fun x => (f * ny + y) * nx + x

/-- The byte range of `n` elements of a tensor from element `i`, plain or in mantle blocks. -/
def slvSpan (base : Nat) (f : Fmt) (mantle i n : Nat) : Nat × Nat :=
  if mantle != 0 then (base + i / 128 * mantleBytes mantle, (n + 127) / 128 * mantleBytes mantle)
  else (base + i * f.bits / 8, n * f.bits / 8)

/-- Byte ranges of the input positions that a pass reads. -/
def SlvJob.inSpans (j : SlvJob) : List (Nat × Nat) :=
  let pos := ((slvRows j.words j.pass).flatMap (slvTouched j.words)).eraseDups
  pos.map fun p => slvSpan (daddr j.words 2) j.fmtIn j.inMantle (p * j.cStride) (slvCin j.words)

/-- Byte ranges a pass reads: input positions, and for a convolution its weights and bias. -/
def SlvJob.readSpans (j : SlvJob) : List (Nat × Nat) :=
  let w := j.words
  j.inSpans
  ++ (if j.op == 0 then [(daddr w 4, slvCout w * slvK w * j.fmtW.bits / 8)] else [])
  ++ (if j.op == 0 && dfld w 0 21 21 == 1 then [(daddr w 8, 4 * slvCout w)] else [])

/-- The byte range of output position `m`: its channels, or under the compressor every block up to c_stride_out (R163). -/
def SlvJob.outSpan (j : SlvJob) (m : Nat) : Nat × Nat :=
  slvSpan (daddr j.words 6) j.fmtOut j.outMantle (m * j.cStrideOut)
    (if j.outMantle != 0 then j.cStrideOut else slvCout j.words)

/-- The byte ranges that the pass's outputs store to: the positions, and the output's scale record (R67, R163). -/
def SlvJob.writeSpans (j : SlvJob) : List (Nat × Nat) :=
  (slvRows j.words j.pass).map j.outSpan ++ (if j.fmtOut.delayed && j.outMantle == 0 then offerSpans (daddr j.words 14) j.step else [])

/-- One output position is converted and stored (R158, R162, R163); answers saturation, and whether a NaN or an infinity was
written (R166). -/
def State.slvStore (s : State) (j : SlvJob) (m : Nat) (vs : List FVal) : State × Bool × Bool :=
  let f := j.fmtOut
  let (a, _) := j.outSpan m
  if j.outMantle != 0 then
    let all := vs ++ List.replicate (j.cStrideOut - vs.length) FVal.zero
    let bb := mantleBytes j.outMantle
    let codes (l : List FVal) : List Nat := l.map fun v => (f.encode v).code
    ((runsOf 128 all).zipIdx.foldl (fun s r => s.mantleWrite j.t (a + r.2 * bb) j.outMantle f (codes r.1)) s, false,
      codesNonfinite f (codes all))
  else
    let cs := vs.map fun v => f.encode (if f.delayed then v.scale j.eout else v)
    let s := s.store a (packCodes f.bits (cs.map (·.code)))
    let sat := cs.any (·.sat)
    (if f.delayed then s.offerAll (daddr j.words 14) j.step vs sat else s, sat, codesNonfinite f (cs.map (·.code)))

/-- The completion record of a sleeve descriptor (R166); port_stall_cycles is a free value, since no rule gives a time to a
stream port's waits (log entry 3). -/
def SlvJob.record (j : SlvJob) (written ignored : Bool) (stall : Nat) : List Nat :=
  [j.tag + Status.ok.code * 2 ^ 16,
   j.saturated.toNat + 2 * j.nonfinite.toNat + 4 * written.toNat + 8 * ignored.toNat, j.pass, j.busy, stall % 2 ^ 32,
   j.index, 0, 0]

/-- An issued sleeve job completes with its record (R166). -/
def State.slvComplete (s : State) (n : Nat) (written ignored : Bool) : State :=
  let j := s.slvJob n
  let (v, s) := s.free
  let s := s.qCompleted .sleeve j.t j.c n { words := j.record written ignored v, after := none }
  let s := s.raiseDone .sleeve j.t j.c (dfld j.words 0 25 25 == 1)
  { s with slv := { s.slv with jobs := sparseDrop s.slv.jobs n } }

/-- The outputs of a pass are written. -/
def State.slvPassOutputs (s : State) (n : Nat) : State :=
  let j := s.slvJob n
  s.each (slvRows j.words j.pass) fun s m =>
    let vs := (List.range (slvCout j.words)).map (s.slvValue j m)
    let (s, sat, nonfin) := s.slvStore j m vs
    let k := s.slvJob n
    s.setSlvJob n { k with saturated := k.saturated || sat, nonfinite := k.nonfinite || nonfin || vs.any FVal.nonfinite }

/-- The first byte range of the next pass that the job may not read or store to (R25 to R27, R167, R328, R347, R462). -/
def State.slvBad (s : State) (j : SlvJob) : Option (Nat × Nat) :=
  ((j.readSpans.find? fun x => !unitReadOk x.1 x.2).or
    (if j.inMantle == 0 then none else j.inSpans.find? fun x => !mantleSpanOk x.1 x.2)).or
  (j.writeSpans.find? fun x => !s.ctxWriteOk j.sampled j.c x.1 x.2 || (j.outMantle != 0 && !mantleSpanOk x.1 x.2))

/-- The next pass's traffic waits on its way or at its drums (R20, R52, R322, R345). -/
def State.slvHeld (s : State) (j : SlvJob) : Bool :=
  s.trafficHeld (cupolaIsland j.t) j.readSpans || s.storesHeld (cupolaIsland j.t) j.writeSpans

/-- A pass of job `n` has stored its outputs: its cycles are counted, and after its last pass the job completes, or waits for the
hand-off of R164, and the engine takes its next job (R150, R465). -/
def State.slvPassDone (s : State) (t n : Nat) (aged : Option Nat) : State :=
  let k := s.slvJob n
  let cyc := slvPassCycles k.words
  let s := s.count .slvBusy t 0 slvBusy_busy cyc
  let k := { k with pass := k.pass + 1, busy := min (k.busy + cyc) (2 ^ 32 - 1) }
  let s := s.setSlvJob n k
  if k.pass < slvPasses k.words then s
  else
    let s := { s with slv := { s.slv with cur := tput s.slv.cur t none } }
    (if k.tailEn then s.setSlvJob n { k with tailDue := true } else s.slvComplete n false false).slvGrant t aged

/-- SLEEVE_PASS_COMPLETE: a pass of the engine of tower `t` completes and its outputs are written (R150). An address fault or an
uncorrectable error faults the context (R167, R319); while its traffic is held the pass waits. -/
def State.slvPass (s : State) (t : Nat) (aged : Option Nat) (ecc : Ecc) : State :=
  let s := s.slvGrant t aged
  match tget s.slv.cur t with
  | none => s
  | some n =>
    let j := s.slvJob n
    match s.slvBad j with
    | some x => s.unitFault j.c t 3 causeAddress x.1 j.tag j.index
    | none =>
      if s.slvHeld j then s
      else
        match s.spansError j.readSpans ecc with
        | some a => s.unitUe j.c t 3 a j.tag j.index
        | none => ((s.countSpans t j.readSpans ecc).slvPassOutputs n).slvPassDone t n aged

/-- SLEEVE_TAIL_HANDOFF: with its stores performed, a tail_en job writes mtx_tail to MTX_Q_TAIL of its context and tower,
subject to R122, and completes (R164). -/
def State.slvHandoff (s : State) (n : Nat) : State :=
  let j := s.slvJob n
  if (s.slv.jobs.any fun x => x.1 == n) && j.tailDue then
    let v := dfld j.words 27 15 0
    let taken := v < s.qSize .matrix j.t j.c
    let s := s.writeQTail .matrix j.t j.c v
    let s := if taken then s else s.flag .slvQErr j.t j.c slvQErr_tailIgnored
    s.slvComplete n taken (!taken)
  else s

/-! ### The commands -/

/-- SLEEVE_ISSUE (R161). -/
def execSleeveIssue (t : Tower) (c : CtxId) (s : State) : Host.Outcome State Fault Refusal :=
  .next (s.sleeveIssue t.val c.val)
/-- SLEEVE_PASS_COMPLETE (R150). -/
def execSleevePassComplete (t : Tower) (aged : Option Nat) (ecc : Ecc) (s : State) : Host.Outcome State Fault Refusal :=
  .next (s.slvPass t.val aged ecc)
/-- SLEEVE_TAIL_HANDOFF (R164). -/
def execSleeveTailHandoff (job : Nat) (s : State) : Host.Outcome State Fault Refusal := .next (s.slvHandoff job)

end Sys2Proof.Machine
end

