-- ==== Sys2Proof/Machine/CodecDecode.lean ====
section
/-! DEFINITION. Decode engines: records, pictures, the tensor, the maps and the weights (10: R273, R279 to R299, R308, R309). -/

namespace Sys2Proof.Machine

/-! ### Samples to values (R288 to R291, R308) -/

/-- A luma sample. -/
def Pic.luma (p : Pic) (x y : Nat) : Nat := p.y.getD (y * p.w + x) p.fill
def Pic.cw (p : Pic) : Nat := (p.w + 1) / 2
def Pic.ch (p : Pic) : Nat := (p.h + 1) / 2
/-- A chroma sample of plane `l`, its indices clamped to the picture (R290). -/
def Pic.chroma (p : Pic) (l : List Nat) (x y : Nat) : Nat := l.getD (min y (p.ch - 1) * p.cw + min x (p.cw - 1)) p.fill

/-- Twice the chroma value of row `j` at luma column `x` under bilinear upsampling (R290). -/
def Pic.chroma2 (p : Pic) (l : List Nat) (x j : Nat) : Nat :=
  if x % 2 == 0 then 2 * p.chroma l (x / 2) j else p.chroma l (x / 2) j + p.chroma l (x / 2 + 1) j

/-- The chroma value at luma sample (x, y), exactly (R290). -/
def Pic.chromaAt (p : Pic) (up : Bool) (l : List Nat) (x y : Nat) : FVal :=
  if up then
    let j := y / 2
    let k := if y % 2 == 0 then j - 1 else j + 1
    .fin false (3 * p.chroma2 l x j + p.chroma2 l x k) (-3)
  else .fin false (p.chroma l (x / 2) (y / 2)) 0

/-- FP32 operations, rounded to nearest (R289). -/
def f32Add (a b : FVal) : FVal := toF32 (a.add b)
def f32Mul (a b : FVal) : FVal := toF32 (a.mul b)
def f32Div (a b : FVal) : FVal := ffFp32.decode (fpDiv ffFp32 a b).code
def f32One : FVal := .fin false 1 0

/-- A value clamped to 0 to 1 (R289). -/
def clamp01 (v : FVal) : FVal :=
  if v.isNeg then .zero
  else match v.cmp f32One with
    | some .gt => f32One
    | _ => v

/-- Kr and Kb of BT.601, BT.709 or BT.2020, matrix 1 to 3 (R289). -/
def krKb (matrix : Nat) : FVal × FVal :=
  let q (n : Nat) : FVal := f32Div (FVal.ofInt n) (FVal.ofInt 10000)
  if matrix == 1 then (q 2990, q 1140) else if matrix == 3 then (q 2627, q 593) else (q 2126, q 722)

/-- The matrix a picture takes: from the descriptor, else from the stream (R289). -/
def Pic.matrix (p : Pic) (field : Nat) : Nat :=
  if field != 0 then field
  else if p.coeffs == 5 || p.coeffs == 6 then 1 else if p.coeffs == 9 then 3 else 2

/-- Yn and Cn of R289 from exact sample values. -/
def lumaNorm (full : Bool) (bd : Nat) (v : FVal) : FVal :=
  if full then f32Div v (FVal.ofInt (2 ^ bd - 1))
  else f32Div (v.add (FVal.ofInt (16 * 2 ^ (bd - 8))).neg) (FVal.ofInt (219 * 2 ^ (bd - 8)))
def chromaNorm (full : Bool) (bd : Nat) (v : FVal) : FVal :=
  if full then f32Div (v.add (FVal.ofInt (2 ^ (bd - 1))).neg) (FVal.ofInt (2 ^ bd - 1))
  else f32Div (v.add (FVal.ofInt (128 * 2 ^ (bd - 8))).neg) (FVal.ofInt (224 * 2 ^ (bd - 8)))

/-- The channels of luma sample (x, y) before the affine step (R289). -/
def Pic.channels (p : Pic) (w : List Nat) (x y : Nat) : List FVal :=
  let full := if dfld w 0 11 10 == 0 then p.full.getD false else dfld w 0 11 10 == 2
  let up := dfld w 0 12 12 == 1
  let yv : FVal := .fin false (p.luma x y) 0
  let yn := lumaNorm full p.bd yv
  let top := FVal.ofInt (2 ^ p.bd - 1)
  match dChanMode w with
  | 0 =>
    if p.mono then List.replicate 3 (clamp01 yn)
    else
      let (kr, kb) := krKb (p.matrix (dfld w 0 9 8))
      let kg := f32Sub (f32Sub f32One kr) kb
      let cbn := chromaNorm full p.bd (p.chromaAt up p.cb x y)
      let crn := chromaNorm full p.bd (p.chromaAt up p.cr x y)
      let r := f32Add yn (f32Mul ((f32Sub f32One kr).scale 1) crn)
      let b := f32Add yn (f32Mul ((f32Sub f32One kb).scale 1) cbn)
      let g := f32Div (f32Sub (f32Sub yn (f32Mul kr r)) (f32Mul kb b)) kg
      [clamp01 r, clamp01 g, clamp01 b]
  | 1 => [clamp01 yn]
  | _ =>
    if p.mono then [f32Div yv top, .zero, .zero]
    else [f32Div yv top, f32Div (p.chromaAt up p.cb x y) top, f32Div (p.chromaAt up p.cr x y) top]

/-- The channels after the affine step at sample (x, y) of the crop; outside the picture every channel is 0 (R288, R291). -/
def State.cropAt (s : State) (w : List Nat) (p : Pic) (x y : Nat) : List FVal :=
  let px := dCropX w + x
  let py := dCropY w + y
  if px < p.w && py < p.h then
    (p.channels w px py).zipIdx.map fun (v, c) =>
      let a := daddr w 24 + 8 * c
      f32Add (f32Mul v (ffFp32.decode (s.word a))) (ffFp32.decode (s.word (a + 4)))
  else List.replicate (dChannels w) .zero

/-- Size of an output frame: the crop, or in maintenance mode what the geometry stage makes of it (R308). -/
def outW (w : List Nat) : Nat :=
  if dfld w 19 15 0 != 0 then dfld w 19 15 0 else if dRotate w % 2 == 1 then dCropH w else dCropW w
def outH (w : List Nat) : Nat :=
  if dfld w 19 31 16 != 0 then dfld w 19 31 16 else if dRotate w % 2 == 1 then dCropW w else dCropH w

/-- The sample of the rotated and mirrored frame at (x, y) (R308). -/
def State.turnedAt (s : State) (w : List Nat) (p : Pic) (x y : Nat) : List FVal :=
  let cw := dCropW w
  let ch := dCropH w
  let tw := if dRotate w % 2 == 1 then ch else cw
  let x := if dMirror w then tw - 1 - x else x
  match dRotate w with
  | 0 => s.cropAt w p x y
  | 1 => s.cropAt w p y (ch - 1 - x)
  | 2 => s.cropAt w p (cw - 1 - x) (ch - 1 - y)
  | _ => s.cropAt w p (cw - 1 - y) x

/-- Index and FP32 weight at output coordinate `o` when `n` input samples become `m`: u = (o + 0.5) × n / m − 0.5 (R308). -/
def scaleFrac (o n m : Nat) : Int × FVal :=
  let num : Int := (2 * (o : Int) + 1) * n - m
  let den : Int := 2 * (m : Int)
  (num / den, f32Div (FVal.ofInt (num % den)) (FVal.ofInt den))

/-- The channels of output sample (x, y), after the geometry stage (R308). -/
def State.outAt (s : State) (w : List Nat) (p : Pic) (x y : Nat) : List FVal :=
  let iw := if dRotate w % 2 == 1 then dCropH w else dCropW w
  let ih := if dRotate w % 2 == 1 then dCropW w else dCropH w
  if w.getD 19 0 == 0 then s.turnedAt w p x y
  else
    let (x0, wx) := scaleFrac x iw (outW w)
    let (y0, wy) := scaleFrac y ih (outH w)
    let at_ (dy dx : Int) : List FVal := s.turnedAt w p (clampIdx iw (x0 + dx)) (clampIdx ih (y0 + dy))
    let mix (f : FVal) (a b : List FVal) : List FVal :=
      (a.zip b).map fun (u, v) => f32Add (f32Mul (f32Sub f32One f) u) (f32Mul f v)
    mix wy (mix wx (at_ 0 0) (at_ 0 1)) (mix wx (at_ 1 0) (at_ 1 1))

/-- The bytes of output row `y`: each position's channels in fmt_out, then zeros up to c_stride (R291). -/
def State.outRow (s : State) (w : List Nat) (p : Pic) (y : Nat) : List Byte :=
  let f := (Fmt.ofCode (dfld w 0 19 16)).getD .bf16
  packCodes 16 ((List.range (outW w)).flatMap fun x =>
    let cs := (s.outAt w p x y).map fun v => (f.encode v).code
    cs ++ List.replicate (dCStride w - cs.length) 0)

/-! ### Tokens (R292 to R294, R298, R299) -/

/-- The luma columns and rows of token (ty, tx) in the crop: first and one past the last (R292). -/
def tokenRect (w : List Nat) (ty tx : Nat) : Nat × Nat × Nat × Nat :=
  let n := dToken w
  (tx * n, min ((tx + 1) * n) (dCropW w), ty * n, min ((ty + 1) * n) (dCropH w))

/-- The class of a token: the worst of its blocks, and concealed where a sample lies outside the picture (R288, R299). -/
def tokenClass (w : List Nat) (p : Pic) (taint : List Nat) (ty tx : Nat) : Nat :=
  let (x0, x1, y0, y1) := tokenRect w ty tx
  let ax := dCropX w + x0
  let bx := dCropX w + x1
  let ay := dCropY w + y0
  let by_ := dCropY w + y1
  if bx > p.w || by_ > p.h then 1
  else
    let bw := ceilDiv p.w 16
    let cs := (List.range' (ay / 16) ((by_ - 1) / 16 - ay / 16 + 1)).flatMap fun r =>
      (List.range' (ax / 16) ((bx - 1) / 16 - ax / 16 + 1)).map fun c => taint.getD (r * bw + c) 0
    if cs.contains 1 then 1 else if cs.contains 2 then 2 else 0

/-- Some contributing sample of a token differs between two frames by more than the threshold (R293). -/
def tokenDiffers (w : List Nat) (p q : Pic) (ty tx : Nat) : Bool :=
  let (x0, x1, y0, y1) := tokenRect w ty tx
  let t := dfld w 1 23 16
  let far (a b : Nat) : Bool := a > b + t || b > a + t
  let ax := dCropX w + x0
  let ay := dCropY w + y0
  let lumas := (List.range (y1 - y0)).any fun j => (List.range (x1 - x0)).any fun i =>
    let x := ax + i
    let y := ay + j
    let inP := x < p.w && y < p.h
    let inQ := x < q.w && y < q.h
    inP != inQ || (inP && far (p.luma x y) (q.luma x y))
  let e := if dfld w 0 12 12 == 1 then 1 else 0
  let bx := min (dCropX w + x1) p.w
  let by_ := min (dCropY w + y1) p.h
  let chromas := bx > ax && by_ > ay && !p.mono
    && (List.range' (ay / 2 - e) ((by_ - 1) / 2 + e - (ay / 2 - e) + 1)).any fun j =>
      (List.range' (ax / 2 - e) ((bx - 1) / 2 + e - (ax / 2 - e) + 1)).any fun i =>
        far (p.chroma p.cb i j) (q.chroma q.cb i j) || far (p.chroma p.cr i j) (q.chroma q.cr i j)
  p.bd != q.bd || p.mono != q.mono || lumas || chromas

/-- The loss weight of a class (R299). -/
def classWeight (w : List Nat) (c : Nat) : Nat :=
  if c == 0 then dfld w 22 15 0 else if c == 2 then dfld w 22 31 16 else dfld w 23 15 0

/-- The byte ranges frame `k` is written to: tensor rows, maps and weights (R291, R292, R299). -/
def frameSpans (w : List Nat) (k : Nat) : List (Nat × Nat) :=
  let t := dTokens w
  let rows := (List.range (outH w)).map fun y =>
    (daddr w 8 + k * dOutFrame w + y * dOutRow w, outW w * dCStride w * 2)
  let bits (base first per : Nat) : Nat × Nat :=
    (base + (first + k * t) / per, (first + (k + 1) * t - 1) / per - (first + k * t) / per + 1)
  rows ++ (if dMapEn w then [bits (daddr w 12) (dfld w 14 2 0) 8] else [])
    ++ (if dCmapEn w then [bits (daddr w 16) (dfld w 18 1 0) 4] else [])
    ++ (if dWeightEn w then [(daddr w 20 + 2 * k * t, 2 * t)] else [])

/-- Byte ranges of frame `k` that are wholly the job's own. -/
def ownSpans (w : List Nat) (k : Nat) : List (Nat × Nat) :=
  (frameSpans w k).take (outH w) ++ (if dWeightEn w then [(daddr w 20 + 2 * k * dTokens w, 2 * dTokens w)] else [])

/-- The map bits of the first `k` frames. -/
def mapSpans (w : List Nat) (k : Nat) : List MapSpan :=
  (if dMapEn w then [{ base := daddr w 12, first := dfld w 14 2 0, bits := 1, tokens := k * dTokens w : MapSpan }] else [])
  ++ (if dCmapEn w then [{ base := daddr w 16, first := dfld w 18 1 0, bits := 2, tokens := k * dTokens w : MapSpan }]
      else [])

/-! ### Writing output frames (R286, R291 to R299) -/

/-- The mid-level picture of R296, for a bit depth and size; without a picture size it covers the crop. -/
def midPic (w : List Nat) (h : Option SeqHdr) (bd : Nat) : Pic :=
  { w := (h.map (·.w)).getD (dCropX w + dCropW w), h := (h.map (·.h)).getD (dCropY w + dCropH w), bd := bd,
    mono := h.any (·.chroma == 0), coeffs := (h.map (·.coeffs)).getD 2, full := h.bind (·.full),
    y := [], cb := [], cr := [], fill := 2 ^ (bd - 1) }

/-- Frame `k` of job `n` is written as picture `p`; `classes` are its block classes, or none where all of it is concealed
(R291, R293, R297, R299). -/
def State.writeFrame (s : State) (n k : Nat) (p : Pic) (classes : Option (List Nat)) : State :=
  let j := s.cdcJob n
  let w := j.words
  let x := s.decStream j.eng
  let s := s.each (List.range (outH w)) fun s y =>
    s.store (daddr w 8 + k * dOutFrame w + y * dOutRow w) (s.outRow w p y)
  let tokens := (List.range (dTh w)).flatMap fun ty => (List.range (dTw w)).map fun tx => (ty, tx)
  let of := tokens.map fun t =>
    let live := k == 0 || (match x.last with
      | some q => tokenDiffers w p q t.1 t.2
      | none => true)
    let cls := match classes with
      | some l => tokenClass w p l t.1 t.2
      | none => 1
    (live, cls)
  let s := s.each of.zipIdx fun s ((live, cls), i) =>
    let m := k * dTokens w + i
    let s := if dMapEn w then s.mergeBits (daddr w 12 + (dfld w 14 2 0 + m) / 8) ((dfld w 14 2 0 + m) % 8) 1 live.toNat else s
    let s := if dCmapEn w then s.mergeBits (daddr w 16 + (dfld w 18 1 0 + m) / 4) (2 * ((dfld w 18 1 0 + m) % 4)) 2 cls else s
    if dWeightEn w then s.storeNum (daddr w 20 + 2 * m) 2 (classWeight w cls) else s
  let d := j.dec
  let d := { d with
    live := d.live + (of.filter (·.1)).length, concealed := d.concealed + (of.filter (·.2 == 1)).length,
    suspect := d.suspect + (of.filter (·.2 == 2)).length }
  let s := s.setDecStream j.eng { x with last := some p }
  s.setCdcJob n { j with
    next := k + 1, dec := d, held := j.held.filter (·.1 != k), written := j.written ++ ownSpans w k,
    maps := mapSpans w (k + 1) }

/-- The bit depth of the mid-level picture: the stream's; before any sequence header a free value of 8 and 10 (log entry
46). -/
def State.midDepth (s : State) (h : Option SeqHdr) : Nat × State :=
  match h with
  | some x => (x.bd, s)
  | none =>
    let (v, s) := s.free
    (if v % 2 == 0 then 8 else 10, s)

/-- Frame `k` of job `n` is written: its picture where one was decoded, else a concealed copy of the frame before it, or the
mid-level picture (R297). -/
def State.writeDue (s : State) (n k : Nat) : State :=
  let j := s.cdcJob n
  match (j.held.find? (·.1 == k)).map (·.2) with
  | some x => s.writeFrame n k x.pic (some x.taint)
  | none =>
    match (s.decStream j.eng).last with
    | some p => s.writeFrame n k p none
    | none =>
      let h := (s.decStream j.eng).hdr
      let (bd, s) := s.midDepth h
      s.writeFrame n k (midPic j.words h bd) none

/-- The frames that can be written now, in order: those below `missTo` are decoded or missing, and decoded ones follow on
(R284; log entry 47). -/
def dueFrames (j : CdcJob) (missTo : Nat) : List Nat :=
  (List.range' j.next (dFrames j.words - j.next)).takeWhile fun k => k < missTo || j.held.any (·.1 == k)

/-- The frames due of job `n` are written; the accesses are checked first. -/
def State.writeDueFrames (s : State) (n missTo : Nat) (rs ws : List (Nat × Nat)) (ecc : Ecc) (act : State → State)
    (j : CdcJob) : State :=
  let ks := dueFrames j missTo
  let norm := if ks.isEmpty then [] else [(daddr j.words 24, 32)]
  s.cdcAccess n (rs ++ norm) (ws ++ ks.flatMap (frameSpans j.words)) ecc fun s =>
    (act (s.setCdcJob n j)).each ks fun s k => s.writeDue n k

/-! ### Stream errors (R273, R295) -/

/-- A sequence header stays within the table of R273, its picture size apart. -/
def hdrSupported (av1 : Bool) (h : SeqHdr) : Bool :=
  h.toolsOk && (h.bd == 8 || h.bd == 10)
  && (if av1 then h.profile == 0 && h.level10 ≤ 63 && h.chroma ≤ 1
      else (h.profile == 1 && h.bd == 8 || h.profile == 2) && h.level10 ≤ 62 && h.chroma == 1)

/-- A picture size of the table of R273. -/
def hdrFits (av1 : Bool) (h : SeqHdr) : Bool := h.w ≤ 8192 && h.h ≤ (if av1 then 4352 else 4320)

/-- `k` stream errors of job `n` are counted; the first of the job raises CDC_STREAM_ERR (R295). -/
def State.streamErrors (s : State) (n k : Nat) : State :=
  if k == 0 then s
  else
    let j := s.cdcJob n
    let s := s.count .cdcStreamErrCnt 0 j.eng cdcStreamErrCnt_errors k
    let s := if j.dec.streamErr then s else s.raise 176 (2 ^ j.eng)
    s.setCdcJob n { j with dec := { j.dec with streamErr := true } }

/-! ### Records (R279 to R281, R284, R285, R295) -/

/-- Bytes a record with a payload of `len` bytes occupies (R280). -/
def recordSize (len : Nat) : Nat := ceilDiv (32 + len) 64 * 64

/-- Frames whose indices a record with index `i` passes by more than max_reorder: all below the answer (R284). -/
def missBelow (w : List Nat) (i : Nat) : Nat :=
  let d := i - (dFirst w + dReorder w)
  min (dFrames w) (ceilDiv d (dFrameStride w))

/-- A record header is at fault: another stream's, reaching beyond prod or the ring's end, or with a reserved bit set
(R295). -/
def recordBad (r : Ring) (h : List Nat) : Bool :=
  let limit := if r.cons < r.prod then r.prod else r.size
  dfld h 6 15 0 != r.stream || r.cons + recordSize (h.getD 0 0) > limit || dfld h 1 31 7 != 0 || dfld h 6 31 16 != 0
    || h.getD 7 0 != 0

/-- The effect of the record at cons on stream and job, beside cons, the frames and the counting of errors: the stream after
it, the flags it adds, its stream errors, and the frames it leaves missing (R284, R285, R287, R295, R310). -/
structure RecEffect where
  stream : DecStream
  job : CdcJob
  errors : Nat
  missTo : Nat
deriving DecidableEq, Repr

/-- A record whose header holds: skipping, the sequence header, the errors of its payload, the indices it passes. -/
def recEffect (j : CdcJob) (x : DecStream) (h : List Nat) (found : RecFound) : RecEffect :=
  let w := j.words
  let bit (i : Nat) : Bool := (h.getD 1 0).testBit i
  let rap := bit 0
  let pad := bit 1
  let eos := bit 2
  let disc := bit 3
  let gap := x.seq.any fun q => h.getD 2 0 != (q + 1) % 2 ^ 32
  let x := { x with seq := some (h.getD 2 0) }
  let x := if disc then { x with skip := true, conceal := false, hdr := none, store := [] } else x
  let skipped := x.skip && !rap && !pad
  let x := if rap && x.skip then { x with skip := false, began := x.count } else x
  let look := !skipped && !pad && h.getD 0 0 != 0
  let hdr := if look then found.hdr else none
  let errs := if look then found.errs else []
  let big := hdr.any fun y => y.w > dfld w 31 15 0 || y.h > dfld w 31 31 16
  let badHdr := hdr.any fun y => !hdrSupported (dAv1 w) y || (!big && !hdrFits (dAv1 w) y)
  let uns := badHdr || errs.contains .unsupported
  let x := match hdr with
    | some y => { x with hdr := some y, conceal := badHdr || big || (x.conceal && !rap) }
    | none => x
  let x := { x with conceal := x.conceal || uns }
  let picture := look && found.picture
  let errors := gap.toNat + (badHdr || big).toNat + errs.length
  let x := { x with
    due := if picture then some ⟨h.getD 3 0, eos, errs.length != 0⟩ else none
    store := if look then x.store.filter fun p => !found.drops.contains p.num else x.store }
  let missTo := if disc || (eos && !picture) then dFrames w else if pad then 0 else missBelow w (h.getD 3 0)
  let d := j.dec
  let short := (disc || (eos && !picture)) && (List.range' j.next (dFrames w - j.next)).any fun k => !j.held.any (·.1 == k)
  { stream := x,
    job := { j with dec := { d with
      seqGap := d.seqGap || gap, sizeExceeded := d.sizeExceeded || big, unsupported := d.unsupported || uns,
      shortStream := d.shortStream || short, consumed := d.consumed + 1, skipped := d.skipped + skipped.toNat } },
    errors := errors, missTo := missTo }

/-- RING_RECORD_CONSUME: the decode engine takes the record at cons, which `found` describes as far as only decoding can
tell, and advances cons (R284, R285, R295). -/
def State.recordConsume (s : State) (e : Nat) (found : RecFound) (ecc : Ecc) : State :=
  match s.cdcRunning e with
  | none => s
  | some n =>
    let j := s.cdcJob n
    let x := s.decStream e
    let r := s.ringAt j.ring
    let a := r.base + r.cons
    let h := s.wordsAt a 8
    if j.next ≥ dFrames j.words || x.due.isSome || r.cons == r.prod then s
    else
      let put (v : Nat) (s : State) : State := s.storeNum (j.ring + 16) 4 v
      let j := { j with tick := s.refclk }
      if recordBad r h then
        s.cdcAccess n [(j.ring, 64), (a, 32)] [(j.ring + 16, 4)] ecc fun s =>
          put r.prod ((s.setCdcJob n { j with dec := { j.dec with ringResync := true } }).streamErrors n 1)
      else
        let f := recEffect j x h found
        let n1 := recordSize (h.getD 0 0)
        let cons := if (h.getD 1 0).testBit 1 || r.cons + n1 ≥ r.size then 0 else r.cons + n1
        s.writeDueFrames n f.missTo [(j.ring, 64), (a, n1)] [(j.ring + 16, 4)] ecc
          (fun s => put cons ((s.setDecStream e f.stream).streamErrors n f.errors)) f.job

/-- RING_RECORD_TIMEOUT: the ring has been empty for timeout refclk ticks, so the remaining frames are missing and timed_out
is set (R284, R286). -/
def State.recordTimeout (s : State) (e : Nat) : State :=
  match s.cdcRunning e with
  | none => s
  | some n =>
    let j := s.cdcJob n
    let r := s.ringAt j.ring
    let limit := j.words.getD 30 0
    if limit == 0 || r.cons != r.prod || (s.refclk - j.tick).toNat < limit || (s.decStream e).due.isSome
      || j.next ≥ dFrames j.words then s
    else
      s.writeDueFrames n (dFrames j.words) [(j.ring, 64)] [] .clean id { j with dec := { j.dec with timedOut := true } }

/-! ### Pictures (R284, R295 to R298) -/

/-- The class of each block of a picture, in decoding order: concealed by an error, a missing reference or a concealed
sequence; suspect where a source block is not clean or the hash failed (R298). -/
def blockClasses (x : DecStream) (hash : Bool) (count : Nat) (blocks : List PicBlock) : List Nat :=
  blocks.foldl (fun taint b =>
    let src (p : Option Int × Nat) : Nat :=
      match p.1 with
      | none => taint.getD p.2 0
      | some i =>
        match x.store.find? (fun y => (y.num : Int) == i) with
        | some y => y.taint.getD p.2 0
        | none => 3
    let cs := b.preds.map src
    let v := if x.conceal || b.failed || cs.contains 3 then 1 else if hash || cs.any (· != 0) then 2 else 0
    taint.set b.pos v) (List.replicate count (if x.conceal then 1 else if hash then 2 else 0))

/-- Pictures that blocks refer to. -/
def blockRefs (blocks : List PicBlock) : List Int := (blocks.flatMap fun b => b.preds.filterMap (·.1)).eraseDups

/-- Pictures that blocks refer to and the store does not hold (R295). -/
def absentRefs (x : DecStream) (blocks : List PicBlock) : List Int :=
  (blockRefs blocks).filter fun i => !x.store.any fun y => (y.num : Int) == i

/-- A picture refers to one before the random access point where decoding began: it is not decoded (R285). -/
def refersBefore (x : DecStream) (blocks : List PicBlock) : Bool := (blockRefs blocks).any fun i => i < (x.began : Int)

/-- A picture with its concealed blocks replaced: by the co-located block of the output frame written last, or by mid level
(R296). -/
def concealed (p : Pic) (taint : List Nat) (last : Option Pic) : Pic :=
  let bw := ceilDiv p.w 16
  let mid := 2 ^ (p.bd - 1)
  let bad (x y : Nat) : Bool := taint.getD (y / 16 * bw + x / 16) 0 == 1
  let plane (w h : Nat) (sub : Nat) (own : Nat → Nat → Nat) (old : Pic → Nat → Nat → Nat) : List Nat :=
    (List.range h).flatMap fun y => (List.range w).map fun x =>
      if bad (x * sub) (y * sub) then (match last with
        | some q => old q x y
        | none => mid)
      else own x y
  { p with
    y := plane p.w p.h 1 p.luma Pic.luma
    cb := plane p.cw p.ch 2 (p.chroma p.cb) fun q => q.chroma q.cb
    cr := plane p.cw p.ch 2 (p.chroma p.cr) fun q => q.chroma q.cr }

/-- PICTURE_DECODED: the picture of the record taken last is decoded. Concealment and taint are worked out, the picture
enters the store, and output frames that are due are written with maps and weights (R284, R293 to R299); a picture that refers
to one before the random access point is not decoded (R285). With no picture
due, frames that a continued stream had decoded already are written. -/
def State.pictureDecoded (s : State) (e : Nat) (p : Pic) (blocks : List PicBlock) (hashBad : Bool) (ecc : Ecc) : State :=
  match s.cdcRunning e with
  | none => s
  | some n =>
    let j := s.cdcJob n
    let w := j.words
    let x := s.decStream e
    let area := (daddr w 26, dStoreMib w * 2 ^ 20)
    match x.due with
    | none => if (dueFrames j 0).isEmpty then s else s.writeDueFrames n 0 [] [] ecc id j
    | some d =>
      if refersBefore x blocks then
        let left := (List.range' j.next (dFrames w - j.next)).any fun k => !j.held.any (·.1 == k)
        let j := { j with dec := { j.dec with shortStream := j.dec.shortStream || (d.eos && left) } }
        s.writeDueFrames n (if d.eos then dFrames w else 0) [] [] ecc (·.setDecStream e { x with due := none }) j
      else
      let hash := hashBad && dfld w 0 28 28 == 1 && !dAv1 w
      let absent := absentRefs x blocks
      let taint := blockClasses x hash (ceilDiv p.w 16 * ceilDiv p.h 16) blocks
      let q := concealed p taint x.last
      let st : Stored := { num := x.count, index := d.index, pic := q, taint := taint }
      let held := match wantedFrame w d.index with
        | some k => if k < j.next || j.held.any (·.1 == k) then j.held else j.held ++ [(k, st)]
        | none => j.held
      let short := d.eos && (List.range' j.next (dFrames w - j.next)).any fun k => !held.any (·.1 == k)
      let j := { j with
        held := held
        dec := { j.dec with hashMismatch := j.dec.hashMismatch || hash, shortStream := j.dec.shortStream || short } }
      let x := { x with due := none, store := (st :: x.store).take (dSlots w), count := x.count + 1 }
      s.writeDueFrames n (if d.eos then dFrames w else 0) [area] [area] ecc
        (fun s => ((s.spoil area.1 area.2).setDecStream e x).streamErrors n
          (absent.length + hash.toNat + (!d.erred && blocks.any (·.failed)).toNat)) j

/-! ### Completion (R286, R309) -/

/-- The completion record of a decode descriptor (R309). -/
def CdcJob.decRecord (j : CdcJob) : List Nat :=
  let d := j.dec
  [j.tag,
   d.streamErr.toNat + 2 * d.hashMismatch.toNat + 4 * d.sizeExceeded.toNat + 8 * d.shortStream.toNat + 16 * d.timedOut.toNat
     + 32 * d.seqGap.toNat + 64 * d.contLost.toNat + 128 * d.unsupported.toNat + 256 * d.ringResync.toNat,
   j.next, d.live % 2 ^ 32, d.concealed % 2 ^ 32, d.suspect % 2 ^ 32, d.consumed % 2 ^ 32,
   min d.skipped 0xFFFF + j.index * 2 ^ 16]

/-- DECODE_JOB_COMPLETE: every output frame is written (R286). -/
def State.decodeComplete (s : State) (e : Nat) : State :=
  match s.cdcRunning e with
  | none => s
  | some n =>
    let j := s.cdcJob n
    if j.next < dFrames j.words || (s.decStream e).due.isSome then s
    else s.cdcComplete n j.decRecord j.dec.streamErr

/-! ### The commands -/

/-- RING_RECORD_CONSUME (R284). -/
def execRingRecordConsume (e : Fin 8) (found : RecFound) (ecc : Ecc) (s : State) : Host.Outcome State Fault Refusal :=
  .next (s.recordConsume e.val found ecc)
/-- RING_RECORD_TIMEOUT (R284). -/
def execRingRecordTimeout (e : Fin 8) (s : State) : Host.Outcome State Fault Refusal := .next (s.recordTimeout e.val)
/-- PICTURE_DECODED (R284). -/
def execPictureDecoded (e : Fin 8) (p : Pic) (blocks : List PicBlock) (hashBad : Bool) (ecc : Ecc) (s : State) :
    Host.Outcome State Fault Refusal :=
  .next (s.pictureDecoded e.val p blocks hashBad ecc)
/-- DECODE_JOB_COMPLETE (R286). -/
def execDecodeJobComplete (e : Fin 8) (s : State) : Host.Outcome State Fault Refusal := .next (s.decodeComplete e.val)

end Sys2Proof.Machine
end

