-- ==== Sys2Proof/Machine/CodecEncode.lean ====
section
/-! DEFINITION. Encode engines: input, quantization, slices, records and drops (10: R277, R280, R302 to R306, R309, R310). -/

namespace Sys2Proof.Machine

/-! ### Input frames (R302) -/

/-- Bit depth of the coded planes. -/
def eBitDepth (w : List Nat) : Nat := if dfld w 0 2 2 == 1 then 10 else 8

/-- A planar sample: bytes, or bits [9:0] of 16-bit words (R302). -/
def State.planeAt (s : State) (w : List Nat) (base row x y : Nat) : Nat :=
  if eInput w == 1 then s.num (base + y * row + 2 * x) 2 % 1024 else (s.byte (base + y * row + x)).toNat

/-- The planes of planar frame `f` from luma rows [r0, r1) (R302). -/
def State.planarRows (s : State) (w : List Nat) (f r0 r1 : Nat) : List Nat × List Nat × List Nat :=
  let base := daddr w 8 + f * eInFrame w
  let cb := base + eHeight w * eInRow w
  let cr := cb + eHeight w / 2 * (eInRow w / 2)
  let plane (b row n a c : Nat) : List Nat :=
    (List.range' a (c - a)).flatMap fun y => (List.range n).map fun x => s.planeAt w b row x y
  (plane base (eInRow w) (eWidth w) r0 r1, plane cb (eInRow w / 2) (eWidth w / 2) (r0 / 2) (r1 / 2),
   plane cr (eInRow w / 2) (eWidth w / 2) (r0 / 2) (r1 / 2))

/-- Channel `c` of an RGB tensor position: (x − offset) / scale, clamped (R302). -/
def State.rgbAt (s : State) (w : List Nat) (f x y c : Nat) : FVal :=
  let fm : Fmt := if dfld w 0 6 6 == 1 then .fp16 else .bf16
  let v := fm.decode (s.num (daddr w 8 + f * eInFrame w + y * eInRow w + (x * eCStride w + c) * 2) 2)
  let n := daddr w 16 + 8 * c
  clamp01 (f32Div (f32Sub v (ffFp32.decode (s.word (n + 4)))) (ffFp32.decode (s.word n)))

/-- Yn, Cbn and Crn of a position, by the inverse of R289 with BT.709 (R302). -/
def State.ycbcrAt (s : State) (w : List Nat) (f x y : Nat) : FVal × FVal × FVal :=
  let (kr, kb) := krKb 2
  let kg := f32Sub (f32Sub f32One kr) kb
  let r := s.rgbAt w f x y 0
  let g := s.rgbAt w f x y 1
  let b := s.rgbAt w f x y 2
  let yn := f32Add (f32Add (f32Mul kr r) (f32Mul kg g)) (f32Mul kb b)
  (yn, f32Div (f32Sub b yn) ((f32Sub f32One kb).scale 1), f32Div (f32Sub r yn) ((f32Sub f32One kr).scale 1))

/-- A value rounded to the nearest sample of `bd` bits. -/
def toSample (bd : Nat) (v : FVal) : Nat := (convInt 0 (2 ^ bd - 1) v).val.toNat

/-- A sample in limited range: v × range + offset, in units of 2^(bd − 8) (R289, R302). -/
def limited (bd range offset : Nat) (v : FVal) : Nat :=
  toSample bd (f32Add (f32Mul v (FVal.ofInt (range * 2 ^ (bd - 8)))) (FVal.ofInt (offset * 2 ^ (bd - 8))))

/-- The planes of RGB frame `f` from luma rows [r0, r1): chroma is the mean of each 2 × 2 block (R302). -/
def State.rgbRows (s : State) (w : List Nat) (f r0 r1 : Nat) : List Nat × List Nat × List Nat :=
  let bd := eBitDepth w
  let rows := List.range' r0 (r1 - r0)
  let y := rows.flatMap fun j => (List.range (eWidth w)).map fun i => limited bd 219 16 (s.ycbcrAt w f i j).1
  let chroma (pick : FVal × FVal × FVal → FVal) : List Nat :=
    (List.range' (r0 / 2) (r1 / 2 - r0 / 2)).flatMap fun j => (List.range (eWidth w / 2)).map fun i =>
      let v (dx dy : Nat) : FVal := pick (s.ycbcrAt w f (2 * i + dx) (2 * j + dy))
      limited bd 224 128 ((f32Add (f32Add (v 0 0) (v 1 0)) (f32Add (v 0 1) (v 1 1))).scale (-2))
  (y, chroma (·.2.1), chroma (·.2.2))

/-- The planes of frame `f` from luma rows [r0, r1). -/
def State.inputRows (s : State) (w : List Nat) (f r0 r1 : Nat) : List Nat × List Nat × List Nat :=
  if eInput w == 2 then s.rgbRows w f r0 r1 else s.planarRows w f r0 r1

/-! ### Quantization (R303, R304) -/

/-- The region table of frame `f`; none where it is invalid (R304). -/
def State.roiTable (s : State) (w : List Nat) (f : Nat) : Option (List RoiRect) :=
  let a := daddr w 14 + 256 * f
  let n := s.word a % 32
  let rects := (List.range n).map fun r =>
    let v (i : Nat) : Nat := s.word (a + 4 * (4 + 3 * r + i))
    { x := v 0 % 2 ^ 16, y := v 0 / 2 ^ 16, w := v 1 % 2 ^ 16, h := v 1 / 2 ^ 16, offset := untwos 6 (v 2 % 64) : RoiRect }
  if n > 16 || rects.any (fun r => r.offset < -26 || r.offset > 25) then none else some rects

/-- The QP of the 32 × 32 quantization group at (gx, gy) of a picture of `w` × `h`: the frame QP with the offset of the
lowest-numbered rectangle that overlaps any of its samples (R304). -/
def groupQp (rects : List RoiRect) (w h qp gx gy : Nat) : Nat :=
  let hit := rects.find? fun r =>
    r.w != 0 && r.h != 0 && r.x < min (32 * gx + 32) w && 32 * gx < r.x + r.w && r.y < min (32 * gy + 32) h && 32 * gy < r.y + r.h
  let v : Int := (qp : Int) + ((hit.map (·.offset)).getD 0)
  if v < 0 then 0 else min v.toNat 51

/-! ### Coding one slice or picture (R303 to R305, R310) -/

/-- An IDR picture that the latency class schedules (R305). -/
def idrScheduled (w : List Nat) (x : EncStream) : Bool :=
  x.count == 0 || (eClass w != 2 && eIdrPeriod w != 0 && x.sinceIdr ≥ eIdrPeriod w)

/-- CTU columns of the band of a gradual refresh picture, and its place in the sweep (R305). -/
def bandCols (w : List Nat) : Nat := ceilDiv (eCtuCols w) (eRefresh w)
def sweepPos (w : List Nat) (x : EncStream) : Nat := (x.count - 1) % eRefresh w

/-- A picture is one of a sweep of gradual refresh (R305). -/
def sweeping (w : List Nat) (x : EncStream) : Bool := eClass w == 2 && !x.idr

/-- CTU rows of slice `i`: first row and rows; a picture of classes 0 and 2 is coded whole (R305). -/
def sliceRows (w : List Nat) (i : Nat) : Nat × Nat :=
  if eClass w == 1 then (i * eSliceRows w, min (eSliceRows w) (eCtuRows w - i * eSliceRows w)) else (0, eCtuRows w)

/-- The next slice of job `n` is the last of its picture. -/
def lastSlice (w : List Nat) (i : Nat) : Bool := eClass w != 1 || (i + 1) * eSliceRows w ≥ eCtuRows w

/-- What coding slice `i` of frame `f` takes in, at frame QP `qp` (R300 to R305). -/
def State.codeInput (s : State) (w : List Nat) (x : EncStream) (f i qp : Nat) : Config.CodeIn :=
  let (r0, rn) := sliceRows w i
  let y0 := r0 * eCtu w
  let y1 := min (eHeight w) ((r0 + rn) * eCtu w)
  let qps := (List.range' (y0 / 32) (ceilDiv y1 32 - y0 / 32)).flatMap fun gy =>
    (List.range (ceilDiv (eWidth w) 32)).map fun gx => groupQp x.roi (eWidth w) (eHeight w) qp gx gy
  let (py, pb, pr) := s.inputRows w f y0 y1
  let n := bandCols w
  let sw := sweeping w x
  { count := x.count, idr := x.idr, row := r0, rows := rn, profile := dfld w 0 2 2, ctu := eCtu w, width := eWidth w,
    height := eHeight w, rate := (eRateNum w, eRateDen w), level := (eLevel w).getD (0, false), bitDepth := eBitDepth w,
    qps := qps, y := py, cb := pb, cr := pr, cls := eClass w, rc := (eRc w, eBitrate w, dfld w 5 15 0),
    band := if sw then some (sweepPos w x * n, n) else none, refreshed := if sw then (sweepPos w x + 1) * n else 0,
    recovery := if sw && sweepPos w x == 0 then some (eRefresh w) else none }

/-- Slices of a picture. -/
def sliceCount (w : List Nat) : Nat := if eClass w == 1 then ceilDiv (eCtuRows w) (eSliceRows w) else 1

/-- Bits of the coded picture of frame `f` at frame QP `qp`, slice after slice. -/
def State.pictureBits (s : State) (w : List Nat) (x : EncStream) (f qp : Nat) : Nat :=
  ((List.range (sliceCount w)).foldl (fun (acc : List Config.CodeIn × Nat) i =>
    let v := s.codeInput w x f i qp
    (v :: acc.1, acc.2 + 8 * (Config.coded acc.1 v).length)) (x.past, 0)).2

/-- Size of the coded picture buffer, in bits times rate_num: kbit/s times ms (R300, R303). -/
def hrdSize (w : List Nat) : Nat := eBitrate w * dfld w 5 15 0 * eRateNum w
/-- What a frame's time brings into it, in the same unit. -/
def hrdGain (w : List Nat) : Nat := eBitrate w * 1000 * eRateDen w

/-- A picture of `bits` keeps the buffer within its bounds: all of it is there, and in CBR the buffer does not overflow after it
(R303; log entry 89). -/
def hrdOk (w : List Nat) (x : EncStream) (bits : Nat) : Bool :=
  bits * eRateNum w ≤ x.fill && (eRc w != 1 || x.fill - bits * eRateNum w + hrdGain w ≤ hrdSize w)

/-- The frame QP: qp with rc 0; else the controller's pick, a free value, among those that keep the buffer within its bounds,
or of all where none does (R303; log entry 89). -/
def State.frameQp (s : State) (w : List Nat) (x : EncStream) (f : Nat) : Nat :=
  if eRc w == 0 then eQp w
  else
    let v := Config.frameQp x.past (eRc w) (eQp w) (eBitrate w) (dfld w 5 15 0)
    let good := (List.range 52).filter fun q => hrdOk w x (s.pictureBits w x f q)
    if good.isEmpty then v % 52 else good.getD (v % good.length) 0

/-- Stream and job as the start of the next frame leaves them: the kind of picture, the region table and the frame QP are
settled for the whole picture (R303, R304, R310). -/
def State.frameStart (s : State) (j : CdcJob) (x : EncStream) : EncStream × CdcJob :=
  let w := j.words
  let sched := idrScheduled w x
  let forced := x.force && (!sched || x.count == 0)
  let roi := if eRoi w then s.roiTable w j.next else some []
  let fill := if x.count == 0 then hrdSize w else x.fill
  let x := { x with idr := sched || x.force, force := false, whole := true, roi := roi.getD [], bits := 0, fill := fill }
  let d := j.enc
  ({ x with qp := s.frameQp w x j.next },
   { j with enc := { d with roiInvalid := d.roiInvalid || roi.isNone, forcedIdr := d.forcedIdr || forced } })

/-- What the engine codes next, and stream and job as the picture's start leaves them. -/
def State.encPlan (s : State) (j : CdcJob) : Config.CodeIn × EncStream × CdcJob :=
  let x := s.encStream j.eng
  let (x, j) := if j.slice == 0 then s.frameStart j x else (x, j)
  let v := s.codeInput j.words x j.next j.slice x.qp
  let d := j.enc
  (v, x, { j with enc := { d with qpMin := v.qps.foldl min d.qpMin, qpMax := v.qps.foldl max d.qpMax } })

/-- Byte ranges the coding of the next slice reads: the frame, when it starts its region table, the normalisation record. -/
def encReads (j : CdcJob) : List (Nat × Nat) :=
  let w := j.words
  [(daddr w 8 + j.next * eInFrame w, eExtent w)] ++ (if eRoi w && j.slice == 0 then [(daddr w 14 + 256 * j.next, 256)] else [])
  ++ (if eInput w == 2 then [(daddr w 16, 32)] else [])

/-! ### Records (R279, R280, R306) -/

/-- Where a record of `n` bytes goes in a ring: whether a pad record precedes it, and its offset; none where it does not fit
(R280). -/
def Ring.place (r : Ring) (n : Nat) : Option (Bool × Nat) :=
  let used := (r.prod + r.size - r.cons) % r.size
  if r.prod + n ≤ r.size then (if used + n + 64 ≤ r.size then some (false, r.prod) else none)
  else if used + (r.size - r.prod) + n + 64 ≤ r.size then some (true, 0)
  else none

/-- The byte ranges a record is written to, with prod. -/
def recordSpans (ctl : Nat) (r : Ring) (len : Nat) : List (Nat × Nat) :=
  match r.place (recordSize len) with
  | some (pad, at_) => (if pad then [(r.base + r.prod, 32)] else []) ++ [(r.base + at_, 32 + len), (ctl + 12, 4)]
  | none => []

/-- A record is written and prod advanced; the header of a pad record names a free value as its index (R279 to R281). -/
def State.emitRecord (s : State) (n : Nat) (bytes : List Byte) (rap slice last drop : Bool) (index : Nat) : State :=
  let j := s.cdcJob n
  let x := s.encStream j.eng
  let r := s.ringAt j.ring
  let after := if drop then 64 else 0
  match r.place (recordSize bytes.length) with
  | none => s
  | some (pad, at_) =>
    let (v, s) := s.free
    let s := if pad then s.storeWords (r.base + r.prod) [0, 2 + after, x.seq, v % 2 ^ 32, 0, 0, r.stream, 0] else s
    let seq := if pad then (x.seq + 1) % 2 ^ 32 else x.seq
    let flags := rap.toNat + 16 * slice.toNat + 32 * last.toNat + after
    let s := s.storeWords (r.base + at_) [bytes.length, flags, seq, index % 2 ^ 32, 0, 0, r.stream, 0]
    let s := s.store (r.base + at_ + 32) bytes
    let s := s.storeNum (j.ring + 12) 4 ((at_ + recordSize bytes.length) % r.size)
    let s := s.setEncStream j.eng { x with seq := (seq + 1) % 2 ^ 32 }
    s.setCdcJob n { j with
      enc := { j.enc with emitted := min (j.enc.emitted + bytes.length) (2 ^ 32 - 1) }
      written := j.written ++ (recordSpans j.ring r bytes.length).dropLast }

/-- A slice that does not fit is dropped: counted, CDC_SLICE_DROP raised, and the next picture coded as an IDR picture
(R306). -/
def State.dropSlice (s : State) (n : Nat) : State :=
  let j := s.cdcJob n
  let x := s.encStream j.eng
  let s := s.count .cdcDropCnt 0 (j.eng - 8) cdcDropCnt_dropped 1
  let s := s.raise 177 (2 ^ (j.eng - 8))
  let s := s.setEncStream j.eng { x with force := true, afterDrop := true, whole := false }
  s.setCdcJob n { j with enc := { j.enc with sliceDropped := true, dropped := j.enc.dropped + 1 } }

/-- The coded slice counts as part of the stream; the last slice of a picture ends it (R305, R306). -/
def State.sliceDone (s : State) (n : Nat) (x : Config.CodeIn) (bits : Nat) (last : Bool) : State :=
  let j := s.cdcJob n
  let t := s.encStream j.eng
  let t := { t with past := x :: t.past, bits := t.bits + bits }
  if last then
    let t := { t with
      count := t.count + 1, sinceIdr := if t.idr then 1 else t.sinceIdr + 1,
      afterDrop := t.afterDrop && !(t.idr && t.whole)
      fill := min (t.fill - t.bits * eRateNum j.words + hrdGain j.words) (hrdSize j.words) }
    (s.setEncStream j.eng t).setCdcJob n { j with next := j.next + 1, slice := 0 }
  else (s.setEncStream j.eng t).setCdcJob n { j with slice := j.slice + 1 }

/-- The engine finishes the coding of a slice, or of a picture in classes 0 and 2, and emits its record. A record without
room is dropped in class 1 and makes the engine stall in the others (R277, R305, R306). -/
def State.codeNext (s : State) (n : Nat) (ecc : Ecc) : State :=
  let j := s.cdcJob n
  let w := j.words
  let (inp, x, j2) := s.encPlan j
  let bytes := Config.coded x.past inp
  let r := s.ringAt j.ring
  let index := dfld w 7 31 0 + j.next
  let area := (daddr w 19, eStoreMib w * 2 ^ 20)
  let last := lastSlice w j.slice
  let rap := x.idr && j.slice == 0
  let fits := (r.place (recordSize bytes.length)).isSome
  s.cdcAccess n (encReads j ++ [(j.ring, 64), area]) (area :: recordSpans j.ring r bytes.length) ecc fun s =>
    let s := ((s.spoil area.1 area.2).setEncStream j.eng x).setCdcJob n j2
    let s := if fits then s.emitRecord n bytes rap (eClass w == 1) (eClass w == 1 && last) x.afterDrop index
      else if eClass w == 1 then s.dropSlice n
      else s.setCdcJob n { j2 with stalled := some { bytes := bytes, rap := rap, afterDrop := x.afterDrop } }
    s.sliceDone n inp (8 * bytes.length) last

/-- The job an encode engine runs, where it is not stalled and has frames left; `cls1` asks for the slice-emission class. -/
def State.encReady (s : State) (e : Nat) (cls1 : Bool) : Option Nat :=
  (s.cdcRunning (8 + e)).filter fun n =>
    let j := s.cdcJob n
    j.stalled.isNone && j.next < dfld j.words 1 31 16 && (eClass j.words == 1) == cls1

/-- PICTURE_CODED (R305). -/
def State.pictureCoded (s : State) (e : Nat) (ecc : Ecc) : State :=
  match s.encReady e false with
  | some n => s.codeNext n ecc
  | none => s

/-- SLICE_CODED (R305, R306). -/
def State.sliceCoded (s : State) (e : Nat) (ecc : Ecc) : State :=
  match s.encReady e true with
  | some n => s.codeNext n ecc
  | none => s

/-- ENCODE_OUTPUT_ROOM: a stalled engine whose record now fits writes it and goes on (R277). -/
def State.outputRoom (s : State) (e : Nat) : State :=
  match s.cdcRunning (8 + e) with
  | none => s
  | some n =>
    let j := s.cdcJob n
    let r := s.ringAt j.ring
    match j.stalled with
    | none => s
    | some p =>
      if (r.place (recordSize p.bytes.length)).isNone then s
      else
        s.cdcAccess n [(j.ring, 64)] (recordSpans j.ring r p.bytes.length) .clean fun s =>
          (s.setCdcJob n { j with stalled := none }).emitRecord n p.bytes p.rap false false p.afterDrop
            (dfld j.words 7 31 0 + j.next - 1)

/-- The completion record of an encode descriptor (R309). -/
def CdcJob.encRecord (j : CdcJob) : List Nat :=
  let d := j.enc
  [j.tag, d.sliceDropped.toNat + 2 * d.roiInvalid.toNat + 4 * d.contLost.toNat + 8 * d.forcedIdr.toNat, j.next, d.emitted,
   d.dropped % 2 ^ 32, d.qpMin % 2 ^ 8 + d.qpMax % 2 ^ 8 * 2 ^ 8, 0, j.index * 2 ^ 16]

/-- ENCODE_JOB_COMPLETE: every frame is coded and emitted (R309). -/
def State.encodeComplete (s : State) (e : Nat) : State :=
  match s.cdcRunning (8 + e) with
  | none => s
  | some n =>
    let j := s.cdcJob n
    if j.next < dfld j.words 1 31 16 || j.stalled.isSome then s
    else s.cdcComplete n j.encRecord j.enc.sliceDropped

/-! ### The commands -/

/-- PICTURE_CODED (R305). -/
def execPictureCoded (e : Fin 2) (ecc : Ecc) (s : State) : Host.Outcome State Fault Refusal := .next (s.pictureCoded e.val ecc)
/-- SLICE_CODED (R305). -/
def execSliceCoded (e : Fin 2) (ecc : Ecc) (s : State) : Host.Outcome State Fault Refusal := .next (s.sliceCoded e.val ecc)
/-- ENCODE_OUTPUT_ROOM (R277). -/
def execEncodeOutputRoom (e : Fin 2) (s : State) : Host.Outcome State Fault Refusal := .next (s.outputRoom e.val)
/-- ENCODE_JOB_COMPLETE (R309). -/
def execEncodeJobComplete (e : Fin 2) (s : State) : Host.Outcome State Fault Refusal := .next (s.encodeComplete e.val)

end Sys2Proof.Machine
end

