-- ==== Sys2Proof/Machine/Dispatcher.lean ====
section
/-! DEFINITION. The tower dispatchers, resumption, deadlines and freed indices (R180, R184, R227, R463, R464). -/

namespace Sys2Proof.Machine

/-- Seats of a core (R169). -/
def coreSeats : Nat := 16

/-- Threads that occupy a seat of core `k` of tower `t`. -/
def State.seatsTaken (s : State) (t k : Nat) : Nat :=
  (s.threadsWhere fun key r => keyTower key == t && s.seated key r && (s.seat key).core == k).length

/-- The core is reserved to a context other than `c` in the active settings (R463). -/
def State.coreReserved (s : State) (t k c : Nat) : Bool :=
  (List.range 16).any fun d => d != c && (tget s.step.active.sched d).reserved.testBit (64 * t + k)

/-- A thread of context `c` may be placed on core `k` of tower `t` (R464). -/
def State.coreQualifies (s : State) (t c k : Nat) : Bool :=
  (tget s.step.active.sched c).allowed.testBit (64 * t + k) && !s.coreReserved t k c && s.seatsTaken t k < coreSeats

/-- The lowest-numbered core that qualifies for a context (R464). -/
def State.coreFor (s : State) (t c : Nat) : Option Nat := (List.range 64).find? (s.coreQualifies t c)

/-- READY threads of tower `t` whose context is ACTIVE and has a core that qualifies, in READY order. -/
def State.placeable (s : State) (t : Nat) : List Nat :=
  s.thr.ready.filter fun k => keyTower k == t && s.ctxActive (s.trec k).ctx && (s.coreFor t (s.trec k).ctx).isSome

/-- The thread that the dispatcher of tower `t` serves next, of those that can be placed: one that has waited 4,096 cycles (`aged`
names the oldest by its index, R467); else by context priority, round-robin and READY order (R464). -/
def State.nextThread (s : State) (t : Nat) (aged : Option Nat) : Option Nat :=
  let cands := s.placeable t
  match (aged.map (thrKey t)).filter cands.contains with
  | some k => some k
  | none =>
    match nextCtx (tget s.thr.lastCtx t) (cands.map fun k => ((s.trec k).ctx, (s.sample (s.trec k).ctx).prio)) with
    | some c => cands.find? fun k => (s.trec k).ctx == c
    | none => none

/-- THREAD_DISPATCH: the tower's dispatcher takes the next READY thread, passing over threads for which no core qualifies, and
places it on the lowest-numbered core that does (R464); the thread samples the active settings (R41). -/
def State.dispatch (s : State) (t : Nat) (aged : Option Nat) : State :=
  match s.nextThread t aged with
  | none => s
  | some k =>
    let c := (s.trec k).ctx
    match s.coreFor t c with
    | some core =>
      let x : Seat := { (default : Seat) with core := core, sc := (s.trec k).sc, sampled := s.sample c }
      let s := (s.setRec k { s.trec k with st := .running }).setSeat k x
      let ready := s.thr.ready.filter (· != k)
      { s with thr := { s.thr with ready := ready, lastCtx := tput s.thr.lastCtx t c } }
    | none => s

/-- The stores that must be performed before a spawned thread begins to run are performed (R184). -/
def State.guardMet (s : State) (r : ThrRec) : Bool :=
  match r.guard with
  | none => true
  | some g => s.storesDone g

/-- THREAD_RESUME: the record reaches the seat, wake_value goes to the register wake_dst names unless the thread was just
spawned, and the vector and mask registers hold free values (R177, R180). -/
def State.resumeThread (s : State) (k : Nat) : State :=
  let r := s.trec k
  if r.st != .running || (s.seat k).loaded || !s.guardMet r then s
  else
    let sc := if r.reason == .spawned then r.sc else { r.sc with s := tput r.sc.s r.wakeDst r.wakeValue }
    let x : Seat := { s.seat k with loaded := true, exited := false, sc := sc, epoch := s.freeCtr, v := [], m := [] }
    { (s.setSeat k x).setRec k { r with guard := none } with freeCtr := s.freeCtr + 1 }

/-- WAIT_DEADLINE: a WAIT whose deadline has passed wakes with wake_value 1 (R181, R227). -/
def State.waitDeadline (s : State) (k : Nat) : State :=
  let r := s.trec k
  if r.st == .parked && r.reason == .wait && r.deadlineEn && r.deadlineTick ≤ s.refclk then s.wake k 1 else s

/-- THREAD_INDEX_FREE: the index of a thread that has exited returns to FREE once its stores are performed (R184). -/
def State.indexFree (s : State) (k : Nat) : State :=
  if (s.seat k).exited && (s.accs k).isEmpty then (s.setRec k default).setSeat k default else s

/-! ### The commands -/

/-- THREAD_DISPATCH (R464). -/
def execThreadDispatch (x : Turn Tower) (s : State) : Host.Outcome State Fault Refusal :=
  .next (s.dispatch x.who.val x.aged)
/-- THREAD_RESUME (R180). -/
def execThreadResume (t : Tower) (i : Nat) (s : State) : Host.Outcome State Fault Refusal :=
  .next (s.resumeThread (thrKey t.val i))
/-- WAIT_DEADLINE (R227). -/
def execWaitDeadline (t : Tower) (i : Nat) (s : State) : Host.Outcome State Fault Refusal :=
  .next (s.waitDeadline (thrKey t.val i))
/-- THREAD_INDEX_FREE (R184). -/
def execThreadIndexFree (t : Tower) (i : Nat) (s : State) : Host.Outcome State Fault Refusal :=
  .next (s.indexFree (thrKey t.val i))

end Sys2Proof.Machine
end

