-- ==== Sys2Proof/Machine/MbCodec.lean ====
section
/-! DEFINITION. The encoding of mailbox commands: opcodes, argument layouts, the bytes of a command read into it, and the objects a
command names (R442 to R446, R453). -/

namespace Sys2Proof.Machine

/-! ### Reading packed arguments (R444) -/

/-- An argument: element size, alignment, and the number of elements, `n` times the value of argument `of` where one is named. -/
structure ArgShape where
  size : Nat
  align : Nat
  n : Nat
  of : Option Nat
deriving DecidableEq, Repr

def u8 : ArgShape := ⟨1, 1, 1, none⟩
def u16 : ArgShape := ⟨2, 2, 1, none⟩
def u32 : ArgShape := ⟨4, 4, 1, none⟩
def u64 : ArgShape := ⟨8, 8, 1, none⟩
/-- An array of `n` elements. -/
def ArgShape.many (a : ArgShape) (n : Nat) : ArgShape := { a with n := n }
/-- An array of `n` elements for each unit of argument `i`. -/
def ArgShape.per (a : ArgShape) (n i : Nat) : ArgShape := { a with n := n, of := some i }

/-- The argument layout of an opcode; none where it is reserved (R453). -/
def argShapes (op : Nat) : Option (List ArgShape) :=
  match op with
  | 0x0001 => some [u8, u8, u16, u64]
  | 0x0002 => some [u8]
  | 0x0003 => some []
  | 0x0004 => some [u8]
  | 0x0005 => some [u16, u64]
  | 0x0006 => some [u16, u16, u8]
  | 0x0007 => some []
  | 0x0008 => some [u8, u8]
  | 0x0101 => some [u8, u8, u8, u16, u16]
  | 0x0102 => some [u8]
  | 0x0103 => some [u8, u8, u8, u16, u16, u64, u64]
  | 0x0104 => some [u8, u8, u32, u64, u64]
  | 0x0105 => some [u8, u8, u8, u64.many 8]
  | 0x0106 => some [u8, u8, u64, u64]
  | 0x0107 => some [u8]
  | 0x0108 => some [u8, u8, u32]
  | 0x0201 => some [u8, u8, u16, u16, u16, u16, u32, u64, u16.per 1 1]
  | 0x0202 => some []
  | 0x0203 => some [u16]
  | 0x0204 => some [u8, u8, u32.per 8 1]
  | 0x0205 => some [u32]
  | 0x0206 => some [u8, u8]
  | 0x0301 => some [u8, u8, u16, u64]
  | 0x0401 => some [u8]
  | 0x0501 => some [u8]
  | 0x0502 => some [u16, u8, u8]
  | 0x0503 => some [u8, u8, u64, u64]
  | 0x0504 => some [u8, u8]
  | 0x0505 => some [u8, u8, u32.per 8 1]
  | 0x0506 => some [u8, u32.per 1 0]
  | 0x0507 => some [u8, u16, u32]
  | 0x0508 => some [u16, u16]
  | 0x0509 => some [u16, u64.per 1 0]
  | 0x0601 => some [u8, u16, u32.many 16]
  | 0x0602 => some [u8, u16, u32, u32, u64]
  | 0x0603 => some [u8, u16, u16, u16]
  | 0x0604 => some [u8, u16]
  | 0x0701 => some []
  | 0x0702 => some [u8, u8, u8, u8, u8, u16]
  | 0x0703 => some [u8, u8, u16, u8.per 1 2]
  | 0x0704 => some [u8, u8]
  | 0x0705 => some [u32, u32, u16, u8, u8]
  | 0x0801 => some [u8, u8, u8.many 16]
  | 0x0802 => some [u16, u16, u8, u8, u8]
  | 0x0803 => some [u8, u8, { u8.per 24 1 with align := 4 }]
  | 0x0804 => some [u16, u8, u8, u8, u8, u32, u32, u32, u32, u8.many 16, u64, u64]
  | 0x0805 => some [u16]
  | 0x0806 => some [u16]
  | 0x0807 => some [u8, u8, u32, u64, u32]
  | 0x0808 => some [u8, { u8.per 20 0 with align := 4 }]
  | 0x0809 => some [u16, u8.many 16]
  | 0x0A01 => some [u32, u64]
  | 0x0A02 => some []
  | 0x0A03 => some [u8.many 32, u32, u64]
  | 0x0A04 => some [u32, u64]
  | 0x0B01 => some [u32, u32]
  | 0x0B02 => some [u8, u16]
  | _ => none

/-- The command an opcode and its argument values make; `g i` is scalar argument `i`, `l i` the elements of argument `i`. -/
def buildCmd (op : Nat) (l : Nat → List Nat) : Option MbCmd :=
  let g (i : Nat) : Nat := (l i).headD 0
  let b (i : Nat) : Byte := BitVec.ofNat 8 (g i)
  let h (i : Nat) : Half := BitVec.ofNat 16 (g i)
  let w (i : Nat) : Word := BitVec.ofNat 32 (g i)
  let d (i : Nat) : DWord := BitVec.ofNat 64 (g i)
  let bs (i : Nat) : List Byte := (l i).map (BitVec.ofNat 8)
  let hs (i : Nat) : List Half := (l i).map (BitVec.ofNat 16)
  let ws (i : Nat) : List Word := (l i).map (BitVec.ofNat 32)
  let ds (i : Nat) : List DWord := (l i).map (BitVec.ofNat 64)
  match op with
  | 0x0001 => some (.mboxOpen (b 0) (b 1) (h 2) (d 3))
  | 0x0002 => some (.mboxClose (b 0))
  | 0x0003 => some .devInfo
  | 0x0004 => some (.devReset (b 0))
  | 0x0005 => some (.regRead (h 0) (d 1))
  | 0x0006 => some (.eventMask (h 0) (h 1) (b 2))
  | 0x0007 => some .telemetryRead
  | 0x0008 => some (.sscSet (b 0) (b 1))
  | 0x0101 => some (.ctxCreate (b 0) (b 1) (b 2) (h 3) (h 4))
  | 0x0102 => some (.ctxDestroy (b 0))
  | 0x0103 => some (.ctxQueueSet (b 0) (b 1) (b 2) (h 3) (h 4) (d 5) (d 6))
  | 0x0104 => some (.ctxSpawn (b 0) (b 1) (w 2) (d 3) (d 4))
  | 0x0105 => some (.ctxSchedSet (b 0) (b 1) (b 2) (ds 3))
  | 0x0106 => some (.lanternSet (b 0) (b 1) (d 2) (d 3))
  | 0x0107 => some (.ctxFaultRead (b 0))
  | 0x0108 => some (.kvTimeoutSet (b 0) (b 1) (w 2))
  | 0x0201 => some (.stepGroupCreate (b 0) (b 1) (h 2) (h 3) (h 4) (h 5) (w 6) (d 7) (hs 8))
  | 0x0202 => some .stepGroupDissolve
  | 0x0203 => some (.epochSet (h 0))
  | 0x0204 => some (.bankTableSet (b 0) (b 1) (ws 2))
  | 0x0205 => some (.stepTimeoutSet (w 0))
  | 0x0206 => some (.phaseTableRead (b 0) (b 1))
  | 0x0301 => some (.biasLoad (b 0) (b 1) (h 2) (d 3))
  | 0x0401 => some (.codecMaint (b 0))
  | 0x0501 => some (.memLocalSet (b 0))
  | 0x0502 => some (.memCalSet (h 0) (b 1) (b 2))
  | 0x0503 => some (.memStatsSet (b 0) (b 1) (d 2) (d 3))
  | 0x0504 => some (.memStatsRead (b 0) (b 1))
  | 0x0505 => some (.mirrorTableSet (b 0) (b 1) (ws 2))
  | 0x0506 => some (.snapshotListSet (b 0) (ws 1))
  | 0x0507 => some (.snapshotScheduleSet (b 0) (h 1) (w 2))
  | 0x0508 => some (.repairListGet (h 0) (h 1))
  | 0x0509 => some (.repairListPut (h 0) (ds 1))
  | 0x0601 => some (.redGroupSet (b 0) (h 1) (ws 2))
  | 0x0602 => some (.redBucketsSet (b 0) (h 1) (w 2) (w 3) (d 4))
  | 0x0603 => some (.redScaleSet (b 0) (h 1) (h 2) (h 3))
  | 0x0604 => some (.redGroupRead (b 0) (h 1))
  | 0x0701 => some .fabPortsRead
  | 0x0702 => some (.fabAddrSet (b 0) (b 1) (b 2) (b 3) (b 4) (h 5))
  | 0x0703 => some (.fabRouteSet (b 0) (b 1) (h 2) (bs 3))
  | 0x0704 => some (.fabPortCtl (b 0) (b 1))
  | 0x0705 => some (.fabCfgSet (w 0) (w 1) (h 2) (b 3) (b 4))
  | 0x0801 => some (.hostAddrSet (b 0) (b 1) (bs 2))
  | 0x0802 => some (.hostPortSet (h 0) (h 1) (b 2) (b 3) (b 4))
  | 0x0803 => some (.hostNeighSet (b 0) (b 1) (bs 2))
  | 0x0804 => some (.qpSet (h 0) (b 1) (b 2) (b 3) (b 4) (w 5) (w 6) (w 7) (w 8) (bs 9) (d 10) (d 11))
  | 0x0805 => some (.qpReset (h 0))
  | 0x0806 => some (.qpQuery (h 0))
  | 0x0807 => some (.windowSet (b 0) (b 1) (w 2) (d 3) (w 4))
  | 0x0808 => some (.allowSet (b 0) (bs 1))
  | 0x0809 => some (.eventEndpointSet (h 0) (bs 1))
  | 0x0A01 => some (.fwStage (w 0) (d 1))
  | 0x0A02 => some .fwActivate
  | 0x0A03 => some (.attest (bs 0) (w 1) (d 2))
  | 0x0A04 => some (.identityRead (w 0) (d 1))
  | 0x0B01 => some (.failureReport (w 0) (w 1))
  | 0x0B02 => some (.mirrorRefill (b 0) (h 1))
  | _ => none

/-- The next multiple of `a`. -/
def alignUp (n a : Nat) : Nat := (n + a - 1) / a * a

/-- All bytes are 0. -/
def zeros (bs : List Byte) : Bool := bs.all (· == 0)

/-- The arguments laid out in `bs` from offset `pos`; none where a skipped byte is not 0 or the bytes end early. -/
def readArgs (bs : List Byte) (shapes : List ArgShape) (got : List (List Nat)) (pos : Nat) : Option (List (List Nat) × Nat) :=
  match shapes with
  | [] => some (got, pos)
  | a :: rest =>
    let at_ := alignUp pos a.align
    let n := match a.of with
      | some i => a.n * (got.getD i []).headD 0
      | none => a.n
    if at_ + n * a.size ≤ bs.length && zeros ((bs.drop pos).take (at_ - pos)) then
      let v := (List.range n).map fun i => leOf ((bs.drop (at_ + i * a.size)).take a.size)
      readArgs bs rest (got ++ [v]) (at_ + n * a.size)
    else none

/-- Word `i` of a command's header. -/
def cmdWord (bs : List Byte) (i : Nat) : Nat := leOf ((bs.drop (4 * i)).take 4)

/-- The header of a command that came to mailbox `mb` (R442). -/
def cmdHdr (mb : MboxId) (bs : List Byte) : CmdHdr :=
  { mb := mb, tag := BitVec.ofNat 16 (cmdWord bs 1), deadline := BitVec.ofNat 32 (cmdWord bs 2) }

/-- The command in a slot or a datagram body; none where the header, the opcode, the length or a skipped byte is illegal (R442,
R444, R446). -/
def parseCmd (bs : List Byte) : Option MbCmd :=
  let op := cmdWord bs 0 % 2 ^ 16
  let len := cmdWord bs 0 / 2 ^ 16
  if bs.length < len || len < 16 || 1024 < len || len % 4 != 0 || cmdWord bs 1 / 2 ^ 16 != 0 || cmdWord bs 3 != 0 then none
  else
    match argShapes op with
    | none => none
    | some shapes =>
      match readArgs (bs.take len) shapes [] 16 with
      | none => none
      | some (args, pos) =>
        if alignUp pos 4 == len && zeros (((bs.take len).drop pos)) then buildCmd op fun i => args.getD i [] else none

/-! ### What a command is -/

/-- The opcode of a command (R453). -/
def MbCmd.op (c : MbCmd) : Nat :=
  match c with
  | .mboxOpen .. => 0x0001 | .mboxClose .. => 0x0002 | .devInfo => 0x0003 | .devReset .. => 0x0004
  | .regRead .. => 0x0005 | .eventMask .. => 0x0006 | .telemetryRead => 0x0007 | .sscSet .. => 0x0008
  | .ctxCreate .. => 0x0101 | .ctxDestroy .. => 0x0102 | .ctxQueueSet .. => 0x0103 | .ctxSpawn .. => 0x0104
  | .ctxSchedSet .. => 0x0105 | .lanternSet .. => 0x0106 | .ctxFaultRead .. => 0x0107 | .kvTimeoutSet .. => 0x0108
  | .stepGroupCreate .. => 0x0201 | .stepGroupDissolve => 0x0202 | .epochSet .. => 0x0203 | .bankTableSet .. => 0x0204
  | .stepTimeoutSet .. => 0x0205 | .phaseTableRead .. => 0x0206
  | .biasLoad .. => 0x0301 | .codecMaint .. => 0x0401
  | .memLocalSet .. => 0x0501 | .memCalSet .. => 0x0502 | .memStatsSet .. => 0x0503 | .memStatsRead .. => 0x0504
  | .mirrorTableSet .. => 0x0505 | .snapshotListSet .. => 0x0506 | .snapshotScheduleSet .. => 0x0507
  | .repairListGet .. => 0x0508 | .repairListPut .. => 0x0509
  | .redGroupSet .. => 0x0601 | .redBucketsSet .. => 0x0602 | .redScaleSet .. => 0x0603 | .redGroupRead .. => 0x0604
  | .fabPortsRead => 0x0701 | .fabAddrSet .. => 0x0702 | .fabRouteSet .. => 0x0703 | .fabPortCtl .. => 0x0704
  | .fabCfgSet .. => 0x0705
  | .hostAddrSet .. => 0x0801 | .hostPortSet .. => 0x0802 | .hostNeighSet .. => 0x0803 | .qpSet .. => 0x0804
  | .qpReset .. => 0x0805 | .qpQuery .. => 0x0806 | .windowSet .. => 0x0807 | .allowSet .. => 0x0808
  | .eventEndpointSet .. => 0x0809
  | .fwStage .. => 0x0A01 | .fwActivate => 0x0A02 | .attest .. => 0x0A03 | .identityRead .. => 0x0A04
  | .failureReport .. => 0x0B01 | .mirrorRefill .. => 0x0B02

/-! ### Writing a command (R442, R444) -/

/-- The arguments of a command in the order of its layout, each as its elements (R453). -/
def MbCmd.args (c : MbCmd) : List (List Nat) :=
  let v {n : Nat} (x : BitVec n) : List Nat := [x.toNat]
  let vs {n : Nat} (x : List (BitVec n)) : List Nat := x.map (·.toNat)
  match c with
  | .mboxOpen a b c d => [v a, v b, v c, v d]
  | .mboxClose a => [v a]
  | .devInfo => []
  | .devReset a => [v a]
  | .regRead a b => [v a, v b]
  | .eventMask a b c => [v a, v b, v c]
  | .telemetryRead => []
  | .sscSet a b => [v a, v b]
  | .ctxCreate a b c d e => [v a, v b, v c, v d, v e]
  | .ctxDestroy a => [v a]
  | .ctxQueueSet a b c d e f g => [v a, v b, v c, v d, v e, v f, v g]
  | .ctxSpawn a b c d e => [v a, v b, v c, v d, v e]
  | .ctxSchedSet a b c l => [v a, v b, v c, vs l]
  | .lanternSet a b c d => [v a, v b, v c, v d]
  | .ctxFaultRead a => [v a]
  | .kvTimeoutSet a b c => [v a, v b, v c]
  | .stepGroupCreate a b c d e f g h l => [v a, v b, v c, v d, v e, v f, v g, v h, vs l]
  | .stepGroupDissolve => []
  | .epochSet a => [v a]
  | .bankTableSet a b l => [v a, v b, vs l]
  | .stepTimeoutSet a => [v a]
  | .phaseTableRead a b => [v a, v b]
  | .biasLoad a b c d => [v a, v b, v c, v d]
  | .codecMaint a => [v a]
  | .memLocalSet a => [v a]
  | .memCalSet a b c => [v a, v b, v c]
  | .memStatsSet a b c d => [v a, v b, v c, v d]
  | .memStatsRead a b => [v a, v b]
  | .mirrorTableSet a b l => [v a, v b, vs l]
  | .snapshotListSet a l => [v a, vs l]
  | .snapshotScheduleSet a b c => [v a, v b, v c]
  | .repairListGet a b => [v a, v b]
  | .repairListPut a l => [v a, vs l]
  | .redGroupSet a b l => [v a, v b, vs l]
  | .redBucketsSet a b c d e => [v a, v b, v c, v d, v e]
  | .redScaleSet a b c d => [v a, v b, v c, v d]
  | .redGroupRead a b => [v a, v b]
  | .fabPortsRead => []
  | .fabAddrSet a b c d e f => [v a, v b, v c, v d, v e, v f]
  | .fabRouteSet a b c l => [v a, v b, v c, vs l]
  | .fabPortCtl a b => [v a, v b]
  | .fabCfgSet a b c d e => [v a, v b, v c, v d, v e]
  | .hostAddrSet a b l => [v a, v b, vs l]
  | .hostPortSet a b c d e => [v a, v b, v c, v d, v e]
  | .hostNeighSet a b l => [v a, v b, vs l]
  | .qpSet a b c d e f g h i l m n => [v a, v b, v c, v d, v e, v f, v g, v h, v i, vs l, v m, v n]
  | .qpReset a => [v a]
  | .qpQuery a => [v a]
  | .windowSet a b c d e => [v a, v b, v c, v d, v e]
  | .allowSet a l => [v a, vs l]
  | .eventEndpointSet a l => [v a, vs l]
  | .fwStage a b => [v a, v b]
  | .fwActivate => []
  | .attest l a b => [vs l, v a, v b]
  | .identityRead a b => [v a, v b]
  | .failureReport a b => [v a, v b]
  | .mirrorRefill a b => [v a, v b]

/-- The bytes of arguments laid out from offset `pos`, skipped bytes 0 (R444). -/
def writeArgs (shapes : List ArgShape) (args : List (List Nat)) (pos : Nat) : List Byte :=
  match shapes, args with
  | a :: shapes, l :: args =>
    let at_ := alignUp pos a.align
    List.replicate (at_ - pos) 0 ++ l.flatMap (bytesOf a.size) ++ writeArgs shapes args (at_ + l.length * a.size)
  | _, _ => []

/-- Every argument has the number of elements that its layout and the arguments before it give (R444). -/
def argsFit (shapes : List ArgShape) (args got : List (List Nat)) : Bool :=
  match shapes, args with
  | [], [] => true
  | a :: shapes, l :: args =>
    let n := match a.of with
      | some i => a.n * (got.getD i []).headD 0
      | none => a.n
    l.length == n && argsFit shapes args (got ++ [l])
  | _, _ => false

/-- A command as it stands in a slot: the header, the arguments, and zeros up to a multiple of 4 bytes (R442, R444). -/
def encodeCmd (c : MbCmd) (tag : Half) (deadline : Word) : List Byte :=
  let args := writeArgs ((argShapes c.op).getD []) c.args 16
  let len := alignUp (16 + args.length) 4
  bytesOf 4 (c.op + len * 2 ^ 16) ++ bytesOf 4 tag.toNat ++ bytesOf 4 deadline.toNat ++ bytesOf 4 0 ++ args
    ++ List.replicate (len - (16 + args.length)) 0

/-- A command that fits a slot: the lists it holds have the lengths their counts give, and it takes at most 1,024 bytes (R442,
R444). -/
def MbCmd.fits (c : MbCmd) : Bool :=
  argsFit ((argShapes c.op).getD []) c.args [] && (encodeCmd c 0 0).length ≤ 1024

/-- The opcodes marked "0" in the Mb column: accepted on mailbox 0 alone (R453). -/
def mbox0Only : List Nat :=
  [0x0001, 0x0002, 0x0004, 0x0401, 0x0501, 0x0509, 0x0702, 0x0703, 0x0704, 0x0705, 0x0801, 0x0802, 0x0803, 0x0808, 0x0809,
   0x0A01, 0x0A02, 0x0B01, 0x0B02]

/-- An object a command names (R445). -/
inductive MbObj where
  | ctx (c : Nat) | step | group (g : Nat) | bank (p : Nat) | mirror (e : Nat) | port (p : Nat) | qp (q : Nat) | window (w : Nat)
deriving DecidableEq, Repr

/-- The numbers from `first`, `count` of them. -/
def span (first count : Nat) : List Nat := List.range' first count

/-- The objects a command names: context, step group, reduction group, bank pair, mirror entry, fabric port, queue pair and window
(R445). -/
def MbCmd.objects (c : MbCmd) : List MbObj :=
  match c with
  | .ctxCreate x .. => [.ctx x.toNat] | .ctxDestroy x => [.ctx x.toNat] | .ctxQueueSet x .. => [.ctx x.toNat]
  | .ctxSpawn x .. => [.ctx x.toNat] | .ctxSchedSet x .. => [.ctx x.toNat] | .ctxFaultRead x => [.ctx x.toNat]
  | .kvTimeoutSet x .. => [.ctx x.toNat]
  | .lanternSet .. => [.ctx 15]
  | .stepGroupCreate _ _ m .. => .step :: ((List.range 15).filter m.toNat.testBit).map .ctx
  | .stepGroupDissolve => [.step] | .epochSet _ => [.step] | .stepTimeoutSet _ => [.step]
  | .bankTableSet f n _ => (span f.toNat n.toNat).map .bank
  | .snapshotListSet _ ws => ws.flatMap fun w => if w.toNat < 2 ^ 31 then [] else [.bank (w.toNat % 16)]
  | .fabAddrSet .. => (List.range 6).map .port
  | .mirrorTableSet f n _ => (span f.toNat n.toNat).map .mirror
  | .mirrorRefill e _ => [.mirror e.toNat]
  | .redGroupSet g .. => [.group g.toNat] | .redBucketsSet g .. => [.group g.toNat] | .redScaleSet g .. => [.group g.toNat]
  | .redGroupRead g _ => [.group g.toNat]
  | .fabPortCtl p _ => [.port p.toNat]
  | .qpSet q .. => [.qp q.toNat] | .qpReset q => [.qp q.toNat] | .qpQuery q => [.qp q.toNat]
  | .windowSet w .. => [.window w.toNat]
  | _ => []

/-! ### What a command's execution answers -/

/-- The outcome of a command: OK with its reply body; another status; a wait under R450; an uncorrectable error of the data it
reads; a reset that follows its reply. -/
inductive MbRes where
  | ok (body : List Byte) (s : State)
  | fail (st : Status) (s : State)
  | wait (s : State)
  | media (addr : Nat)
  | reset (cause : Nat) (s : State)

/-- The checks of a command in the order of R446: the first that holds gives the status; where none does, the command runs. -/
def State.checks (s : State) (l : List (Bool × Status)) (run : MbRes) : MbRes :=
  match l.find? (·.1) with
  | some x => .fail x.2 s
  | none => run

/-- A u64 address argument has bits [63:48] equal to 0 (R444). -/
def farAddr (a : DWord) : Bool := a.toNat ≥ 2 ^ 48

/-- [a, a + n) lies wholly in one region: HBM, or one kind of memory of one drum. -/
def inOneRegion (a n : Nat) : Bool := regionOf a != .reserved && regionOf a == regionOf (a + n - 1)

/-- [a, a + n) lies wholly in HBM (R448). -/
def inHbm (a n : Nat) : Bool := a + n ≤ 0x018000000000

/-- The address lies in the queue and descriptor memory of a drum. -/
def inQueueMem (a : Nat) : Bool :=
  match regionOf a with
  | .queueMem _ => true
  | _ => false

/-- HBM or drum SRAM that Lumdom reads or writes. -/
def inDeviceMem (a : Nat) : Bool :=
  match regionOf a with
  | .hbm => true
  | .scratch _ => true
  | .queueMem _ => true
  | _ => false

end Sys2Proof.Machine
end

