-- ==== Sys2Proof/Machine/MbDevice.lean ====
section
/-! DEFINITION. The mailbox commands of the device, its contexts and the step group (R453: 0x0001 to 0x0206). -/

namespace Sys2Proof.Machine

/-! ### Device and mailboxes -/

/-- MBOX_OPEN: a mailbox opens with its ring and holds no seq (R439, R440). -/
def State.cmdMboxOpen (s : State) (mbox flags : Byte) (slots : Half) (base : DWord) : MbRes :=
  let m := mbox.toNat
  let a := base.toNat
  let n := slots.toNat
  s.checks [
    (flags.toNat > 1, .badCommand),
    (m == 0 || m > 63 || n == 0 || n > 256 || farAddr base || a % 1024 != 0, .badArgument),
    (!inQueueMem a || !inOneRegion a (n * 1024), .lengthRange),
    ((s.mbox m).isOpen, .wrongState)]
  (.ok [] (s.setMbox m { (default : Mbox) with isOpen := true, base := a, slots := n, replies := flags == 1 }))

/-- MBOX_CLOSE: once no command of the mailbox executes or waits, it closes and its commands not taken are gone (R452). -/
def State.cmdMboxClose (s : State) (mbox : Byte) : MbRes :=
  let m := mbox.toNat
  s.checks [
    (m == 0 || m > 63, .badArgument),
    (!(s.mbox m).isOpen, .wrongState)]
  (if s.host.waiting.any fun x => x.hdr.mb.val == m then .wait s else .ok [] (s.setMbox m default))

/-- DEV_INFO: serial, chain index, fabric address, firmware and ready bits. -/
def State.cmdDevInfo (s : State) : MbRes :=
  .ok (bytesOf 8 Config.serial.toNat ++ bytesOf 2 (s.fld .ctlSeamStat 0 0 ctlSeamStat_index) ++ bytesOf 2 s.fabAddr
    ++ bytesOf 4 s.pwr.version ++ bytesOf 4 s.pwr.svn ++ bytesOf 4 (s.reg .ctlIslandReady 0 0).toNat) s

/-- DEV_RESET: a reset of cause 2 once the reply is sent (R525). -/
def State.cmdDevReset (s : State) (kind : Byte) : MbRes := s.checks [(kind != 0, .badArgument)] (.reset 2 s)

/-- Registers read one after another, RC fields clearing (R7). -/
def State.readRegs (s : State) (l : List (RegId × Nat × Nat)) : List Byte × State :=
  l.foldl (fun x r => let y := x.2.readReg r.1 r.2.1 r.2.2; (x.1 ++ bytesOf 4 y.1.toNat, y.2)) ([], s)

/-- REG_READ: consecutive registers; an unassigned address among them is an ADDRESS_FAULT and nothing is read. -/
def State.cmdRegRead (s : State) (count : Half) (addr : DWord) : MbRes :=
  let n := count.toNat
  let a := addr.toNat
  let at_ := (List.range n).map fun i => regAt (a + 4 * i)
  s.checks [
    (n == 0 || n > 64 || farAddr addr || a % 4 != 0 || regionOf a != .regSpace, .badArgument),
    (regionOf (a + 4 * n - 1) != .regSpace, .lengthRange),
    (at_.any (·.isNone), .addressFault)]
  (let x := s.readRegs (at_.filterMap id)
   .ok x.1 x.2)

/-- EVENT_MASK: host_mask of a range of sources; a reserved source keeps its reset value (R504, R506). -/
def State.cmdEventMask (s : State) (first count : Half) (masked : Byte) : MbRes :=
  let f := first.toNat
  let n := count.toNat
  s.checks [
    (n == 0 || n > 1024 || masked.toNat > 1, .badArgument),
    (f + n > 1024, .lengthRange)]
  (.ok [] (s.each (span f n) fun s i =>
    if srcListed i then s.setFld .irqSrcCfg 0 i irqSrcCfg_hostMask masked.toNat else s))

/-- TELEMETRY_READ: the last complete sample, whole (R531); zeros before the first. -/
def State.cmdTelemetryRead (s : State) : MbRes :=
  .ok ((List.range 64).flatMap fun i => bytesOf 4 (s.pwr.telemetry.getD i 0).toNat) s

/-- A change of the open copy of the shadowed settings (R449). -/
def State.setOpen (s : State) (f : Shadow → Shadow) : State := { s with step := { s.step with openSet := f s.step.openSet } }

/-- SSC_SET: depth and rate of the spread spectrum (R520). -/
def State.cmdSscSet (s : State) (depth rate : Byte) : MbRes :=
  s.checks [(depth.toNat > 20 || rate.toNat < 30 || rate.toNat > 63, .badArgument)]
  (.ok [] (s.setOpen fun x => { x with sscDepth := depth.toNat, sscRate := rate.toNat }))

/-! ### Contexts -/

/-- CTX_CREATE: the context takes the lowest free slots of every tower, its thread range and the default settings (R458, R459,
R570); VEC_CTX_CFG and VEC_THR_RANGE are written in every tower (R173, R193). -/
def State.cmdCtxCreate (s : State) (ctx slotb slots : Byte) (thrBase thrCount : Half) : MbRes :=
  let c := ctx.toNat
  let n := slots.toNat
  let b := thrBase.toNat
  let m := thrCount.toNat
  let meets := (List.range 16).any fun d =>
    d != c && s.ctxState d != 0 && rangesMeet (64 * b) (64 * m) (s.thrBase 0 d) (s.thrCount 0 d)
  s.checks [
    (c > 15 || slotb.toNat > 1 || n > 32 || b > 4095 || m > 4096, .badArgument),
    (b + m > 4096 || (List.range 8).any (fun t => (s.freeSlots t).length < n), .lengthRange),
    (s.ctxState c != 0 || meets, .wrongState)]
  (let masks := (List.range 8).map fun t => ((s.freeSlots t).take n).foldl (fun a p => a + 2 ^ p) 0
   let all := masks.zipIdx.foldl (fun a x => a + x.1 * 2 ^ (32 * x.2)) 0
   let s := s.each (List.range 8) fun s t =>
     (s.writeCtxCfg t c (BitVec.ofNat 32 slotb.toNat)).writeThrRange t c (BitVec.ofNat 32 (b + m * 2 ^ 12))
   let s := (s.setFld .ctlCtxState 0 c ctlCtxState_state 1).unhaltQueues c
   let s := { s with ctx := { s.ctx with
     faults := tput s.ctx.faults c none, destroying := tput s.ctx.destroying c false, slotMask := tput s.ctx.slotMask c all } }
   .ok (masks.flatMap (bytesOf 4)) (s.defaultSettings c))

/-- CTX_DESTROY: the teardown starts at once, and the reply follows when the context is NONE (R456, R473). -/
def State.cmdCtxDestroy (s : State) (ctx : Byte) : MbRes :=
  let c := ctx.toNat
  s.checks [(c > 15 || s.ctxState c == 0, .notFound)]
  (let s := s.destroyCtx c
   if s.ctxState c == 0 then .ok [] s else .wait s)

/-- The queue kind of a CTX_QUEUE_SET kind field; none for the page pool. -/
def kindOf (n : Nat) : Option QKind := [QKind.matrix, .sleeve, .mover, .reduction, .decode, .encode][n]?

/-- A ring of `n` bytes at `a` lies in the memory its queue requires (R86, R262, R276). -/
def ringOk (k : QKind) (t a n : Nat) : Bool := cqRegionOk k t a && inOneRegion a n

/-- CTX_QUEUE_SET of a descriptor queue: new bases and sizes, and heads and tails 0 (R122). -/
def State.cmdQueue (s : State) (c : Nat) (k : QKind) (t n m a b : Nat) : MbRes :=
  s.checks [
    (n == 0 || m == 0 || a % 128 != 0 || b % 32 != 0, .badArgument),
    (c > 15 || s.ctxState c == 0, .notFound),
    (!ringOk k t a (n * descBytes k) || !ringOk k t b (m * 32), .lengthRange),
    (s.qHasWork k t c, .wrongState)]
  (let q := qRegs k
   let u := qTower k t
   let put (s : State) (lo hi : RegId) (a n : Nat) : State :=
     (s.setReg lo u c (BitVec.ofNat 32 a)).setReg hi u c (BitVec.ofNat 32 (a / 2 ^ 32 + n * 2 ^ 16))
   let s := put (put s q.baseLo q.baseHi a n) q.cqLo q.cqHi b m
   let s := (s.setFld q.head u c mtxQHead_head 0).setFld q.tail u c mtxQTail_tail 0
   .ok [] ((s.setFld q.cqHead u c mtxCqHead_head 0).setFld q.cqTail u c mtxCqTail_tail 0))

/-- CTX_QUEUE_SET of the page pool (R262, R272). -/
def State.cmdPool (s : State) (c t n a : Nat) : MbRes :=
  s.checks [
    (n == 0 || a % 16 != 0, .badArgument),
    (c > 15 || s.ctxState c == 0, .notFound),
    (regionOf a != .queueMem t || !inOneRegion a (n * 16), .lengthRange),
    (s.poolHead t c != s.poolTail t c || !(s.starved t c).isEmpty, .wrongState)]
  (let s := s.setReg .atnPoolBaseLo t c (BitVec.ofNat 32 a)
   let s := s.setReg .atnPoolBaseHi t c (BitVec.ofNat 32 (a / 2 ^ 32 + n * 2 ^ 16))
   .ok [] ((s.setFld .atnPoolHead t c atnPoolHead_head 0).setFld .atnPoolTail t c atnPoolTail_tail 0))

/-- CTX_QUEUE_SET; the tower is not looked at for the codec queues. -/
def State.cmdCtxQueueSet (s : State) (ctx kind tower : Byte) (ringSize cqSize : Half) (ring cq : DWord) : MbRes :=
  let c := ctx.toNat
  let t := tower.toNat
  let k := kind.toNat
  s.checks [
    (k > 6 || (t > 7 && k != 4 && k != 5) || farAddr ring || (farAddr cq && k != 6), .badArgument)]
  (match kindOf k with
   | some q => s.cmdQueue c q t ringSize.toNat cqSize.toNat ring.toNat cq.toNat
   | none => s.cmdPool c t ringSize.toNat ring.toNat)

/-- CTX_SPAWN: threads of a context, with the status of SPAWN (R183); a refusal changes no state (R446). -/
def State.cmdCtxSpawn (s : State) (ctx tower : Byte) (count : Word) (pc arg : DWord) : MbRes :=
  let c := ctx.toNat
  s.checks [
    (tower.toNat > 7 || farAddr pc || pc.toNat % 8 != 0, .badArgument),
    (c > 15 || s.ctxState c == 0, .notFound),
    (!s.ctxActive c, .wrongState)]
  (match s.spawnThreads tower.toNat c count.toNat pc.toNat arg 0 false 0x3FFFF none with
   | (.ok, s) => .ok [] s
   | (st, _) => .fail st s)

/-- Cores of tower `t` that contexts other than `c` reserve in the open copies (R463). -/
def State.otherReserved (s : State) (c t : Nat) : List Nat :=
  (List.range 64).filter fun k => (List.range 16).any fun d =>
    d != c && s.ctxState d != 0 && (tget s.step.openSet.sched d).reserved.testBit (64 * t + k)

/-- The `n` lowest cores of tower `t` in an allowed mask that no other context reserves (R463). -/
def State.pickCores (s : State) (c t n mask : Nat) : List Nat :=
  ((List.range 64).filter fun k => mask.testBit k && !(s.otherReserved c t).contains k).take n

/-- CTX_SCHED_SET: priority, reserved and allowed cores in the open copy (R463). -/
def State.cmdCtxSchedSet (s : State) (ctx prio reserved : Byte) (allowed : List DWord) : MbRes :=
  let c := ctx.toNat
  let n := reserved.toNat
  let mask (t : Nat) : Nat := (allowed.getD t 0).toNat
  let picked (t : Nat) : List Nat := s.pickCores c t n (mask t)
  s.checks [
    (c == 15 || prio.toNat > 7 || n > 64, .badArgument),
    (c > 15 || s.ctxState c == 0, .notFound),
    ((List.range 8).any (fun t => (picked t).length < n), .wrongState)]
  (let res := (List.range 8).foldl (fun a t => (picked t).foldl (fun a k => a + 2 ^ (64 * t + k)) a) 0
   let all := (List.range 8).foldl (fun a t => a + mask t * 2 ^ (64 * t)) 0
   .ok [] (s.setOpen fun x => { x with sched := tput x.sched c { prio := prio.toNat, reserved := res, allowed := all } }))

/-- LANTERN_SET: cores, issue windows and region of context 15 in the open copy (R461). -/
def State.cmdLanternSet (s : State) (cores windows : Byte) (base size : DWord) : MbRes :=
  let n := cores.toNat
  let takes := (List.range 8).any fun t => (s.otherReserved 15 t).any fun k => 64 - n ≤ k
  s.checks [
    (n == 0 || n > 64 || windows.toNat > 16 || farAddr base, .badArgument),
    (base.toNat + size.toNat ≥ 2 ^ 48, .lengthRange),
    (takes, .wrongState)]
  (let l : Lantern := { cores := n, windows := windows.toNat, base := base.toNat, size := size.toNat }
   let sched (x : Shadow) : Tbl Sched := if s.ctxState 15 == 0 then x.sched else tput x.sched 15 (lanternSched n)
   .ok [] (s.setOpen fun x => { x with lantern := l, sched := sched x }))

/-- CTX_FAULT_READ: the fault record of a FAULTED context (R476). -/
def State.cmdCtxFaultRead (s : State) (ctx : Byte) : MbRes :=
  let c := ctx.toNat
  s.checks [
    (c > 15 || s.ctxState c == 0, .notFound),
    (s.ctxState c != 3, .wrongState)]
  (match tget s.ctx.faults c with
   | some r => .ok (r.words.flatMap (bytesOf 4)) s
   | none => .fail .wrongState s)

/-- KV_TIMEOUT_SET: ATN_PAGE_TIMEOUT of a context in the towers of a mask (R267, R272). -/
def State.cmdKvTimeoutSet (s : State) (ctx mask : Byte) (ticks : Word) : MbRes :=
  let c := ctx.toNat
  s.checks [
    (ticks == 0, .badArgument),
    (c > 15 || s.ctxState c == 0, .notFound)]
  (.ok [] (s.each ((List.range 8).filter mask.toNat.testBit) fun s t => s.setReg .atnPageTimeout t c ticks))

/-! ### The step group -/

/-- The bank pairs in use take the content step and bank 0 that a new step group gives them (R486). -/
def State.seedBanks (s : State) (n : Word) : State :=
  let put (l : Tbl Word) : Tbl Word := s.step.active.pairs.foldl (fun l p => tput l p n) l
  { s.setReg .ctlBankCurrent 0 0 0 with step := { s.step with contentA := put s.step.contentA, contentB := put s.step.contentB } }

/-- STEP_GROUP_CREATE: the group runs from its first step; the open settings become staged and active, as at boundary
first_step − 1 (R460); the members below this device are counted (R481). DESIGN CHOICE (log entry 80): this boundary writes no
phase-table entry, which R55 gives a commit or an abort. -/
def State.createGroup (s : State) (tag : Byte) (members flags parent epoch : Half) (firstStep : Word) (seed : DWord)
    (children : List Half) : State :=
  let s := s.setOpen fun x => { x with epoch := epoch }
  let s := s.stageScales s.activeEpoch
  let s := ({ s with step := { s.step with staged := s.step.openSet } }).activate
  let s := s.setReg .ctlStepNumber 0 0 firstStep
  let s := ((s.setGroupState 1).setFld .ctlStepState 0 0 ctlStepState_isRoot (flags.toNat % 2)).setFld
    .ctlStepState 0 0 ctlStepState_lastSkipped 0
  let s := (s.setReg .ctlSrSeedLo 0 0 (seed.truncate 32)).setReg .ctlSrSeedHi 0 0 (seed.extractLsb' 32 32)
  let s := s.each (List.range 15) fun s c => s.setFld .ctlCtxState 0 c ctlCtxState_member (members.toNat.testBit c).toNat
  let s := { s with step := { s.step with
    groupTag := tag, parent := parent, children := children, vote := false, arrives := [], arriveSent := false, seen := [],
    size := 0, counted := 0, countsDue := children.length, startTick := s.refclk, arriveTick := none, timedOut := false,
    phases := [] } }
  let s := ((s.seedBanks (firstStep - 1)).redecide).releaseHeld
  let s := s.promote.latchInterference
  if children.isEmpty then s.tellSize else s

/-- STEP_GROUP_CREATE (R32, R453). -/
def State.cmdStepGroupCreate (s : State) (tag n : Byte) (members flags parent epoch : Half) (firstStep : Word) (seed : DWord)
    (children : List Half) : MbRes :=
  s.checks [
    (members.toNat ≥ 2 ^ 15 || flags.toNat > 1, .badCommand),
    (n.toNat > 8, .badArgument),
    (s.groupState != 0 || (List.range 15).any (fun c => members.toNat.testBit c && s.ctxState c == 0), .wrongState)]
  (.ok [] (s.createGroup tag members flags parent epoch firstStep seed children))

/-- STEP_GROUP_DISSOLVE: a group that runs or is at local arrival aborts first; then its members leave it, their BAR.EOS waiters
wake with all ones and their queues resume (R44, R475). -/
def State.cmdStepGroupDissolve (s : State) : MbRes :=
  s.checks [(s.groupState == 0, .notFound)]
  (let s := s.stepAbort none
   let l := s.members
   let s := (s.setGroupState 0).setFld .ctlStepState 0 0 ctlStepState_isRoot 0
   let s := s.each l fun s c =>
     (((s.wakeEos c (BitVec.allOnes 64)).eosRelease c).eosReleaseCodec c).setFld .ctlCtxState 0 c ctlCtxState_member 0
   let st := { s.step with children := [], arrives := [], arriveSent := false, arriveTick := none, size := 0, countsDue := 0 }
   .ok [] { s with step := st, ctx := { s.ctx with periodTick := s.refclk } })

/-- EPOCH_SET: the open layout epoch; a value R53 refuses changes nothing but epoch_write_rejected, which R53 makes the device set
when it refuses the write. -/
def State.cmdEpochSet (s : State) (epoch : Half) : MbRes :=
  let a := s.activeEpoch
  if epoch.toNat == a || epoch.toNat == (a + 1) % 2 ^ 16 then .ok [] (s.setOpen fun x => { x with epoch := epoch })
  else .fail .badArgument (s.flag .ctlStepErr 0 0 ctlStepErr_epochWriteRejected)

/-- Consecutive groups of `n` elements. -/
def chunksOf {α : Type} (n k : Nat) (l : List α) : List (List α) := (List.range k).map fun i => (l.drop (n * i)).take n

/-- A 4 KiB-aligned base in two words of a table entry: low bits in [31:12], high bits in [15:0]. -/
def pageBase (lo hi : Nat) : Nat := lo + hi % 2 ^ 16 * 2 ^ 32

/-- A bank pair of eight words (R50). -/
def pairOfWords (w : List Nat) : BankPair :=
  { baseA := pageBase (w.getD 0 0) (w.getD 1 0), baseB := pageBase (w.getD 2 0) (w.getD 3 0), size := w.getD 4 0 }

/-- A reserved bit of a bank pair's words is set; words 5 and 6 are ignored (R50). -/
def pairReserved (w : List Nat) : Bool :=
  w.getD 0 0 % 4096 != 0 || w.getD 1 0 ≥ 2 ^ 16 || w.getD 2 0 % 4096 != 0 || w.getD 3 0 ≥ 2 ^ 16 || w.getD 7 0 != 0

/-- Some two of a list of ranges (base, bytes) overlap. -/
def overlaps (l : List (Nat × Nat)) : Bool :=
  match l with
  | [] => false
  | x :: rest => rest.any (fun y => rangesMeet x.1 x.2 y.1 y.2) || overlaps rest

/-- BANK_TABLE_SET: bank pairs in the open table (R50). -/
def State.cmdBankTableSet (s : State) (first count : Byte) (entries : List Word) : MbRes :=
  let f := first.toNat
  let n := count.toNat
  let es := chunksOf 8 n (entries.map (·.toNat))
  let ps := es.map pairOfWords
  let new := ps.zipIdx.foldl (fun l x => tput l (f + x.2) x.1) s.step.openSet.banks
  s.checks [
    (es.any pairReserved, .badCommand),
    (n == 0 || n > 16, .badArgument),
    (f + n > 16 || ps.any (fun p => p.size != 0 && !(inHbm p.baseA (p.size * 4096) && inHbm p.baseB (p.size * 4096))), .lengthRange),
    (overlaps (new.flatMap fun x => [(x.2.baseA, x.2.size * 4096), (x.2.baseB, x.2.size * 4096)]), .badArgument)]
  (.ok [] (s.setOpen fun x => { x with banks := new }))

/-- STEP_TIMEOUT_SET (R46). -/
def State.cmdStepTimeoutSet (s : State) (ticks : Word) : MbRes := .ok [] (s.setReg .ctlStepTimeout 0 0 ticks)

/-- PHASE_TABLE_READ: entries from `back` on, newest first (R55). -/
def State.cmdPhaseTableRead (s : State) (back count : Byte) : MbRes :=
  let b := back.toNat
  let n := count.toNat
  s.checks [
    (n == 0 || n > 3, .badArgument),
    (b + n > s.step.table.length, .lengthRange)]
  (.ok (((s.step.table.drop b).take n).flatMap fun e => e.words.flatMap (bytesOf 4)) s)

end Sys2Proof.Machine
end

