-- ==== Sys2Proof/Machine/MbMemory.lean ====
section
/-! DEFINITION. The mailbox commands of the attention engine, the codec, memory, the mirror and the snapshots (R453: 0x0301 to
0x0509, 0x0B01 and 0x0B02). -/

namespace Sys2Proof.Machine

/-! ### Attention (R249) -/

/-- An issued attention job names bias table `i` (R249). -/
def State.biasInUse (s : State) (i : Nat) : Bool :=
  s.mtx.jobs.any fun x => !x.2.complete && (match x.2.att with
    | some a => dfld a.words 0 4 4 == 1 && dfld a.words 0 11 6 == i
    | none => false)

/-- BIAS_TABLE_LOAD: entries of a table in the towers of a mask (R249). -/
def State.loadBias (s : State) (i mask : Nat) (vs : List Nat) : State :=
  s.each ((List.range 8).filter mask.testBit) fun s t =>
    let put (l : Tbl Half) (x : Nat × Nat) : Tbl Half := tput l ((t * 64 + i) * 4096 + x.2) (BitVec.ofNat 16 x.1)
    let s := { s with atn := { s.atn with bias := vs.zipIdx.foldl put s.atn.bias } }
    let r : RegId := if i < 32 then .atnBiasValidLo else .atnBiasValidHi
    s.setReg r t 0 (s.reg r t 0 ||| BitVec.ofNat 32 (2 ^ (i % 32)))

/-- BIAS_LOAD: waits while an issued attention job names the table (R249). -/
def State.cmdBiasLoad (s : State) (table mask : Byte) (count : Half) (src : DWord) : MbRes :=
  let i := table.toNat
  let n := count.toNat
  let a := src.toNat
  s.checks [
    (i > 63 || n == 0 || n > 4096 || farAddr src || !inDeviceMem a, .badArgument),
    (!inOneRegion a (2 * n), .lengthRange)]
  (if s.biasInUse i then .wait s
   else
     match s.knownBad a (2 * n) with
     | some b => .media b
     | none => .ok [] (s.loadBias i mask.toNat ((List.range n).map fun k => s.num (a + 2 * k) 2)))

/-! ### The codec (R307) -/

/-- CODEC_MAINT: maintenance mode is asked for or left; the mode changes when every codec queue is empty (R307). -/
def State.cmdCodecMaint (s : State) (on : Byte) : MbRes :=
  s.checks [(on.toNat > 1, .badArgument)]
  (.ok [] (s.setFld .cdcMode 0 0 cdcMode_maintPending (on.toNat != s.fld .cdcMode 0 0 cdcMode_maint).toNat))

/-! ### Memory (R314, R317, R320, R322, R335) -/

/-- MEM_LOCAL_SET: L of every drum; a change leaves HBM undefined (R314, R317). -/
def State.cmdMemLocalSet (s : State) (gib : Byte) : MbRes :=
  s.checks [
    (gib.toNat > 64, .badArgument),
    (!s.localCfgFree, .wrongState)]
  (.ok [] (s.each (List.range 8) fun s t => s.writeLocalCfg t (BitVec.ofNat 32 gib.toNat)))

/-- MEM_CAL_SET: calibration interval and margin, and the scrub period, of every drum (R322, R320). -/
def State.cmdMemCalSet (s : State) (interval : Half) (margin hours : Byte) : MbRes :=
  s.checks [(margin.toNat > 15, .badArgument)]
  (.ok [] (s.each (List.range 8) fun s t =>
    let s := s.setFld .memCalCfg t 0 memCalCfg_calInterval interval.toNat
    (s.setFld .memCalCfg t 0 memCalCfg_calMinMargin margin.toNat).setFld .memScrubCfg t 0 memScrubCfg_scrubHours hours.toNat))

/-- Lumdom places the statistics table of a drum that has none, with every entry 0 (MEM_MST_BASE). -/
def State.placeMst (s : State) (t : Nat) : State :=
  if s.mstBase t != 0 then s
  else
    let a := drumBase t + 0xF000000 + 64 * (Config.mstTablePlace t % (0x1000000 / 64 - 16))
    let s := (s.setReg .memMstBaseLo t 0 (BitVec.ofNat 32 a)).setReg .memMstBaseHi t 0 (BitVec.ofNat 32 (a / 2 ^ 32))
    s.clearRange a 1024

/-- MEM_STATS_SET: range and enable of a statistics entry in every drum (R335). -/
def State.cmdMemStatsSet (s : State) (entry enable : Byte) (base limit : DWord) : MbRes :=
  s.checks [
    (entry.toNat > 15 || enable.toNat > 1 || farAddr base || farAddr limit || limit.toNat ≤ base.toNat, .badArgument)]
  (.ok [] (s.each (List.range 8) fun s t =>
    let s := s.placeMst t
    let a := s.mstBase t + 64 * entry.toNat
    ((s.storeNum a 8 base.toNat).storeNum (a + 8) 8 limit.toNat).storeNum (a + 16) 4 enable.toNat))

/-- MEM_STATS_READ: words 5 to 15 of an entry, summed over the drums, worst as the largest; `clear` sets them to 0 (R335). -/
def State.cmdMemStatsRead (s : State) (entry clear : Byte) : MbRes :=
  let ts := (List.range 8).filter fun t => s.mstBase t != 0
  let at_ (t i : Nat) : Nat := s.mstBase t + 64 * entry.toNat + 4 * i
  let total (i : Nat) : Nat := ts.foldl (fun a t => if i == 8 then max a (s.word (at_ t i)) else a + s.word (at_ t i)) 0
  s.checks [(entry.toNat > 15, .badArgument)]
  (.ok ((span 5 11).flatMap fun i => bytesOf 4 (min (total i) (2 ^ 32 - 1)))
    (if clear == 0 then s else s.each ts fun s t => s.storeWords (at_ t 5) (List.replicate 11 0)))

/-- REPAIR_LIST_GET (R320). -/
def State.cmdRepairListGet (s : State) (first count : Half) : MbRes :=
  let f := first.toNat
  let n := count.toNat
  s.checks [
    (n == 0 || n > 120, .badArgument),
    (f + n > s.ram.repair.length, .lengthRange)]
  (.ok (((s.ram.repair.drop f).take n).flatMap fun r => bytesOf 8 r.toNat) s)

/-- REPAIR_LIST_PUT: the host's list is taken before HBM training, which begins with it (R320, R524). -/
def State.cmdRepairListPut (s : State) (count : Half) (rows : List DWord) : MbRes :=
  s.checks [
    (count.toNat > 120, .badArgument),
    (s.pwr.training, .wrongState)]
  (.ok [] ({ s with ram := { s.ram with supplied := rows } }).beginTraining)

/-! ### The mirror and the snapshots (R342, R343, R480 to R483, R490 to R492) -/

/-- An entry in use is being filled by snapshot traffic: an own stream of the snapshot in progress fills it, or it is filling and
the last refill did not name it (R344, R491). -/
def State.snapFills (s : State) (e : Nat) : Bool :=
  let own := match s.ram.snap with
    | some x => x.runs.any fun r => r.own && r.entry == e && !r.failed && !r.closed
    | none => false
  own || ((s.mirrorEnt e).filling && e < 32 && s.fld .ctlRefillStat 0 0 ctlRefillStat_entry != e)

/-- A mirror entry's base, size and source are set; valid, filling and step stay where nothing of it changes (R342). The device
whose snapshots fill the entry is told its range (R343). -/
def State.putMirror (s : State) (e base size src : Nat) : State :=
  let m := s.mirrorEnt e
  let same := m.base == base && m.size == size && m.src == src
  let s := if same then s else s.setMirror e { (default : Mirror) with base := base, size := size, src := src }
  if src == s.fabAddr then s else s.sendMgmt src (.mirrorEntry e base size)

/-- MIRROR_TABLE_SET (R342). -/
def State.cmdMirrorTableSet (s : State) (first count : Byte) (entries : List Word) : MbRes :=
  let f := first.toNat
  let n := count.toNat
  let es := chunksOf 8 n (entries.map (·.toNat))
  let w (e : List Nat) (i : Nat) : Nat := e.getD i 0
  let bad (e : List Nat) : Bool :=
    w e 0 % 4096 != 0 || w e 1 ≥ 2 ^ 16 || w e 3 ≥ 2 ^ 16 || w e 4 ≥ 4 || w e 6 != 0 || w e 7 != 0
  let range (e : List Nat) : Nat × Nat := (pageBase (w e 0) (w e 1), w e 2 * 4096)
  let others := (List.range 64).filter fun e => e < f || f + n ≤ e
  let all := es.map range ++ others.map fun e => ((s.mirrorEnt e).base, (s.mirrorEnt e).size * 4096)
  s.checks [
    (es.any bad, .badCommand),
    (n == 0 || n > 64, .badArgument),
    (f + n > 64, .lengthRange),
    ((span f n).any fun e => (s.mirrorEnt e).filling, .wrongState),
    (overlaps all || es.any fun e => (range e).2 != 0 && !inHbm (range e).1 (range e).2, .badArgument)]
  (.ok [] (s.each es.zipIdx fun s x => s.putMirror (f + x.2) (range x.1).1 (w x.1 2) (w x.1 3)))

/-- SNAPSHOT_LIST_SET: the list takes the words given (R343). -/
def State.cmdSnapshotListSet (s : State) (count : Byte) (words : List Word) : MbRes :=
  s.checks [(count.toNat > 64, .badArgument)]
  (.ok [] { s with ram := { s.ram with snapList := words } })

/-- SNAPSHOT_SCHEDULE_SET: the open schedule; the interval is the argument until a new one is computed (R480). -/
def State.cmdSnapshotScheduleSet (s : State) (mode : Byte) (interval : Half) (cost : Word) : MbRes :=
  let i := interval.toNat
  s.checks [(mode.toNat > 2 || i < 2 || i > 240, .badArgument)]
  (.ok [] (s.setOpen fun x => { x with snap := { mode := mode.toNat, interval := i, cost := cost, computed := false } }))

/-- FAILURE_REPORT: the counts are stored, and a root computes the snapshot interval (R481, R483). -/
def State.cmdFailureReport (s : State) (failures hours : Word) : MbRes :=
  .ok [] ({ s with step := { s.step with failures := failures, hours := hours, reported := true } }).computeInterval

/-- MIRROR_REFILL: the neighbour that holds the other copy is asked to send it (R490, R491). -/
def State.cmdMirrorRefill (s : State) (entry : Byte) (src : Half) : MbRes :=
  let e := entry.toNat
  s.checks [
    (e > 63 || src.toNat != s.neighbour 2 (e ≥ 32), .badArgument),
    ((s.mirrorEnt e).size == 0, .notFound),
    (s.ram.refillIn.isSome || s.snapFills e, .wrongState)]
  (let s := { s with ram := { s.ram with refillIn := some (e, src.toNat, 0) } }
   let s := (s.setFld .ctlRefillStat 0 0 ctlRefillStat_entry e).setFld .ctlRefillStat 0 0 ctlRefillStat_busy 1
   .ok [] (s.sendMgmt src.toNat (.refill e (s.mirrorEnt e).base (s.mirrorEnt e).size)))

end Sys2Proof.Machine
end

