-- ==== Sys2Proof/Machine/MbFabric.lean ====
section
/-! DEFINITION. The mailbox commands of reduction and of the fabric (R453: 0x0601 to 0x0705). -/

namespace Sys2Proof.Machine

/-! ### Reduction (R349 to R355) -/

/-- Lumdom places the group table where it has no place, with every entry 0 (RED_GRP_BASE). -/
def State.placeGroups (s : State) : State :=
  if s.grpPlaced then s
  else
    let a := drumBase 0 + 0xF000000 + 64 * (Config.grpTablePlace % (0x1000000 / 64 - 512))
    let s := (s.setReg .redGrpBaseLo 0 0 (BitVec.ofNat 32 a)).setReg .redGrpBaseHi 0 0 (BitVec.ofNat 32 (a / 2 ^ 32))
    s.clearRange a (512 * 64)

/-- A reserved bit of a group entry's words is set; word 12 is ignored (R350). -/
def grpReserved (w : Nat → Nat) : Bool :=
  w 0 ≥ 2 ^ 25 || w 4 ≥ 2 ^ 16 || w 10 ≥ 2 ^ 16 || w 13 != 0 || w 14 != 0 || w 15 != 0

/-- A field of a group entry in use is outside its range (R350). -/
def grpBad (w : Nat → Nat) (g : Grp) : Bool :=
  g.size == 0 || g.size > 65536 || g.rank ≥ g.size || g.nBuckets == 0 || g.nBuckets > 65536 || g.cqSize < 2 || g.owner > 14
  || g.bucketBase % 32 != 0 || g.cqBase % 64 != 0 || w 7 ≥ 2 ^ 16 || w 9 ≥ 2 ^ 16

/-- A group entry takes its words: the epoch of the command, a ring tail of 0, wire64 by its size, not aborted; what an earlier
entry left there ends (R350, R362). -/
def State.putGroup (s : State) (g e : Nat) (w : Nat → Nat) : State :=
  let key := grpKey g e
  let x := grpOf ((List.range 16).map w)
  let wire := if x.size * x.per > 32768 then 1 else 0
  let word (i : Nat) : Nat :=
    if i == 0 then w 0 / 2 ^ 16 * 2 ^ 16 + e else if i == 11 then w 11 / 2 ^ 16 * 2 ^ 16 else if i == 12 then wire else w i
  let s := s.storeWords (s.grpAddr key) ((List.range 16).map word)
  { s with red := { s.red with
    rings := tput s.red.rings key [], notices := s.red.notices.filter fun n => !(n.1 == g && n.2.1 == e)
    due := s.red.due.filter fun d => grpKey d.group d.epoch != key
    buckets := s.red.buckets.filter fun r => r.1 / 65536 != key } }

/-- RED_GROUP_SET: refused for the valid entry of the active epoch; waits while the device is at local arrival (R351). -/
def State.cmdRedGroupSet (s : State) (group : Byte) (epoch : Half) (entry : List Word) : MbRes :=
  let w (i : Nat) : Nat := (entry.getD i 0).toNat
  let g := grpOf ((List.range 16).map w)
  let key := grpKey group.toNat epoch.toNat
  let p := s.placeGroups
  let old := s.grp key
  s.checks [
    (grpReserved w, .badCommand),
    (g.valid && grpBad w g, .badArgument),
    (g.valid && !(inQueueMem g.cqBase && inOneRegion g.cqBase (64 * g.cqSize) && inDeviceMem g.bucketBase
      && inOneRegion g.bucketBase (32 * g.nBuckets)), .lengthRange),
    (old.valid && old.epoch == s.activeEpoch, .wrongState)]
  (if s.groupState == 2 then .wait s else .ok [] (p.putGroup group.toNat epoch.toNat w))

/-- A reserved bit of a bucket entry's words is set; word 6 is ignored (R353). -/
def bucketReserved (w : List Nat) : Bool :=
  wfld (w.getD 1 0) 15 5 != 0 || w.getD 3 0 ≥ 2 ^ 16 || w.getD 5 0 ≥ 2 ^ 16 || w.getD 7 0 ≥ 2 ^ 16

/-- A scale exponent the commands take (R354). -/
def scaleOk (code : Nat) : Bool := let e := untwos 16 code; -192 ≤ e && e ≤ 127

/-- A field of a bucket entry is outside its range (R353). -/
def bucketBad (w : List Nat) : Bool :=
  w.getD 0 0 == 0 || !scaleOk (wfld (w.getD 1 0) 31 16) || !scaleOk (wfld (w.getD 7 0) 15 0) || w.getD 2 0 % 4 != 0
  || w.getD 4 0 % 4096 != 0

/-- Bytes of a bucket's work area: sums of 8 bytes, rounded up to a page, and control words of 16 bytes (R363). -/
def workBytes (elements size : Nat) : Nat :=
  alignUp (8 * elements) 4096 + size * ((((elements + size - 1) / size) + 4095) / 4096) * 16

/-- A bucket's work area lies wholly in HBM or in one drum's general scratch (R364). -/
def workOk (w : List Nat) (size : Nat) : Bool :=
  let a := w.getD 4 0 + w.getD 5 0 * 2 ^ 32
  let kind := match regionOf a with
    | .hbm => true
    | .scratch _ => true
    | _ => false
  kind && inOneRegion a (workBytes (w.getD 0 0) size)

/-- Bucket entries are written but for word 6, which the device keeps (R353). -/
def State.putBuckets (s : State) (base : Nat) (es : List (List Nat)) : State :=
  s.each es.zipIdx fun s x =>
    let a := base + 32 * x.2
    (s.storeWords a (x.1.take 6)).storeNum (a + 28) 4 (x.1.getD 7 0)

/-- RED_BUCKETS_SET: entries of 32 bytes from `src` (R353, R364); refused for the active epoch of a step group (R351). -/
def State.cmdRedBucketsSet (s : State) (group : Byte) (epoch : Half) (first count : Word) (src : DWord) : MbRes :=
  let f := first.toNat
  let n := count.toNat
  let a := src.toNat
  match s.grpFor group.toNat epoch.toNat with
  | none => s.checks [(n == 0 || farAddr src || !inDeviceMem a, .badArgument)] (.fail .notFound s)
  | some g =>
    s.checks [
      (n == 0 || farAddr src || !inDeviceMem a, .badArgument),
      (f + n > g.nBuckets || !inOneRegion a (32 * n), .lengthRange)]
    (match s.knownBad a (32 * n) with
     | some b => .media b
     | none =>
       let es := (List.range n).map fun i => (List.range 8).map fun j => s.word (a + 32 * i + 4 * j)
       s.checks [
         (es.any bucketReserved, .badCommand),
         (es.any bucketBad, .badArgument),
         (es.any fun e => !workOk e g.size, .lengthRange),
         (s.groupState != 0 && epoch.toNat == s.activeEpoch, .wrongState)]
       (.ok [] (s.putBuckets (g.bucketBase + 32 * f) es)))

/-- RED_SCALE_SET: the open scale of a bucket (R354). -/
def State.cmdRedScaleSet (s : State) (group : Byte) (epoch bucket sOpen : Half) : MbRes :=
  if !scaleOk sOpen.toNat then .fail .badArgument s
  else
    match s.grpFor group.toNat epoch.toNat with
    | none => .fail .notFound s
    | some g =>
      if g.nBuckets ≤ bucket.toNat then .fail .notFound s
      else .ok [] (s.setScale (s.bucket g bucket.toNat) 28 (untwos 16 sOpen.toNat))

/-- RED_GROUP_READ: the 64 bytes of a valid entry (R350). -/
def State.cmdRedGroupRead (s : State) (group : Byte) (epoch : Half) : MbRes :=
  match s.grpFor group.toNat epoch.toNat with
  | none => .fail .notFound s
  | some _ => .ok (s.bytes (s.grpAddr (grpKey group.toNat epoch.toNat)) 64) s

/-! ### The fabric (R384 to R420) -/

/-- A field of a register set in every drum that has it. -/
def State.allDrums (s : State) (r : RegId) (f : Fld) (v : Nat) : State :=
  s.each ((List.range 8).filter (regDef r).towers.testBit) fun s t => s.setFld r t 0 f v

/-- FAB_PORTS_READ: state, lane maps, neighbour and partner serial of every port. -/
def State.cmdFabPortsRead (s : State) : MbRes :=
  .ok ((List.range 6).flatMap fun p =>
    let t := portTower p
    [RegId.plynPortStat, .plynLaneMapTx, .plynLaneMapRx, .plynNbrInfo, .plynNbrSerialLo, .plynNbrSerialHi].flatMap fun r =>
      bytesOf 4 (s.reg r t 0).toNat) s

/-- FAB_ADDR_SET: sizes, address, dateline and enable bits; then valid, IDENT and the judgment of the ports (R416 to R418). -/
def State.cmdFabAddrSet (s : State) (tSize sSize dSize dateline enable : Byte) (addr : Half) : MbRes :=
  let a := addr.toNat
  let outside := fabCoord a 0 ≥ tSize.toNat || fabCoord a 1 ≥ sSize.toNat || fabCoord a 2 ≥ dSize.toNat
  s.checks [
    (dateline.toNat > 63 || enable.toNat > 63, .badCommand),
    (tSize == 0 || tSize.toNat > 8 || sSize == 0 || sSize.toNat > 64 || dSize == 0 || dSize.toNat > 128 || outside, .badArgument)]
  (let s := (s.allDrums .plynAxisSize plynAxisSize_tSize tSize.toNat).allDrums .plynAxisSize plynAxisSize_sSize sSize.toNat
   let s := s.allDrums .plynAxisSize plynAxisSize_dSize dSize.toNat
   let s := (s.allDrums .plynFabAddr plynFabAddr_addr a).allDrums .plynFabAddr plynFabAddr_valid 1
   let s := s.each (List.range 6) fun s p =>
     (s.setFld .plynPortCfg (portTower p) 0 plynPortCfg_enable (enable.toNat.testBit p).toNat).setFld
       .plynPortCfg (portTower p) 0 plynPortCfg_dateline (dateline.toNat.testBit p).toNat
   .ok [] s.readdress)

/-- The routing table of an axis and its entries (R419). -/
def routeTable (ax : Nat) : RegId × Nat :=
  match ax with
  | 0 => (.plynRtT, 8) | 1 => (.plynRtS, 64) | _ => (.plynRtD, 128)

/-- FAB_ROUTE_SET: entries of one axis in every drum (R419). -/
def State.cmdFabRouteSet (s : State) (axis first : Byte) (count : Half) (entries : List Byte) : MbRes :=
  let (r, size) := routeTable axis.toNat
  let f := first.toNat
  let put (s : State) (t : Nat) (x : Byte × Nat) : State :=
    let c := f + x.2
    s.setFld r t (c / 4) ⟨8 * (c % 4), 8, .rw, 0⟩ x.1.toNat
  s.checks [
    (entries.any fun e => e.toNat ≥ 8, .badCommand),
    (axis.toNat > 2 || count == 0, .badArgument),
    (f + count.toNat > size, .lengthRange)]
  (.ok [] (s.each (List.range 8) fun s t => s.each entries.zipIdx fun s x => put s t x))

/-- FAB_PORT_CTL: retrain a port that is not linked, quarantine with cause COMMAND, or set or clear rot_en (R388, R409, R412). -/
def State.cmdFabPortCtl (s : State) (port action : Byte) : MbRes :=
  let p := port.toNat
  s.checks [
    (p > 5 || action.toNat > 3, .badArgument),
    (action == 0 && s.linked p, .wrongState)]
  (.ok [] (match action.toNat with
    | 0 => s.startTraining p
    | 1 => s.quarantine p 7
    | 2 => s.setFld .plynPortCfg (portTower p) 0 plynPortCfg_rotEn 1
    | _ => s.setFld .plynPortCfg (portTower p) 0 plynPortCfg_rotEn 0))

/-- FAB_CFG_SET: rotation, request time-out and violation limits of every drum that has them. -/
def State.cmdFabCfgSet (s : State) (rotInterval reqTimeout : Word) (violWindow : Half) (violLimit minMargin : Byte) : MbRes :=
  s.checks [
    (rotInterval.toNat > 0xFFFFFF || reqTimeout == 0 || violWindow == 0 || violLimit == 0 || minMargin.toNat > 15, .badArgument)]
  (let s := (s.allDrums .plynRotCfg plynRotCfg_interval rotInterval.toNat).allDrums .plynRotCfg plynRotCfg_minMargin minMargin.toNat
   let s := s.allDrums .plynReqTimeout plynReqTimeout_ticks reqTimeout.toNat
   .ok [] ((s.allDrums .plynViolCfg plynViolCfg_violWindow violWindow.toNat).allDrums .plynViolCfg plynViolCfg_violLimit
     violLimit.toNat))

end Sys2Proof.Machine
end

