-- ==== Sys2Proof/Machine/MbHost.lean ====
section
/-! DEFINITION. The mailbox commands of the host port, of firmware and of identity (R453: 0x0801 to 0x0A04). -/

namespace Sys2Proof.Machine

/-! ### Addresses, ports and neighbours (R422, R424, R430, R571) -/

/-- HOST_ADDR_SET: the IPv4 or the global IPv6 address is set or cleared (R424, R571). -/
def State.cmdHostAddrSet (s : State) (which clear : Byte) (addr : List Byte) : MbRes :=
  let on := clear == 0
  s.checks [(which.toNat > 1 || (which == 0 && on && !zeros (addr.drop 4)), .badArgument)]
  (let v4 : Option (List Byte) := if on then some (addr.take 4) else none
   let v6 : Option (List Byte) := if on then some addr else none
   .ok [] (if which == 0 then
     ({ s with host := { s.host with ipv4 := v4 } }).setFld .hostLinkStat 0 0 hostLinkStat_ipv4Set on.toNat
   else ({ s with host := { s.host with ipv6 := v6 } }).setFld .hostLinkStat 0 0 hostLinkStat_ipv6Set on.toNat))

/-- HOST_PORT_SET: the Belpel port, VLAN id, priorities and pause enable (HOST_UDP_PORT, HOST_PFC_CFG). -/
def State.cmdHostPortSet (s : State) (udp vlan : Half) (roce belpel pfc : Byte) : MbRes :=
  s.checks [
    (udp == 0 || udp.toNat == 4791 || vlan.toNat > 4095 || roce.toNat > 7 || belpel.toNat > 7 || pfc.toNat > 1
      || roce == belpel, .badArgument)]
  (let s := (s.setFld .hostUdpPort 0 0 hostUdpPort_port udp.toNat).setFld .hostPfcCfg 0 0 hostPfcCfg_vlanId vlan.toNat
   let s := (s.setFld .hostPfcCfg 0 0 hostPfcCfg_rocePrio roce.toNat).setFld .hostPfcCfg 0 0 hostPfcCfg_belpelPrio belpel.toNat
   .ok [] (s.setFld .hostPfcCfg 0 0 hostPfcCfg_pfcEn pfc.toNat))

/-- A neighbour of 24 bytes: address, MAC and valid. -/
def neighOf (e : List Byte) : Neigh := { ip := e.take 16, mac := (e.drop 16).take 6, valid := e.getD 22 0 != 0 }

/-- HOST_NEIGH_SET: entries of the neighbour table (R422). -/
def State.cmdHostNeighSet (s : State) (first count : Byte) (entries : List Byte) : MbRes :=
  let f := first.toNat
  let n := count.toNat
  let es := chunksOf 24 n entries
  s.checks [
    (es.any fun e => e.getD 23 0 != 0, .badCommand),
    (n == 0 || n > 64, .badArgument),
    (f + n > 64, .lengthRange)]
  (.ok [] { s with host := { s.host with neigh := es.zipIdx.foldl (fun l x => tput l (f + x.2) (neighOf x.1)) s.host.neigh } })

/-! ### Queue pairs and windows (R425 to R427, R568) -/

/-- QP_SET: a queue pair in RESET or INIT takes its settings and moves to RTS at line rate (R425, R429). -/
def State.cmdQpSet (s : State) (qp : Half) (mtu tclass ackTimeout retry : Byte) (remoteQpn sqPsn rqPsn rkey : Word)
    (ip : List Byte) (va len : DWord) : MbRes :=
  let q := qp.toNat
  let st := (s.qp q).st
  let wide (x : Word) : Bool := x.toNat ≥ 2 ^ 24
  s.checks [
    (mtu.toNat > 2 || retry.toNat > 7 || wide remoteQpn || wide sqPsn || wide rqPsn || len == 0 || farAddr va, .badArgument),
    (q > 4095, .notFound),
    (va.toNat + len.toNat ≥ 2 ^ 48, .lengthRange),
    (st != .reset && st != .init, .wrongState)]
  (.ok [] (s.setQp q { (default : Qp) with
    st := .rts, mtu := mtu.toNat, tclass := tclass.toNat, ackTimeout := ackTimeout.toNat, retry := retry.toNat,
    remoteQpn := remoteQpn.toNat, ip := ip, va := va.toNat, len := len.toNat, rkey := rkey.toNat, sqPsn := sqPsn.toNat,
    rqPsn := rqPsn.toNat, rate := 256, calmTick := s.refclk }))

/-- QP_RESET: the queue pair moves to RESET, its cause clears, and the mover parts that still use it fail (R426, R568). -/
def State.cmdQpReset (s : State) (qp : Half) : MbRes :=
  let q := qp.toNat
  s.checks [(q > 4095, .notFound)] (.ok [] ((s.setQp q default).failQpParts q))

/-- The code of a queue pair's state, in the order of R425. -/
def QpSt.code (x : QpSt) : Nat :=
  match x with
  | .reset => 0 | .init => 1 | .rtr => 2 | .rts => 3 | .error => 4

/-- QP_QUERY: state, cause and PSNs; the cause reads 0 outside ERROR (R568). -/
def State.cmdQpQuery (s : State) (qp : Half) : MbRes :=
  let q := qp.toNat
  let x := s.qp q
  let cause := if x.st == .error then x.cause else 0
  s.checks [(q > 4095, .notFound)]
  (.ok (bytesOf 1 x.st.code ++ bytesOf 1 cause ++ [0, 0] ++ bytesOf 4 x.sqPsn ++ bytesOf 4 x.rqPsn) s)

/-- The arguments of a command as its body held them, for the measurements (R545). -/
def windowBody (win perms : Byte) (rkey : Word) (base : DWord) (size : Word) : List Byte :=
  [win, perms, 0, 0] ++ bytesOf 4 rkey.toNat ++ bytesOf 8 base.toNat ++ bytesOf 4 size.toNat

/-- A window lies wholly in HBM, or in the scratch or the queue memory of one drum (R427). -/
def windowOk (a n : Nat) : Bool := inDeviceMem a && inOneRegion a n

/-- WINDOW_SET: a window is set or disabled, and MR3 extended by the command body (R427, R545). -/
def State.cmdWindowSet (s : State) (win perms : Byte) (rkey : Word) (base : DWord) (size : Word) : MbRes :=
  let off := perms == 0
  s.checks [
    (perms.toNat > 3, .badCommand),
    (win.toNat > 63 || farAddr base || (!off && (size == 0 || !windowOk base.toNat (size.toNat * 4096))), .badArgument)]
  (let x : Window := { base := base.toNat, size := if off then 0 else size.toNat, rkey := rkey.toNat, perms := perms.toNat }
   let s := { s with host := { s.host with windows := tput s.host.windows win.toNat x } }
   .ok [] (s.extendMr 3 (windowBody win perms rkey base size)))

/-- ALLOW_SET: the allow list takes its entries, and MR3 is extended by the command body (R433, R545). -/
def State.cmdAllowSet (s : State) (count : Byte) (entries : List Byte) : MbRes :=
  let n := count.toNat
  let es := chunksOf 20 n entries
  s.checks [
    (es.any fun e => !zeros (e.drop 18), .badCommand),
    (n > 4, .badArgument)]
  (let l := es.map fun e => (e.take 16, leOf ((e.drop 16).take 2))
   let s := { s with host := { s.host with allow := l } }
   .ok [] (s.extendMr 3 (count :: (if n == 0 then [0, 0, 0] else [0, 0, 0] ++ entries.take (20 * n)))))

/-- EVENT_ENDPOINT_SET: the first endpoint gets every record not yet sent at once (R437). -/
def State.sendUnsent (s : State) (n : Nat) : State :=
  match n with
  | 0 => s
  | m + 1 => (s.sendEvents fun r => r.sentTick.isNone).sendUnsent m

/-- EVENT_ENDPOINT_SET (R437). -/
def State.cmdEventEndpointSet (s : State) (port : Half) (ip : List Byte) : MbRes :=
  let first := s.host.endpoint.isNone
  let s := { s with host := { s.host with endpoint := some (ip, port.toNat) } }
  .ok [] (if first then s.sendUnsent ((s.host.events.length + 31) / 32) else s)

/-! ### Firmware (R541, R542, R553) -/

/-- FW_STAGE: an image in HBM is verified whole and written to the slot that is not running (R535, R541). -/
def State.cmdFwStage (s : State) (len : Word) (src : DWord) : MbRes :=
  let n := len.toNat
  let a := src.toNat
  let img := s.bytes a n
  let code := imgVerify s.pwr.floor s.pwr.revoked img
  let slot := 1 - s.fld .secBootStat 0 0 secBootStat_slot
  s.checks [
    (farAddr src || !inHbm a 12 || n != imgHeader + s.word (a + 8), .badArgument),
    (n > 0x1000000 || !inHbm a n, .lengthRange)]
  (match s.knownBad a n with
   | some b => .media b
   | none =>
     s.checks [
       (!s.flashHere, .wrongState),
       (code != 0 && code != 7, .authFailed),
       (code == 7, .rollback)]
     (.ok [] ((s.flashPut (slotOffset slot) img).flag .secBootStat 0 0 secBootStat_staged)))

/-- FW_ACTIVATE: a record names the staged slot, unconfirmed; the reply is followed by a reset of cause 3 (R542). -/
def State.cmdFwActivate (s : State) : MbRes :=
  s.checks [(!s.bit .secBootStat 0 0 secBootStat_staged, .wrongState)]
  (.reset 3 (s.writeRecord (1 - s.fld .secBootStat 0 0 secBootStat_slot) false 0))

/-! ### Identity and attestation (R543 to R546) -/

/-- Lumdom writes a result of bytes to `dst`, which an enabled window must reach; none reaches a mirror region (R427, R453). -/
def State.deliverTo (s : State) (cap : Word) (dst : DWord) (bs : List Byte) : MbRes :=
  let a := dst.toNat
  let n := bs.length
  let reaches (m : Nat) : Bool := (List.range 64).any fun w =>
    let x := tget s.host.windows w
    x.perms != 0 && x.base ≤ a && a + m ≤ x.base + x.size * 4096 && !s.mirrorHit a m
  s.checks [
    (cap == 0 || farAddr dst || !reaches 1, .badArgument),
    (n > cap.toNat * 1024 || !reaches n, .lengthRange)]
  (.ok (bytesOf 4 n) (s.store a bs))

/-- The signed words 0 to 67 of an attestation report (R546). -/
def State.reportHead (s : State) (nonce : List Byte) : List Byte :=
  let w3 := s.fld .secBootStat 0 0 secBootStat_slot + 2 * s.fld .secBootStat 0 0 secBootStat_fallback
    + 4 * s.pwr.confirmed.toNat + 8 * s.fld .clkResetCause 0 0 clkResetCause_cause
  let words := [0x4C4D4154, 1, 16880, w3]
  let head := words.flatMap (bytesOf 4) ++ bytesOf 8 Config.serial.toNat ++ bytesOf 4 s.pwr.version
    ++ bytesOf 4 (s.pwr.svn % 64 + s.pwr.floor % 64 * 2 ^ 8) ++ bytesOf 8 s.refclk.toNat ++ bytesOf 8 0 ++ nonce
  head ++ (List.range 4).flatMap s.mr

/-- ATTEST: a report of the measurements, signed by both schemes (R546). -/
def State.cmdAttest (s : State) (nonce : List Byte) (cap : Word) (dst : DWord) : MbRes :=
  let m := s.reportHead nonce
  s.deliverTo cap dst (m ++ (List.range 384).map (Config.rsaSign m) ++ (List.range 16224).map (Config.slhSign m))

/-- The 17,072 bytes of an identity certificate: 1 intermediate, 2 device (R543). -/
def certificate (kind : Nat) : List Byte :=
  (List.range 4268).flatMap fun i =>
    if i == 0 then bytesOf 4 0x4C4D4943
    else if i == 1 then bytesOf 4 kind
    else if i == 2 then bytesOf 4 17072
    else if i == 3 then bytesOf 4 0
    else if kind == 2 && i == 4 then bytesOf 4 (Config.serial.toNat % 2 ^ 32)
    else if kind == 2 && i == 5 then bytesOf 4 (Config.serial.toNat / 2 ^ 32)
    else bytesOf 4 (Config.certWord kind i).toNat

/-- IDENTITY_READ: the intermediate and the device certificate (R544); refused while the flash bus is released (R553). -/
def State.cmdIdentityRead (s : State) (cap : Word) (dst : DWord) : MbRes :=
  match s.deliverTo cap dst (certificate 1 ++ certificate 2) with
  | .ok b t => s.checks [(s.pwr.released, .wrongState)] (.ok b t)
  | r => r

end Sys2Proof.Machine
end

