-- ==== Sys2Proof/Machine/Mailbox.lean ====
section
/-! DEFINITION. The mailboxes: taking, executing, waiting and replying (R439 to R452, R569), and the commands as rows of the table,
each of which is one command executed as it arrives at its mailbox. -/

namespace Sys2Proof.Machine

/-! ### Execution (R446, R453) -/

/-- What a command does, by its own checks. -/
def State.runBody (s : State) (c : MbCmd) : MbRes :=
  match c with
  | .mboxOpen mbox flags slots base => s.cmdMboxOpen mbox flags slots base
  | .mboxClose mbox => s.cmdMboxClose mbox
  | .devInfo => s.cmdDevInfo
  | .devReset kind => s.cmdDevReset kind
  | .regRead count addr => s.cmdRegRead count addr
  | .eventMask first count masked => s.cmdEventMask first count masked
  | .telemetryRead => s.cmdTelemetryRead
  | .sscSet depth rate => s.cmdSscSet depth rate
  | .ctxCreate ctx slotb slots thrBase thrCount => s.cmdCtxCreate ctx slotb slots thrBase thrCount
  | .ctxDestroy ctx => s.cmdCtxDestroy ctx
  | .ctxQueueSet ctx kind tower ringSize cqSize ring cq => s.cmdCtxQueueSet ctx kind tower ringSize cqSize ring cq
  | .ctxSpawn ctx tower count pc arg => s.cmdCtxSpawn ctx tower count pc arg
  | .ctxSchedSet ctx prio reserved allowed => s.cmdCtxSchedSet ctx prio reserved allowed
  | .lanternSet cores windows base size => s.cmdLanternSet cores windows base size
  | .ctxFaultRead ctx => s.cmdCtxFaultRead ctx
  | .kvTimeoutSet ctx mask ticks => s.cmdKvTimeoutSet ctx mask ticks
  | .stepGroupCreate tag n members flags parent epoch firstStep seed children => s.cmdStepGroupCreate tag n members flags parent epoch firstStep seed children
  | .stepGroupDissolve => s.cmdStepGroupDissolve
  | .epochSet epoch => s.cmdEpochSet epoch
  | .bankTableSet first count entries => s.cmdBankTableSet first count entries
  | .stepTimeoutSet ticks => s.cmdStepTimeoutSet ticks
  | .phaseTableRead back count => s.cmdPhaseTableRead back count
  | .biasLoad table mask count src => s.cmdBiasLoad table mask count src
  | .codecMaint on => s.cmdCodecMaint on
  | .memLocalSet gib => s.cmdMemLocalSet gib
  | .memCalSet interval margin hours => s.cmdMemCalSet interval margin hours
  | .memStatsSet entry enable base limit => s.cmdMemStatsSet entry enable base limit
  | .memStatsRead entry clear => s.cmdMemStatsRead entry clear
  | .mirrorTableSet first count entries => s.cmdMirrorTableSet first count entries
  | .snapshotListSet count words => s.cmdSnapshotListSet count words
  | .snapshotScheduleSet mode interval cost => s.cmdSnapshotScheduleSet mode interval cost
  | .repairListGet first count => s.cmdRepairListGet first count
  | .repairListPut count rows => s.cmdRepairListPut count rows
  | .redGroupSet group epoch entry => s.cmdRedGroupSet group epoch entry
  | .redBucketsSet group epoch first count src => s.cmdRedBucketsSet group epoch first count src
  | .redScaleSet group epoch bucket sOpen => s.cmdRedScaleSet group epoch bucket sOpen
  | .redGroupRead group epoch => s.cmdRedGroupRead group epoch
  | .fabPortsRead => s.cmdFabPortsRead
  | .fabAddrSet tSize sSize dSize dateline enable addr => s.cmdFabAddrSet tSize sSize dSize dateline enable addr
  | .fabRouteSet axis first count entries => s.cmdFabRouteSet axis first count entries
  | .fabPortCtl port action => s.cmdFabPortCtl port action
  | .fabCfgSet rotInterval reqTimeout violWindow violLimit minMargin => s.cmdFabCfgSet rotInterval reqTimeout violWindow violLimit minMargin
  | .hostAddrSet which clear addr => s.cmdHostAddrSet which clear addr
  | .hostPortSet udp vlan roce belpel pfc => s.cmdHostPortSet udp vlan roce belpel pfc
  | .hostNeighSet first count entries => s.cmdHostNeighSet first count entries
  | .qpSet qp mtu tclass ackTimeout retry remoteQpn sqPsn rqPsn rkey ip va len => s.cmdQpSet qp mtu tclass ackTimeout retry remoteQpn sqPsn rqPsn rkey ip va len
  | .qpReset qp => s.cmdQpReset qp
  | .qpQuery qp => s.cmdQpQuery qp
  | .windowSet win perms rkey base size => s.cmdWindowSet win perms rkey base size
  | .allowSet count entries => s.cmdAllowSet count entries
  | .eventEndpointSet port ip => s.cmdEventEndpointSet port ip
  | .fwStage len src => s.cmdFwStage len src
  | .fwActivate => s.cmdFwActivate
  | .attest nonce cap dst => s.cmdAttest nonce cap dst
  | .identityRead cap dst => s.cmdIdentityRead cap dst
  | .failureReport failures hours => s.cmdFailureReport failures hours
  | .mirrorRefill entry src => s.cmdMirrorRefill entry src

/-- A command executes: one marked "0" that comes on another mailbox is NOT_PERMITTED, after the checks of its form (R446). -/
def State.runCmd (s : State) (h : CmdHdr) (c : MbCmd) : MbRes :=
  if mbox0Only.contains c.op && h.mb != 0 then
    match s.runBody c with
    | .fail .badCommand _ => .fail .badCommand s
    | _ => .fail .notPermitted s
  else s.runBody c

/-! ### Replies (R443) -/

/-- The bytes of a reply. -/
def replyBytes (op tag status ticks slot : Nat) (body : List Byte) : List Byte :=
  [op + (16 + body.length) * 2 ^ 16, tag + status * 2 ^ 16, ticks, 1 + slot * 2 ^ 16].flatMap (bytesOf 4) ++ body

/-- A reply overwrites the command in its slot, word 3 last, with a REPLY datagram where its mailbox was opened so; or it is the
body of the REPLY datagram of an inline command, kept for a resend (R436, R443). Datagrams leave from UDP port `own`, the one in
force as the command ran (R453). -/
def State.sendReply (s : State) (own mb tag op ticks : Nat) (item : Option MbItem) (st : Status) (body : List Byte) : State :=
  let body := if st == .ok then body else []
  let s := { s with host := { s.host with
    replies := { mb := mb, opcode := op, tag := tag, status := st, body := body } :: s.host.replies } }
  let m := s.mbox mb
  match item with
  | none => s
  | some (.slot i seq source) =>
    let bs := replyBytes op tag st.code ticks i body
    let a := m.base + 1024 * i
    let s := ((s.store a (bs.take 12)).store (a + 16) (bs.drop 16)).store (a + 12) ((bs.drop 12).take 4)
    if m.replies then s.sendBelpelFrom own source 3 seq.toNat bs else s
  | some (.inline seq source _) =>
    let bs := replyBytes op tag st.code ticks 0 body
    let s := if m.inSeq == some seq then s.setMbox mb { m with inReply := some bs } else s
    s.sendBelpelFrom own source 3 seq.toNat bs

/-- Ticks since `taken`, saturating (R443). -/
def State.ticksSince (s : State) (taken : DWord) : Nat := min (s.refclk - taken).toNat (2 ^ 32 - 1)

/-- The statuses a command may end with when the data it reads has an uncorrectable error. R319 names none, and MEDIA_ERROR has
another meaning (R454), so which one is a free value (log entry 66). -/
def lostData : List Status :=
  [.lengthRange, .badDescriptor, .badFormat, .pathLost, .addressFault, .badArgument, .notFound, .wrongState, .authFailed, .rollback]

/-- A command's execution ends as it answers: with its reply, as a wait that holds its mailbox (R450), or with a reply and then a
reset (R525, R542). -/
def State.finish (s : State) (w : MbWait) (r : MbRes) : State :=
  let own := s.udpPort
  let reply (s : State) (st : Status) (body : List Byte) : State :=
    s.sendReply own w.hdr.mb.val w.hdr.tag.toNat w.cmd.op (s.ticksSince w.taken) w.item st body
  match r with
  | .ok body s => reply s .ok body
  | .fail st s => reply s st []
  | .wait s => { s with host := { s.host with waiting := s.host.waiting ++ [w] } }
  | .media a =>
    let (v, s) := (s.recordUe (decodeTower belfryIsland) a).free
    reply s (lostData.getD (v % lostData.length) .badArgument) []
  | .reset cause s => (reply s .ok []).resetSequence cause

/-! ### Accesses of a command to memory (R20, R52, R322) -/

/-- The byte ranges a command that runs accesses in memory: the data its arguments point to, and the tables it names. -/
def State.cmdSpans (s : State) (c : MbCmd) : List (Nat × Nat) :=
  let group (g e : Nat) : List (Nat × Nat) := [(s.grpAddr (grpKey g e), 64)]
  let tables (e : Nat) : List (Nat × Nat) :=
    ((List.range 8).filter fun t => s.mstBase t != 0).map fun t => (s.mstBase t + 64 * e, 64)
  match c with
  | .biasLoad _ _ n a => [(a.toNat, 2 * n.toNat)]
  | .memStatsSet e .. => tables e.toNat
  | .memStatsRead e _ => tables e.toNat
  | .redGroupSet g e _ => group g.toNat e.toNat
  | .redBucketsSet g e f n a =>
    let x := s.grp (grpKey g.toNat e.toNat)
    group g.toNat e.toNat ++ [(a.toNat, 32 * n.toNat), (x.bucketBase + 32 * f.toNat, 32 * n.toNat)]
  | .redScaleSet g e b _ =>
    let x := s.grp (grpKey g.toNat e.toNat)
    group g.toNat e.toNat ++ [(x.bucketBase + 32 * b.toNat, 32)]
  | .redGroupRead g e => group g.toNat e.toNat
  | .fwStage n a => [(a.toNat, n.toNat)]
  | .attest _ _ a => [(a.toNat, 16880)]
  | .identityRead _ a => [(a.toNat, 34144)]
  | _ => []

/-- The slot of an accepted ring command. -/
def State.slotSpan (s : State) (mb : Nat) (x : Option MbItem) : List (Nat × Nat) :=
  match x with
  | some (.slot i _ _) => [((s.mbox mb).base + 1024 * i, 1024)]
  | _ => []

/-- A command that would end as `r` meets an access that is held on its way or at its drum, so it is not executed yet: it leaves
everything as it was (R20, R52, R322, R345). -/
def State.cmdHeld (s : State) (mb : Nat) (x : Option MbItem) (c : MbCmd) (r : MbRes) : Bool :=
  s.trafficHeld belfryIsland (s.slotSpan mb x) || (match r with
    | .ok _ _ => s.storesHeld belfryIsland (s.cmdSpans c)
    | .media _ => s.trafficHeld belfryIsland (s.cmdSpans c)
    | _ => false)

/-! ### Waiting commands (R450) -/

/-- What a waiting command answers when it is taken again; CTX_DESTROY replies once its context is NONE. -/
def State.resumeRes (s : State) (w : MbWait) : MbRes :=
  match w.cmd with
  | .ctxDestroy c => if s.ctxState c.toNat == 0 then .ok [] s else .wait s
  | c => s.runCmd w.hdr c

/-- The condition of a waiting command is met. -/
def State.mayResume (s : State) (w : MbWait) : Bool :=
  match s.resumeRes w with
  | .wait _ => false
  | _ => true

/-- `s` without a waiting command. -/
def State.unwait (s : State) (w : MbWait) : State := { s with host := { s.host with waiting := s.host.waiting.erase w } }

/-- MAILBOX_COMMAND_RESUME's effect: the first waiting command whose condition is met executes (R450). -/
def State.mbResume (s : State) : State :=
  match s.host.waiting.find? s.mayResume with
  | none => s
  | some w =>
    let t := s.unwait w
    let r := t.resumeRes w
    if t.cmdHeld w.hdr.mb.val w.item w.cmd r then s else t.finish w r

/-- A waiting command is past its deadline; the teardown that CTX_DESTROY began is no wait under R450. -/
def State.mbLate (s : State) (w : MbWait) : Bool :=
  let destroy := match w.cmd with
    | .ctxDestroy _ => true
    | _ => false
  w.hdr.deadline != 0 && !destroy && w.hdr.deadline.toNat ≤ (s.refclk - w.taken).toNat && !s.mayResume w

/-- MAILBOX_COMMAND_TIMEOUT's effect: a waiting command past its deadline ends with TIMED_OUT and changes nothing (R450). -/
def State.mbTimeout (s : State) : State :=
  match s.host.waiting.find? s.mbLate with
  | none => s
  | some w =>
    let r := MbRes.fail .timedOut (s.unwait w)
    if s.cmdHeld w.hdr.mb.val w.item w.cmd r then s else (s.unwait w).finish w r

/-! ### Taking a command (R445) -/

/-- The bytes of an accepted command of mailbox `mb`. -/
def State.itemBytes (s : State) (mb : Nat) (x : MbItem) : List Byte :=
  match x with
  | .slot i _ _ => s.bytes ((s.mbox mb).base + 1024 * i) 1024
  | .inline _ _ body => body

/-- The objects an accepted command names. -/
def State.itemObjects (s : State) (mb : Nat) (x : MbItem) : List MbObj :=
  match parseCmd (s.itemBytes mb x) with
  | some c => c.objects
  | none => []

/-- Two commands name a common object. -/
def meetObjs (a b : List MbObj) : Bool := a.any b.contains

/-- A waiting command names one of the objects. -/
def State.heldObjs (s : State) (l : List MbObj) : Bool := s.host.waiting.any fun w => meetObjs l w.cmd.objects

/-- A command of mailbox `mb` waits, which holds the mailbox. -/
def State.mbHeld (s : State) (mb : Nat) : Bool := s.host.waiting.any fun w => w.hdr.mb.val == mb

/-- A command of another mailbox accepted before number `n` names one of the objects (R445). -/
def State.objsAhead (s : State) (mb n : Nat) (l : List MbObj) : Bool :=
  !l.isEmpty && s.host.mboxes.any fun m => m.1 != mb && m.2.queue.any fun x => x.1 < n && meetObjs l (s.itemObjects m.1 x.2)

/-- The next command of mailbox `mb` may be taken. -/
def State.mbReady (s : State) (mb : Nat) : Bool :=
  let m := s.mbox mb
  m.isOpen && !s.mbHeld mb && (match m.queue with
    | [] => false
    | x :: _ => let l := s.itemObjects mb x.2; !s.heldObjs l && !s.objsAhead mb x.1 l)

/-- The mailbox served next, in round-robin after the one served last, of those that `f` holds for. -/
def State.nextMbox (s : State) (f : Nat → Bool) : Option Nat :=
  ((List.range 64).map fun i => (s.host.lastMbox + 1 + i) % 64).find? f

/-- A taken command executes; bytes that are no command get BAD_COMMAND, and an uncorrectable error in the slot gets MEDIA_ERROR
with opcode and tag 0 where the header could not be read (R446, R569). A command whose accesses are held is not taken: the answer
is none. -/
def State.execItem (s : State) (mb : MboxId) (x : MbItem) (ecc : Ecc) : Option State :=
  let bs := s.itemBytes mb.val x
  let op := cmdWord bs 0 % 2 ^ 16
  let tag := cmdWord bs 1 % 2 ^ 16
  let len := max 16 (min 1024 (cmdWord bs 0 / 2 ^ 16))
  let own := s.udpPort
  let slot := s.slotSpan mb.val (some x)
  let err (n : Nat) : Option Nat := s.spansError (slot.map fun y => (y.1, n)) ecc
  let ue (a : Nat) : State := s.recordUe (decodeTower belfryIsland) a
  if s.trafficHeld belfryIsland slot then none
  else
    match err 16, err len with
    | some a, _ => some ((ue a).sendReply own mb.val 0 0 0 (some x) .mediaError [])
    | none, some a => some ((ue a).sendReply own mb.val tag op 0 (some x) .mediaError [])
    | none, none =>
      let s := s.countSpans (decodeTower belfryIsland) slot ecc
      match parseCmd bs with
      | none => some (s.sendReply own mb.val tag op 0 (some x) .badCommand [])
      | some c =>
        let h := cmdHdr mb bs
        let r := s.runCmd h c
        if s.cmdHeld mb.val (some x) c r then none
        else some (s.finish { hdr := h, cmd := c, item := some x, taken := s.refclk } r)

/-- Lumdom may take a command: it runs, and no waiting command is due (R445, R450). -/
def State.mayTake (s : State) : Bool := s.pwr.st == .running && !s.host.waiting.any s.mayResume

/-- MAILBOX_COMMAND_TAKE's effect: while no waiting command is due, the next command of the mailbox served next executes
(R445, R450). -/
def State.mbTake (s : State) (ecc : Ecc) : State :=
  if !s.mayTake then s
  else
    match s.nextMbox s.mbReady with
    | none => s
    | some mb =>
      let m := s.mbox mb
      match m.queue with
      | [] => s
      | x :: rest =>
        let t := s.setMbox mb { m with queue := rest }
        let t := { t with host := { t.host with lastMbox := mb } }
        (t.execItem (Fin.ofNat 64 mb) x.2 ecc).getD s

/-- A command that arrives at mailbox `mb` now may be taken at once: the mailbox is open, idle and next in the round-robin, and no
waiting command or command accepted earlier names one of its objects (R445, R450). -/
def State.directReady (s : State) (mb : Nat) (c : MbCmd) : Bool :=
  s.mayTake && (s.mbox mb).isOpen && !s.mbHeld mb && (s.mbox mb).queue.isEmpty && !s.heldObjs c.objects
  && !s.objsAhead mb s.host.accepted c.objects && s.nextMbox (fun i => i == mb || s.mbReady i) == some mb

/-- A command executes as it arrives, where it may be taken at once and none of its accesses is held; its reply joins the list of
replies. -/
def State.direct (s : State) (h : CmdHdr) (c : MbCmd) : State :=
  let mb := h.mb.val
  let t := { s with host := { s.host with lastMbox := mb } }
  let r := t.runCmd h c
  if !s.directReady mb c || t.cmdHeld mb none c r then s
  else t.finish { hdr := h, cmd := c, item := none, taken := s.refclk } r

/-! ### The commands -/

/-- MAILBOX_COMMAND_TAKE (R445): `ecc` is the outcome of reading the slot. -/
def execMailboxCommandTake (ecc : Ecc) (s : State) : Host.Outcome State Fault Refusal := .next (s.mbTake ecc)
/-- MAILBOX_COMMAND_RESUME (R450). -/
def execMailboxCommandResume (s : State) : Host.Outcome State Fault Refusal := .next s.mbResume
/-- MAILBOX_COMMAND_TIMEOUT (R450). -/
def execMailboxCommandTimeout (s : State) : Host.Outcome State Fault Refusal := .next s.mbTimeout
/-- MBOX_OPEN (R439). -/
def execMboxOpen (h : CmdHdr) (mbox flags : Byte) (slots : Half) (base : DWord) (s : State) :
    Host.Outcome State Fault Refusal :=
  .next (s.direct h (.mboxOpen mbox flags slots base))
/-- MBOX_CLOSE (R452). -/
def execMboxClose (h : CmdHdr) (mbox : Byte) (s : State) : Host.Outcome State Fault Refusal :=
  .next (s.direct h (.mboxClose mbox))
/-- DEV_INFO (R453). -/
def execDevInfo (h : CmdHdr) (s : State) : Host.Outcome State Fault Refusal :=
  .next (s.direct h (.devInfo))
/-- DEV_RESET (R526). -/
def execDevReset (h : CmdHdr) (kind : Byte) (s : State) : Host.Outcome State Fault Refusal :=
  .next (s.direct h (.devReset kind))
/-- REG_READ (R453). -/
def execRegRead (h : CmdHdr) (count : Half) (addr : DWord) (s : State) : Host.Outcome State Fault Refusal :=
  .next (s.direct h (.regRead count addr))
/-- EVENT_MASK (R504). -/
def execEventMask (h : CmdHdr) (first count : Half) (masked : Byte) (s : State) : Host.Outcome State Fault Refusal :=
  .next (s.direct h (.eventMask first count masked))
/-- TELEMETRY_READ (R531). -/
def execTelemetryRead (h : CmdHdr) (s : State) : Host.Outcome State Fault Refusal :=
  .next (s.direct h (.telemetryRead))
/-- SSC_SET (R520). -/
def execSscSet (h : CmdHdr) (depth rate : Byte) (s : State) : Host.Outcome State Fault Refusal :=
  .next (s.direct h (.sscSet depth rate))
/-- CTX_CREATE (R570). -/
def execCtxCreate (h : CmdHdr) (ctx slotb slots : Byte) (thrBase thrCount : Half) (s : State) :
    Host.Outcome State Fault Refusal :=
  .next (s.direct h (.ctxCreate ctx slotb slots thrBase thrCount))
/-- CTX_DESTROY (R473). -/
def execCtxDestroy (h : CmdHdr) (ctx : Byte) (s : State) : Host.Outcome State Fault Refusal :=
  .next (s.direct h (.ctxDestroy ctx))
/-- CTX_QUEUE_SET (R453). -/
def execCtxQueueSet (h : CmdHdr) (ctx kind tower : Byte) (ringSize cqSize : Half) (ring cq : DWord) (s : State) :
    Host.Outcome State Fault Refusal :=
  .next (s.direct h (.ctxQueueSet ctx kind tower ringSize cqSize ring cq))
/-- CTX_SPAWN (R183). -/
def execCtxSpawn (h : CmdHdr) (ctx tower : Byte) (count : Word) (pc arg : DWord) (s : State) :
    Host.Outcome State Fault Refusal :=
  .next (s.direct h (.ctxSpawn ctx tower count pc arg))
/-- CTX_SCHED_SET (R463). -/
def execCtxSchedSet (h : CmdHdr) (ctx prio reserved : Byte) (allowed : List DWord) (s : State) :
    Host.Outcome State Fault Refusal :=
  .next (s.direct h (.ctxSchedSet ctx prio reserved allowed))
/-- LANTERN_SET (R461). -/
def execLanternSet (h : CmdHdr) (cores windows : Byte) (base size : DWord) (s : State) : Host.Outcome State Fault Refusal :=
  .next (s.direct h (.lanternSet cores windows base size))
/-- CTX_FAULT_READ (R476). -/
def execCtxFaultRead (h : CmdHdr) (ctx : Byte) (s : State) : Host.Outcome State Fault Refusal :=
  .next (s.direct h (.ctxFaultRead ctx))
/-- KV_TIMEOUT_SET (R267). -/
def execKvTimeoutSet (h : CmdHdr) (ctx mask : Byte) (ticks : Word) (s : State) : Host.Outcome State Fault Refusal :=
  .next (s.direct h (.kvTimeoutSet ctx mask ticks))
/-- STEP_GROUP_CREATE (R460). -/
def execStepGroupCreate (h : CmdHdr) (tag n : Byte) (members flags parent epoch : Half) (firstStep : Word)
    (seed : DWord) (children : List Half) (s : State) :
    Host.Outcome State Fault Refusal :=
  .next (s.direct h (.stepGroupCreate tag n members flags parent epoch firstStep seed children))
/-- STEP_GROUP_DISSOLVE (R475). -/
def execStepGroupDissolve (h : CmdHdr) (s : State) : Host.Outcome State Fault Refusal :=
  .next (s.direct h (.stepGroupDissolve))
/-- EPOCH_SET (R53). -/
def execEpochSet (h : CmdHdr) (epoch : Half) (s : State) : Host.Outcome State Fault Refusal :=
  .next (s.direct h (.epochSet epoch))
/-- BANK_TABLE_SET (R50). -/
def execBankTableSet (h : CmdHdr) (first count : Byte) (entries : List Word) (s : State) :
    Host.Outcome State Fault Refusal :=
  .next (s.direct h (.bankTableSet first count entries))
/-- STEP_TIMEOUT_SET (R46). -/
def execStepTimeoutSet (h : CmdHdr) (ticks : Word) (s : State) : Host.Outcome State Fault Refusal :=
  .next (s.direct h (.stepTimeoutSet ticks))
/-- PHASE_TABLE_READ (R55). -/
def execPhaseTableRead (h : CmdHdr) (back count : Byte) (s : State) : Host.Outcome State Fault Refusal :=
  .next (s.direct h (.phaseTableRead back count))
/-- BIAS_LOAD (R249). -/
def execBiasLoad (h : CmdHdr) (table mask : Byte) (count : Half) (src : DWord) (s : State) :
    Host.Outcome State Fault Refusal :=
  .next (s.direct h (.biasLoad table mask count src))
/-- MEM_LOCAL_SET (R317). -/
def execMemLocalSet (h : CmdHdr) (gib : Byte) (s : State) : Host.Outcome State Fault Refusal :=
  .next (s.direct h (.memLocalSet gib))
/-- MEM_CAL_SET (R322). -/
def execMemCalSet (h : CmdHdr) (interval : Half) (margin hours : Byte) (s : State) : Host.Outcome State Fault Refusal :=
  .next (s.direct h (.memCalSet interval margin hours))
/-- MEM_STATS_SET (R335). -/
def execMemStatsSet (h : CmdHdr) (entry enable : Byte) (base limit : DWord) (s : State) : Host.Outcome State Fault Refusal :=
  .next (s.direct h (.memStatsSet entry enable base limit))
/-- MEM_STATS_READ (R335). -/
def execMemStatsRead (h : CmdHdr) (entry clear : Byte) (s : State) : Host.Outcome State Fault Refusal :=
  .next (s.direct h (.memStatsRead entry clear))
/-- MIRROR_TABLE_SET (R342). -/
def execMirrorTableSet (h : CmdHdr) (first count : Byte) (entries : List Word) (s : State) :
    Host.Outcome State Fault Refusal :=
  .next (s.direct h (.mirrorTableSet first count entries))
/-- SNAPSHOT_LIST_SET (R343). -/
def execSnapshotListSet (h : CmdHdr) (count : Byte) (words : List Word) (s : State) : Host.Outcome State Fault Refusal :=
  .next (s.direct h (.snapshotListSet count words))
/-- SNAPSHOT_SCHEDULE_SET (R480). -/
def execSnapshotScheduleSet (h : CmdHdr) (mode : Byte) (interval : Half) (cost : Word) (s : State) :
    Host.Outcome State Fault Refusal :=
  .next (s.direct h (.snapshotScheduleSet mode interval cost))
/-- REPAIR_LIST_GET (R320). -/
def execRepairListGet (h : CmdHdr) (first count : Half) (s : State) : Host.Outcome State Fault Refusal :=
  .next (s.direct h (.repairListGet first count))
/-- REPAIR_LIST_PUT (R524). -/
def execRepairListPut (h : CmdHdr) (count : Half) (rows : List DWord) (s : State) : Host.Outcome State Fault Refusal :=
  .next (s.direct h (.repairListPut count rows))
/-- RED_GROUP_SET (R351). -/
def execRedGroupSet (h : CmdHdr) (group : Byte) (epoch : Half) (entry : List Word) (s : State) :
    Host.Outcome State Fault Refusal :=
  .next (s.direct h (.redGroupSet group epoch entry))
/-- RED_BUCKETS_SET (R353). -/
def execRedBucketsSet (h : CmdHdr) (group : Byte) (epoch : Half) (first count : Word) (src : DWord) (s : State) :
    Host.Outcome State Fault Refusal :=
  .next (s.direct h (.redBucketsSet group epoch first count src))
/-- RED_SCALE_SET (R354). -/
def execRedScaleSet (h : CmdHdr) (group : Byte) (epoch bucket sOpen : Half) (s : State) : Host.Outcome State Fault Refusal :=
  .next (s.direct h (.redScaleSet group epoch bucket sOpen))
/-- RED_GROUP_READ (R350). -/
def execRedGroupRead (h : CmdHdr) (group : Byte) (epoch : Half) (s : State) : Host.Outcome State Fault Refusal :=
  .next (s.direct h (.redGroupRead group epoch))
/-- FAB_PORTS_READ (R453). -/
def execFabPortsRead (h : CmdHdr) (s : State) : Host.Outcome State Fault Refusal :=
  .next (s.direct h (.fabPortsRead))
/-- FAB_ADDR_SET (R416). -/
def execFabAddrSet (h : CmdHdr) (tSize sSize dSize dateline enable : Byte) (addr : Half) (s : State) :
    Host.Outcome State Fault Refusal :=
  .next (s.direct h (.fabAddrSet tSize sSize dSize dateline enable addr))
/-- FAB_ROUTE_SET (R419). -/
def execFabRouteSet (h : CmdHdr) (axis first : Byte) (count : Half) (entries : List Byte) (s : State) :
    Host.Outcome State Fault Refusal :=
  .next (s.direct h (.fabRouteSet axis first count entries))
/-- FAB_CFG_SET (R453). -/
def execFabCfgSet (h : CmdHdr) (rotInterval reqTimeout : Word) (violWindow : Half) (violLimit minMargin : Byte) (s : State) :
    Host.Outcome State Fault Refusal :=
  .next (s.direct h (.fabCfgSet rotInterval reqTimeout violWindow violLimit minMargin))
/-- HOST_ADDR_SET (R424). -/
def execHostAddrSet (h : CmdHdr) (which clear : Byte) (addr : List Byte) (s : State) : Host.Outcome State Fault Refusal :=
  .next (s.direct h (.hostAddrSet which clear addr))
/-- HOST_PORT_SET (R453). -/
def execHostPortSet (h : CmdHdr) (udp vlan : Half) (roce belpel pfc : Byte) (s : State) : Host.Outcome State Fault Refusal :=
  .next (s.direct h (.hostPortSet udp vlan roce belpel pfc))
/-- HOST_NEIGH_SET (R422). -/
def execHostNeighSet (h : CmdHdr) (first count : Byte) (entries : List Byte) (s : State) :
    Host.Outcome State Fault Refusal :=
  .next (s.direct h (.hostNeighSet first count entries))
/-- QP_SET (R425). -/
def execQpSet (h : CmdHdr) (qp : Half) (mtu tclass ackTimeout retry : Byte) (remoteQpn sqPsn rqPsn rkey : Word)
    (ip : List Byte) (va len : DWord) (s : State) :
    Host.Outcome State Fault Refusal :=
  .next (s.direct h (.qpSet qp mtu tclass ackTimeout retry remoteQpn sqPsn rqPsn rkey ip va len))
/-- QP_RESET (R426). -/
def execQpReset (h : CmdHdr) (qp : Half) (s : State) : Host.Outcome State Fault Refusal :=
  .next (s.direct h (.qpReset qp))
/-- QP_QUERY (R568). -/
def execQpQuery (h : CmdHdr) (qp : Half) (s : State) : Host.Outcome State Fault Refusal :=
  .next (s.direct h (.qpQuery qp))
/-- WINDOW_SET (R427). -/
def execWindowSet (h : CmdHdr) (win perms : Byte) (rkey : Word) (base : DWord) (size : Word) (s : State) :
    Host.Outcome State Fault Refusal :=
  .next (s.direct h (.windowSet win perms rkey base size))
/-- ALLOW_SET (R433). -/
def execAllowSet (h : CmdHdr) (count : Byte) (entries : List Byte) (s : State) : Host.Outcome State Fault Refusal :=
  .next (s.direct h (.allowSet count entries))
/-- EVENT_ENDPOINT_SET (R437). -/
def execEventEndpointSet (h : CmdHdr) (port : Half) (ip : List Byte) (s : State) : Host.Outcome State Fault Refusal :=
  .next (s.direct h (.eventEndpointSet port ip))
/-- FW_STAGE (R541). -/
def execFwStage (h : CmdHdr) (len : Word) (src : DWord) (s : State) : Host.Outcome State Fault Refusal :=
  .next (s.direct h (.fwStage len src))
/-- FW_ACTIVATE (R542). -/
def execFwActivate (h : CmdHdr) (s : State) : Host.Outcome State Fault Refusal :=
  .next (s.direct h (.fwActivate))
/-- ATTEST (R546). -/
def execAttest (h : CmdHdr) (nonce : List Byte) (cap : Word) (dst : DWord) (s : State) : Host.Outcome State Fault Refusal :=
  .next (s.direct h (.attest nonce cap dst))
/-- IDENTITY_READ (R544). -/
def execIdentityRead (h : CmdHdr) (cap : Word) (dst : DWord) (s : State) : Host.Outcome State Fault Refusal :=
  .next (s.direct h (.identityRead cap dst))
/-- FAILURE_REPORT (R483). -/
def execFailureReport (h : CmdHdr) (failures hours : Word) (s : State) : Host.Outcome State Fault Refusal :=
  .next (s.direct h (.failureReport failures hours))
/-- MIRROR_REFILL (R490). -/
def execMirrorRefill (h : CmdHdr) (entry : Byte) (src : Half) (s : State) : Host.Outcome State Fault Refusal :=
  .next (s.direct h (.mirrorRefill entry src))
/-- CODEC_MAINT_ON (R307). -/
def execCodecMaintOn (h : CmdHdr) (s : State) : Host.Outcome State Fault Refusal :=
  .next (s.direct h (.codecMaint 1))
/-- CODEC_MAINT_OFF (R307). -/
def execCodecMaintOff (h : CmdHdr) (s : State) : Host.Outcome State Fault Refusal :=
  .next (s.direct h (.codecMaint 0))
/-- FAB_PORT_RETRAIN (R412). -/
def execFabPortRetrain (h : CmdHdr) (port : Byte) (s : State) : Host.Outcome State Fault Refusal :=
  .next (s.direct h (.fabPortCtl port 0))
/-- FAB_PORT_QUARANTINE (R409). -/
def execFabPortQuarantine (h : CmdHdr) (port : Byte) (s : State) : Host.Outcome State Fault Refusal :=
  .next (s.direct h (.fabPortCtl port 1))
/-- FAB_ROT_EN_SET (R390). -/
def execFabRotEnSet (h : CmdHdr) (port : Byte) (s : State) : Host.Outcome State Fault Refusal :=
  .next (s.direct h (.fabPortCtl port 2))
/-- FAB_ROT_EN_CLEAR (R390). -/
def execFabRotEnClear (h : CmdHdr) (port : Byte) (s : State) : Host.Outcome State Fault Refusal :=
  .next (s.direct h (.fabPortCtl port 3))

end Sys2Proof.Machine
end

