-- ==== Sys2Proof/Machine/Pins.lean ====
section
/-! DEFINITION. The test access port, test mode, ALERT_N and the seam chain (R413 to R415, R547 to R557). -/

namespace Sys2Proof.Machine

/-! ### Test access port (R554 to R557) -/

/-- The device is in test mode (R557). -/
def State.testMode (s : State) : Bool := s.bit .tstTapStat 0 0 tstTapStat_testMode

/-- An instruction is updated into the port of a powered device, and captures `scan` into its data register (R555). -/
def State.tapIr (s : State) (ir scan : Nat) : State :=
  if s.pwr.st == .off then s
  else ({ s with pwr := { s.pwr with scan := scan } }).setFld .tstTapStat 0 0 tstTapStat_lastIr ir

/-- The links stop, as at the start of test mode: the ports and the host link (R557). -/
def State.stopLinks (s : State) : State :=
  (s.each (List.range 6) fun s p => if s.portState p == 0 then s else s.setPortState p 0).hostLinkLost

/-- A pin-controlling instruction takes the pins from the device: test mode begins (R557). -/
def State.takePins (s : State) (ir scan : Nat) : State :=
  if s.pwr.st == .off then s else ((s.tapIr ir scan).flag .tstTapStat 0 0 tstTapStat_testMode).stopLinks

/-- The boundary register takes new cells. -/
def State.setCells (s : State) (c : BitVec 257) : State :=
  if s.pwr.st == .off then s else { s with pwr := { s.pwr with cells := c } }

/-- IDCODE's data register (R555). -/
def idcode : Nat := 0x12408A4F

/-- Whether a code is one of the instructions of R555. -/
def tapListed (c : Nat) : Bool := c ≤ 2 || (4 ≤ c && c ≤ 7) || c == 0x10

/-- ALERT_N is driven low: a thermal trip holds the device, the boot ROM is halted, or the input is out of range (R551). -/
def State.alert (s : State) : Bool := s.pwr.tripHold || s.pwr.st == .halted || s.pwr.overVolt || s.pwr.underVolt

/-! ### Seam chain (R413 to R415) -/

/-- The belfry serves the seam chain: it runs and is out of reset. -/
def State.belfryUp (s : State) : Bool := s.pwr.st == .running || s.pwr.st == .halted || s.pwr.st == .flashWait

def State.hasIndex (s : State) : Bool := s.bit .ctlSeamStat 0 0 ctlSeamStat_valid

/-- The module takes index `i` and sends its frames from now on (R413, R414). -/
def State.takeIndex (s : State) (i : Nat) : State :=
  let s := (s.setFld .ctlSeamStat 0 0 ctlSeamStat_index i).setFld .ctlSeamStat 0 0 ctlSeamStat_valid 1
  { s with fab := { s.fab with seam := { s.fab.seam with sentTick := s.refclk, lastFrame := s.refclk } } }

/-- The CRC of a seam frame, over bytes 1 to 5 (R413). -/
def seamCrc (w0 w1 : Word) : Nat := crcMsb 16 0x1021 0xFFFF ((bytesOf 4 w0.toNat).drop 1 ++ (bytesOf 4 w1.toNat).take 2)

/-- The seam frame of an index (R413). -/
def seamFrame (i : Nat) : Word × Word :=
  let w0 : Word := BitVec.ofNat 32 (0xD5 + i % 4096 * 2 ^ 8)
  (w0, BitVec.ofNat 32 (seamCrc w0 0 * 2 ^ 16))

/-- SEAM_FRAME_SEND: a module that holds an index sends a frame every 1,024 bit times (R413); none in test mode (R557). -/
def State.seamSend (s : State) : State :=
  if !s.belfryUp || !s.hasIndex || s.testMode || (s.refclk - s.fab.seam.sentTick).toNat < 4096 then s
  else { s with fab := { s.fab with seam := { s.fab.seam with
    sentTick := s.refclk, sent := s.fab.seam.sent + 1
    frames := seamFrame (s.fld .ctlSeamStat 0 0 ctlSeamStat_index) :: s.fab.seam.frames } } }

/-- SEAM_FRAME_RECEIVE: a frame with a wrong sync or CRC is counted; a valid one gives an index to a module without one, and
one that implies another index sets mismatch and raises SEAM_MISMATCH (R413 to R415). -/
def State.seamIn (s : State) (w0 w1 : Word) : State :=
  let i := w0.toNat / 2 ^ 8 % 4096
  if !s.belfryUp then s
  else if w0.toNat % 256 != 0xD5 || seamCrc w0 w1 != w1.toNat / 2 ^ 16 then
    s.count .ctlSeamStat 0 0 ctlSeamStat_badFrames 1
  else
    let s := { s with fab := { s.fab with seam := { s.fab.seam with lastFrame := s.refclk, lostSeen := false } } }
    if s.hasIndex then
      if s.fld .ctlSeamStat 0 0 ctlSeamStat_index == i + 1 then s
      else (s.flag .ctlSeamStat 0 0 ctlSeamStat_mismatch).raise 5 (i + 1)
    else if i == 4095 then s.flag .ctlSeamStat 0 0 ctlSeamStat_indexOverflow
    else s.takeIndex (i + 1)

/-- SEAM_HEAD_DETECT: SEAM_IN stays high, so a module without an index takes index 0 and sets head (R414). -/
def State.seamHead (s : State) : State :=
  if !s.belfryUp || s.hasIndex then s else (s.takeIndex 0).setFld .ctlSeamStat 0 0 ctlSeamStat_head 1

/-- SEAM_LOST: four frame periods without a valid frame, counted from the module's taking its index where none has come since
(R415). -/
def State.seamLost (s : State) : State :=
  if !s.hasIndex || s.fab.seam.lostSeen || (s.refclk - s.fab.seam.lastFrame).toNat < 16384 then s
  else
    let s := { s with fab := { s.fab with seam := { s.fab.seam with lostSeen := true } } }
    (s.flag .ctlSeamStat 0 0 ctlSeamStat_lost).raise 6 0

/-! ### The commands -/

/-- EXTEST (R557). -/
def execExtest (cells : BitVec 257) (s : State) : Host.Outcome State Fault Refusal :=
  .next ((s.takePins 0x00 cells.toNat).setCells cells)
/-- IDCODE (R555). -/
def execIdcode (s : State) : Host.Outcome State Fault Refusal := .next (s.tapIr 0x01 idcode)
/-- SAMPLE_PRELOAD (R555). -/
def execSamplePreload (pins cells : BitVec 257) (s : State) : Host.Outcome State Fault Refusal :=
  .next ((s.tapIr 0x02 pins.toNat).setCells cells)
/-- CLAMP (R557). -/
def execClamp (s : State) : Host.Outcome State Fault Refusal := .next (s.takePins 0x04 0)
/-- HIGHZ (R557). -/
def execHighz (s : State) : Host.Outcome State Fault Refusal := .next (s.takePins 0x05 0)
/-- EXTEST_PULSE (R557). -/
def execExtestPulse (cells : BitVec 257) (s : State) : Host.Outcome State Fault Refusal :=
  .next ((s.takePins 0x06 cells.toNat).setCells cells)
/-- EXTEST_TRAIN (R557). -/
def execExtestTrain (cells : BitVec 257) (s : State) : Host.Outcome State Fault Refusal :=
  .next ((s.takePins 0x07 cells.toNat).setCells cells)
/-- BOOT_STAT (R555). -/
def execBootStat (s : State) : Host.Outcome State Fault Refusal := .next (s.tapIr 0x10 (s.reg .secBootStat 0 0).toNat)
/-- BYPASS: code 0xFF, and every code that R555 does not list (R555). -/
def execBypass (code : Byte) (s : State) : Host.Outcome State Fault Refusal :=
  .next (if tapListed code.toNat then s else s.tapIr code.toNat 0)
/-- TEST_LOGIC_RESET (R555, R557). -/
def execTestLogicReset (s : State) : Host.Outcome State Fault Refusal := .next (s.tapIr 0x01 idcode)
/-- SEAM_FRAME_SEND (R413). -/
def execSeamFrameSend (s : State) : Host.Outcome State Fault Refusal := .next s.seamSend
/-- SEAM_FRAME_RECEIVE (R413). -/
def execSeamFrameReceive (w0 w1 : Word) (s : State) : Host.Outcome State Fault Refusal := .next (s.seamIn w0 w1)
/-- SEAM_HEAD_DETECT (R414). -/
def execSeamHeadDetect (s : State) : Host.Outcome State Fault Refusal := .next s.seamHead
/-- SEAM_LOST (R415). -/
def execSeamLost (s : State) : Host.Outcome State Fault Refusal := .next s.seamLost

end Sys2Proof.Machine
end

