-- ==== Sys2Proof/Machine/Refresh.lean ====
section
/-! DEFINITION. Refresh, scrub and calibration of HBM (R313, R318 to R326, R514). -/

namespace Sys2Proof.Machine

/-- The controller group of stack `k` is ready (R22). -/
def State.hbmReady (s : State) (k : Nat) : Bool :=
  (s.fld .ctlIslandReady 0 0 ctlIslandReady_hbmGroupReady).testBit (k / 3)

/-- The HBM group loop of stack `k` coasts (R509, R514). -/
def State.hbmCoasts (s : State) (k : Nat) : Bool := s.bit .clkLoopStat 0 (9 + k / 3) clkLoopStat_coasting

/-- A refresh of a pseudo-channel is issued. -/
def State.refreshed (s : State) (k pc : Nat) : State :=
  { s with ram := { s.ram with refreshes := tmod s.ram.refreshes (pcKey k pc) (· + 1) } }

/-- HBM_REFRESH: the all-bank refresh that is due is issued (R313). -/
def State.hbmRefresh (s : State) (k pc : Nat) : State := if s.hbmReady k then s.refreshed k pc else s

/-- REFRESH_MANAGEMENT_REQUEST: the controller issues the refresh management commands a stack asks for (R313). -/
def State.refreshManage (s : State) (k pc : Nat) : State :=
  if s.hbmReady k then { s with ram := { s.ram with rfm := tmod s.ram.rfm (pcKey k pc) (· + 1) } } else s

/-- A repair list row: stack, pseudo-channel and the row as the controller reported it (R453). -/
def repairRow (k pc row : Nat) : DWord := BitVec.ofNat 64 (k * 2 ^ 56 + pc * 2 ^ 48 + row % 2 ^ 48)

/-- MEM_REPAIR: a row that needs correction in this pass and needed it in the last enters the repair list, once (R320). -/
def State.scrubCorrected (s : State) (k : Nat) (row : DWord) : State :=
  let now := if s.ram.scrubNow.contains row then s.ram.scrubNow else s.ram.scrubNow ++ [row]
  let s := { s with ram := { s.ram with scrubNow := now } }
  if s.ram.scrubLast.contains row && !s.ram.repair.contains row then
    ({ s with ram := { s.ram with repair := s.ram.repair ++ [row] } }).raise 131 (2 ^ k)
  else s

/-- A scrub pass over the three stacks of drum `t` ends, and the next begins (R320). -/
def State.scrubEnds (s : State) (t : Nat) : State :=
  let mine (row : DWord) : Bool := row.toNat / 2 ^ 56 / 3 == t
  { s with ram := { s.ram with
    scrubLast := (s.ram.scrubLast.filter fun r => !mine r) ++ s.ram.scrubNow.filter mine
    scrubNow := s.ram.scrubNow.filter fun r => !mine r } }

/-- SCRUB_READ: the patrol scrub of a drum reads the 32-byte word at stack-local address `x` of its stack `k`, in the row the
controller reports, and writes back a correction; an uncorrectable error is recorded and faults no context. `last` ends the pass
of that drum's stacks (R314, R318 to R320). -/
def State.scrubRead (s : State) (k x row : Nat) (ecc : Ecc) (last : Bool) : State :=
  let t := k / 3
  let a := hbmAddr (s.localGib t) k (x / 32 * 32)
  if s.fld .memScrubCfg t 0 memScrubCfg_scrubHours == 0 || x ≥ 64 * gib || !s.hbmReady k then s
  else
    let s := match s.readError a 32 ecc with
      | some b => s.recordUe t b
      | none =>
        if (ecc.fixed a 32).isEmpty then s
        else (s.countFixed t a 32 ecc).scrubCorrected k (repairRow k (pseudoChannel x) row)
    if last then s.scrubEnds t else s

/-- CAL_WINDOW_OPEN: once the interval has passed, the controller of stack `k` holds the next pseudo-channel of its rotation
and issues the refresh that is due; none opens while its loop coasts (R322, R514). -/
def State.calOpen (s : State) (k : Nat) : State :=
  let w := tget s.ram.cal k
  let every := s.fld .memCalCfg (k / 3) 0 memCalCfg_calInterval
  if every == 0 || w.isOpen || !s.hbmReady k || s.hbmCoasts k || (s.refclk - w.tick).toNat < every then s
  else
    let pc := s.fld .memCalStat (k / 3) (k % 3) memCalStat_nextPc
    let s := { s with ram := { s.ram with cal := tput s.ram.cal k { pc := pc, isOpen := true, tick := s.refclk } } }
    s.refreshed k pc

/-- CAL_WINDOW_CLOSE: the sweeps end with a read and a write eye margin; the new settings are applied when both reach
cal_min_margin, and the held requests are released (R322, R326). -/
def State.calClose (s : State) (k rd wr : Nat) : State :=
  let w := tget s.ram.cal k
  let least := s.fld .memCalCfg (k / 3) 0 memCalCfg_calMinMargin
  if !w.isOpen then s
  else
    let s := s.calEnd k
    if least ≤ rd && least ≤ wr then s.calApply k w.pc else s.calKeep k w.pc

/-- CAL_WINDOW_ABORT: a window reaches its limit, or a command or address parity error strikes its pseudo-channel (R323,
R325). -/
def State.calOverrun (s : State) (k : Nat) : State := if (tget s.ram.cal k).isOpen then s.calAbort k else s

/-! ### The commands -/

/-- HBM_REFRESH (R313). -/
def execHbmRefresh (k : Fin 24) (pc : Fin 64) (s : State) : Host.Outcome State Fault Refusal := .next (s.hbmRefresh k pc)
/-- REFRESH_MANAGEMENT_REQUEST (R313). -/
def execRefreshManagementRequest (k : Fin 24) (pc : Fin 64) (s : State) : Host.Outcome State Fault Refusal :=
  .next (s.refreshManage k pc)
/-- SCRUB_READ (R320). -/
def execScrubRead (a : StackPlace) (row : Addr) (ecc : Ecc) (last : Bool) (s : State) : Host.Outcome State Fault Refusal :=
  .next (s.scrubRead a.stack.val a.addr.toNat row.toNat ecc last)
/-- CAL_WINDOW_OPEN (R322). -/
def execCalWindowOpen (k : Fin 24) (s : State) : Host.Outcome State Fault Refusal := .next (s.calOpen k)
/-- CAL_WINDOW_CLOSE (R322). -/
def execCalWindowClose (k : Fin 24) (rd wr : Nat) (s : State) : Host.Outcome State Fault Refusal :=
  .next (s.calClose k rd wr)
/-- CAL_WINDOW_ABORT (R323). -/
def execCalWindowAbort (k : Fin 24) (s : State) : Host.Outcome State Fault Refusal := .next (s.calOverrun k)

end Sys2Proof.Machine
end

