-- ==== Sys2Proof/Machine/ScalarIsa.lean ====
section
/-! DEFINITION. Scalar, branch and set-length instructions (R189, R210, R211). -/

namespace Sys2Proof.Machine

/-- Scalar registers d, a and b; no vector length enters. -/
def shapeSss : Shape := { form := .reg, d := .s, a := .s, b := .s }

/-- sd = `op` sa sb (R210). -/
def scalarOp (t : Tower) (i : Nat) (f : Fields) (op : DWord → DWord → DWord) (s : State) : State :=
  thrOp t i f (fun _ => shapeSss) (fun x => x.setS f.d.toNat (op (x.s f.a.toNat) (x.s f.b.toNat))) s

/-- SADD: sd = sa + sb (R210). -/
def execSadd (t : Tower) (i : Nat) (f : Fields) (s : State) : Host.Outcome State Fault Refusal :=
  .next (scalarOp t i f (fun x y => x + y) s)

/-- SSUB: sd = sa − sb (R210). -/
def execSsub (t : Tower) (i : Nat) (f : Fields) (s : State) : Host.Outcome State Fault Refusal :=
  .next (scalarOp t i f (fun x y => x - y) s)

/-- SMUL: sd = low 64 bits of sa × sb (R210). -/
def execSmul (t : Tower) (i : Nat) (f : Fields) (s : State) : Host.Outcome State Fault Refusal :=
  .next (scalarOp t i f (fun x y => x * y) s)

/-- SAND: sd = sa AND sb (R210). -/
def execSand (t : Tower) (i : Nat) (f : Fields) (s : State) : Host.Outcome State Fault Refusal :=
  .next (scalarOp t i f (fun x y => x &&& y) s)

/-- SOR: sd = sa OR sb (R210). -/
def execSor (t : Tower) (i : Nat) (f : Fields) (s : State) : Host.Outcome State Fault Refusal :=
  .next (scalarOp t i f (fun x y => x ||| y) s)

/-- SXOR: sd = sa XOR sb (R210). -/
def execSxor (t : Tower) (i : Nat) (f : Fields) (s : State) : Host.Outcome State Fault Refusal :=
  .next (scalarOp t i f (fun x y => x ^^^ y) s)

/-- SSHL: sd = sa << (sb mod 64) (R210). -/
def execSshl (t : Tower) (i : Nat) (f : Fields) (s : State) : Host.Outcome State Fault Refusal :=
  .next (scalarOp t i f (fun x y => x <<< (y.toNat % 64)) s)

/-- SSHR: logical right shift by sb mod 64 (R210). -/
def execSshr (t : Tower) (i : Nat) (f : Fields) (s : State) : Host.Outcome State Fault Refusal :=
  .next (scalarOp t i f (fun x y => x >>> (y.toNat % 64)) s)

/-- SSRA: arithmetic right shift by sb mod 64 (R210). -/
def execSsra (t : Tower) (i : Nat) (f : Fields) (s : State) : Host.Outcome State Fault Refusal :=
  .next (scalarOp t i f (fun x y => x.sshiftRight (y.toNat % 64)) s)

/-- The order of two scalars, unsigned or signed. -/
def scalarCmp (unsigned : Bool) (x y : DWord) : Ordering :=
  if unsigned then compare x.toNat y.toNat else compare x.toInt y.toInt

/-- SCMP: sd = 1 if predicate fn[2:0] holds of sa and sb, unsigned with fn[3], else 0 (R210). -/
def execScmp (t : Tower) (i : Nat) (f : Fields) (s : State) : Host.Outcome State Fault Refusal :=
  .next (thrOp t i f (fun _ => { shapeSss with fn := true, ok := f.fn % 8 ≤ 5 && f.fn / 16 == 0 })
    (fun x => x.setS f.d.toNat
      (if predOf (f.fn % 8) (scalarCmp (f.fn / 8 % 2 == 1) (x.s f.a.toNat) (x.s f.b.toNat)) then 1 else 0)) s)

/-- SADDI: sd = sa + imm (R210). -/
def execSaddi (t : Tower) (i : Nat) (f : Fields) (s : State) : Host.Outcome State Fault Refusal :=
  .next (thrOp t i f (fun _ => { form := .imm, d := .s, a := .s })
    (fun x => x.setS f.d.toNat (x.s f.a.toNat + f.imm)) s)

/-- SLI: sd = imm (R210). -/
def execSli (t : Tower) (i : Nat) (f : Fields) (s : State) : Host.Outcome State Fault Refusal :=
  .next (thrOp t i f (fun _ => { form := .imm, d := .s }) (fun x => x.setS f.d.toNat f.imm) s)

/-- SLIH: sd[63:32] = imm; sd[31:0] unchanged (R210). -/
def execSlih (t : Tower) (i : Nat) (f : Fields) (s : State) : Host.Outcome State Fault Refusal :=
  .next (thrOp t i f (fun _ => { form := .imm, d := .s })
    (fun x => x.setS f.d.toNat (f.up ++ (x.s f.d.toNat).extractLsb' 0 32)) s)

/-- The special values of R211. -/
def State.special (s : State) (k : Nat) (x : Seat) (fn : Nat) : DWord :=
  match fn with
  | 0 => BitVec.ofNat 64 (keyIndex k)
  | 1 => BitVec.ofNat 64 (keyTower k)
  | 2 => BitVec.ofNat 64 (s.trec k).ctx
  | 3 => BitVec.ofNat 64 x.sc.flags.bits
  | 4 => s.refclk
  | 5 => s.stepNo.zeroExtend 64
  | 6 => BitVec.ofNat 64 (64 * keyTower k + x.core)
  | _ => BitVec.ofNat 64 (s.fld .plynFabAddr (keyTower k) 0 plynFabAddr_addr)

/-- SRD: sd = special value fn, read at this moment; 8 to 127 reserved (R211). The flags wait for the conditions of earlier
instructions (R232; log entry 16). -/
def execSrd (t : Tower) (i : Nat) (f : Fields) (s : State) : Host.Outcome State Fault Refusal :=
  .next (if f.fn == 3 && !s.flagsSettled (thrKey t.val i) then s
    else thrRun t i f (fun _ => { form := .reg, d := .s, fn := true, ok := f.fn ≤ 7 })
      (fun k x s => s.setSeat k (x.setS f.d.toNat (s.special k x f.fn)).adv) s)

/-- SWRF: flags = sa[4:0], after every earlier instruction has put its conditions into them (R210, R232; log entry 16). -/
def execSwrf (t : Tower) (i : Nat) (f : Fields) (s : State) : Host.Outcome State Fault Refusal :=
  .next (if !s.flagsSettled (thrKey t.val i) then s else thrOp t i f (fun _ => { form := .reg, a := .s })
    (fun x => { x with sc := { x.sc with flags := FFlags.ofBits ((x.s f.a.toNat).toNat % 32) } }) s)

/-- The address of a relative branch: pc + 8 × imm, pc being the branch's own address (R210). -/
def branchTarget (x : Seat) (f : Fields) : Nat := (x.sc.pc + 8 * f.imm.toNat) % 2 ^ 64

/-- A seat whose next instruction is at `pc`. -/
def Seat.jump (x : Seat) (pc : Nat) : Seat := { x with sc := { x.sc with pc := pc } }

/-- A conditional relative branch (R210). -/
def condBranch (t : Tower) (i : Nat) (f : Fields) (cond : DWord → DWord → Bool) (s : State) : State :=
  thrRun t i f (fun _ => { form := .imm, a := .s, b := .s })
    (fun k x s => s.setSeat k
      (if cond (x.s f.a.toNat) (x.s f.b.toNat) then x.jump (branchTarget x f) else x.adv)) s

/-- B: pc = pc + 8 × imm (R210). -/
def execBranch (t : Tower) (i : Nat) (f : Fields) (s : State) : Host.Outcome State Fault Refusal :=
  .next (thrRun t i f (fun _ => { form := .imm }) (fun k x s => s.setSeat k (x.jump (branchTarget x f))) s)

/-- BEQ: branch if sa = sb (R210). -/
def execBeq (t : Tower) (i : Nat) (f : Fields) (s : State) : Host.Outcome State Fault Refusal :=
  .next (condBranch t i f (fun x y => x == y) s)

/-- BNE: branch if sa ≠ sb (R210). -/
def execBne (t : Tower) (i : Nat) (f : Fields) (s : State) : Host.Outcome State Fault Refusal :=
  .next (condBranch t i f (fun x y => x != y) s)

/-- BLT: branch if sa < sb, signed (R210). -/
def execBlt (t : Tower) (i : Nat) (f : Fields) (s : State) : Host.Outcome State Fault Refusal :=
  .next (condBranch t i f (fun x y => x.slt y) s)

/-- BGE: branch if sa ≥ sb, signed (R210). -/
def execBge (t : Tower) (i : Nat) (f : Fields) (s : State) : Host.Outcome State Fault Refusal :=
  .next (condBranch t i f (fun x y => y.sle x) s)

/-- BLTU: branch if sa < sb, unsigned (R210). -/
def execBltu (t : Tower) (i : Nat) (f : Fields) (s : State) : Host.Outcome State Fault Refusal :=
  .next (condBranch t i f (fun x y => x.ult y) s)

/-- BGEU: branch if sa ≥ sb, unsigned (R210). -/
def execBgeu (t : Tower) (i : Nat) (f : Fields) (s : State) : Host.Outcome State Fault Refusal :=
  .next (condBranch t i f (fun x y => y.ule x) s)

/-- JAL: sd = pc + 8; pc = pc + 8 × imm (R210). -/
def execJal (t : Tower) (i : Nat) (f : Fields) (s : State) : Host.Outcome State Fault Refusal :=
  .next (thrRun t i f (fun _ => { form := .imm, d := .s })
    (fun k x s => s.setSeat k
      ((x.setS f.d.toNat (BitVec.ofNat 64 (x.sc.pc + 8))).jump (branchTarget x f))) s)

/-- JR: t = sa; sd = pc + 8; pc = t; a t that is not a multiple of 8 raises MISALIGNED (R210, R233). -/
def execJr (t : Tower) (i : Nat) (f : Fields) (s : State) : Host.Outcome State Fault Refusal :=
  .next (thrRun t i f (fun _ => { form := .reg, d := .s, a := .s })
    (fun k x s =>
      let dest := (x.s f.a.toNat).toNat
      if dest % 8 != 0 then s.thrException k 2 0
      else s.setSeat k ((x.setS f.d.toNat (BitVec.ofNat 64 (x.sc.pc + 8))).jump dest)) s)

/-- SETVL: vtype = imm[7:0]; vl = min(sa, VLMAX); sd = vl; a reserved vtype is illegal and changes nothing (R189, R210). -/
def execSetvl (t : Tower) (i : Nat) (f : Fields) (s : State) : Host.Outcome State Fault Refusal :=
  .next (thrRun t i f (fun _ => { form := .imm, d := .s, a := .s, ok := f.up.toNat / 256 == 0 && vtOk (f.up.truncate 8) })
    (fun k x s =>
      let vt : Byte := f.up.truncate 8
      let vl := min (x.s f.a.toNat).toNat (vlmax (codeWidth (vtCode vt)))
      let y := x.setS f.d.toNat (BitVec.ofNat 64 vl)
      s.setSeat k { y with sc := { y.sc with vl := vl, vtype := vt } }.adv) s)

end Sys2Proof.Machine
end

