-- ==== Sys2Proof/Machine/VecConv.lean ====
section
/-! DEFINITION. Conversions of the vector cores (R216 to R218). -/

namespace Sys2Proof.Machine

/-- Element `i` of the active vtype in a group of `k` registers that starts at `first`: VLMAX / k elements in a register (R209).
-/
def Seat.groupElem (x : Seat) (k first i : Nat) : Nat :=
  let n := vlmax x.w / k
  (x.vec (first + i / n)).toNat / 2 ^ (x.w * (i % n)) % 2 ^ x.w

/-- The exact value of source element `j` of the active vtype, in a group of `k` registers that starts at `r` (R209, R216). -/
def Seat.srcVal (x : Seat) (k r j : Nat) : FVal :=
  let n := x.groupElem k r j
  match codeFloat (vtCode x.sc.vtype) with
  | some ff => ff.decode n
  | none => .ofInt (if vtUnsigned x.sc.vtype then n else untwos x.w n)

/-- Conversion of an exact value to element code `c`, unsigned with `u`: floating-point types by R60, int8 and int4
saturating to ±127 and ±7 by R61, int16 and int32 to ±(2^(width − 1) − 1), unsigned types to 0 and 2^width − 1 (R217);
`widen` keeps an integer source of a narrower or equal range as it is. -/
def convTo (c : Nat) (u : Bool) (v : FVal) : Nat × FFlags :=
  match codeFloat c with
  | some ff => let r := ff.encode .nearest v; (r.code, r.flags)
  | none =>
    let w := codeWidth c
    let hi : Int := if u then 2 ^ w - 1 else 2 ^ (w - 1) - 1
    let r := convInt (if u then 0 else -hi) hi v
    (twos w r.val, r.flags)

/-- The destination byte fn[5:0] names a type (R207, R216). -/
def dstOk (f : Fields) : Bool := vtOk (BitVec.ofNat 8 (f.fn % 64)) && f.fn / 64 == 0

/-- Group sizes of a conversion: the wider side is a group (R209). -/
def groupOf (wide narrow : Nat) : Nat := if wide > narrow then wide / narrow else 1

/-- The exact value of the source element that a conversion takes for element `j` (R209, R216). -/
def Seat.cvtSrc (x : Seat) (f : Fields) (j : Nat) : FVal := x.srcVal (groupOf x.w (codeWidth (f.fn % 32))) f.a.toNat j

/-- The shape of a conversion from the active vtype to the destination type; the conversion unit must be selected. -/
def shapeCvt (f : Fields) (slotb : Nat) (x : Seat) : Shape :=
  let dw := codeWidth (f.fn % 32)
  { form := .reg, d := .v (groupOf dw x.w), a := .v (groupOf x.w dw), z := true, mu := true, fn := true,
    ok := slotb == 0 && dstOk f && vtOk x.sc.vtype }

/-- vd = convert(`g` element) per active element (R216). -/
def cvtOp (t : Tower) (i : Nat) (f : Fields) (shape : Seat → Shape) (g : Seat → Nat → FVal) (s : State) : State :=
  thrOp t i f shape (fun x =>
    let r := x.vecOp f (codeWidth (f.fn % 32)) fun j => convTo (f.fn % 32) (f.fn / 32 % 2 == 1) (g x j)
    r) s

/-- VCVT: vd = convert(va) (R216). -/
def execVcvt (t : Tower) (i : Nat) (f : Fields) (s : State) : Host.Outcome State Fault Refusal :=
  .next (cvtOp t i f (shapeCvt f (s.slotB t i)) (fun x j => x.cvtSrc f j) s)

/-- VCVTS: vd = convert(va × 2^e), e the signed value sb[8:0] (R216). -/
def execVcvts (t : Tower) (i : Nat) (f : Fields) (s : State) : Host.Outcome State Fault Refusal :=
  .next (cvtOp t i f (fun x => { shapeCvt f (s.slotB t i) x with b := .s })
    (fun x j => (x.cvtSrc f j).scale (untwos 9 (x.s f.b.toNat).toNat)) s)

/-- The MX element type of an element code E4M3, E5M2, E3M2, E2M3 or E2M1 (R217). -/
def mxOf (c : Nat) : Option Fmt :=
  match c with
  | 3 => some .mxE4m3 | 4 => some .mxE5m2 | 5 => some .mxE3m2 | 6 => some .mxE2m3 | 7 => some .mxE2m1 | _ => none

/-- VCVTMX on a seat: blocks of 32 elements converted under their derived scales; scale byte j goes to byte j of vc (R217).
Where vd and vc are one register the spec does not say which of the two its byte j keeps: it is byte j of the free value `z`
(log entry 15). -/
def Seat.toMx (x : Seat) (f : Fields) (fmt : Fmt) (w z : Nat) : Seat :=
  let n := x.sc.vl / 32
  let blocks := (List.range n).map fun j => mxEncode fmt ((List.range 32).map fun e => x.cvtSrc f (32 * j + e))
  let y := x.writeElems f w fun e => ((blocks.getD (e / 32) (0, [])).2[e % 32]?).map (·.code)
  let scale (j : Nat) : Nat := if f.c == f.d then z / 2 ^ (8 * j) % 2 ^ 8 else (blocks.getD j (0, [])).1
  let y := (List.range n).foldl (fun y j => y.setElem f.c.toNat 8 j (scale j)) y
  y.orFlags (orAll x.sc.vl fun e =>
    match (blocks.getD (e / 32) (0, [])).2[e % 32]? with
    | some r => r.flags
    | none => FFlags.none)

/-- VCVTMX: a block-scaled source to MX elements in vd and scale bytes in vc (R216, R217). -/
def execVcvtmx (t : Tower) (i : Nat) (f : Fields) (s : State) : Host.Outcome State Fault Refusal :=
  .next (thrRun t i f (fun x =>
    { shapeCvt f (s.slotB t i) x with
      c := .v 1, mu := false,
      ok := s.slotB t i == 0 && dstOk f && vtFp x && (mxOf (f.fn % 32)).isSome && x.sc.vl % 32 == 0
        && !overlapBad false (.v 1) f.c.toNat (.v (groupOf x.w (codeWidth (f.fn % 32)))) f.a.toNat })
    (fun k x s =>
      let z := if f.c == f.d then s.free else (0, s)
      z.2.setSeat k (x.toMx f ((mxOf (f.fn % 32)).getD .mxE4m3) (codeWidth (f.fn % 32)) z.1).adv) s)

/-- The source element of VCVTFMX under its scale byte: × 2^(scale − 127), and NaN for 0xFF (R64, R217). -/
def Seat.mxSrc (x : Seat) (f : Fields) (j : Nat) : FVal :=
  let scale := x.elem f.b.toNat 8 (j / 32)
  if scale == 0xFF then .nan else (x.cvtSrc f j).scale ((scale : Int) - 127)

/-- VCVTFMX: vd = convert(va × 2^(scale − 127)), the scale byte of element i from byte i div 32 of vb (R216, R217). -/
def execVcvtfmx (t : Tower) (i : Nat) (f : Fields) (s : State) : Host.Outcome State Fault Refusal :=
  .next (cvtOp t i f (fun x =>
    { shapeCvt f (s.slotB t i) x with
      b := .v 1, ok := s.slotB t i == 0 && dstOk f && vtOk x.sc.vtype
        && !overlapBad false (.v (groupOf (codeWidth (f.fn % 32)) x.w)) f.d.toNat (.v 1) f.b.toNat })
    (fun x j => x.mxSrc f j) s)

end Sys2Proof.Machine
end

