-- ==== Sys2Proof/Machine/VecInt.lean ====
section
/-! DEFINITION. Integer and saturating-integer arithmetic of the vector cores (R215, R219). -/

namespace Sys2Proof.Machine

/-- Vector d from vectors a and b, int32, int16 and int8 vtypes only (R215). -/
def shapeInt2 (x : Seat) : Shape := { form := .reg, d := .v 1, a := .v 1, b := .v 1, z := true, mu := true, ok := vtIntOp x }
/-- Vector d from vectors a, b and c. -/
def shapeInt3 (x : Seat) : Shape := { shapeInt2 x with c := .v 1 }
/-- Vector d from vector a. -/
def shapeInt1 (x : Seat) : Shape := { shapeInt2 x with b := .none }

/-- vd = `op` va vb, wrapping modulo 2^width (R215). -/
def intOp2 (t : Tower) (i : Nat) (f : Fields) (op : Nat → Int → Int → Int) (s : State) : State :=
  thrOp t i f shapeInt2 (fun x => x.vecBits f x.w fun j => twos x.w (op x.w (x.int f.a.toNat j) (x.int f.b.toNat j))) s

/-- VADD: vd = va + vb (R215). -/
def execVadd (t : Tower) (i : Nat) (f : Fields) (s : State) : Host.Outcome State Fault Refusal :=
  .next (intOp2 t i f (fun _ a b => a + b) s)

/-- VSUB: vd = va − vb (R215). -/
def execVsub (t : Tower) (i : Nat) (f : Fields) (s : State) : Host.Outcome State Fault Refusal :=
  .next (intOp2 t i f (fun _ a b => a - b) s)

/-- VMUL: vd = low half of va × vb (R215). -/
def execVmul (t : Tower) (i : Nat) (f : Fields) (s : State) : Host.Outcome State Fault Refusal :=
  .next (intOp2 t i f (fun _ a b => a * b) s)

/-- VMULH: vd = high half of va × vb, signed or unsigned per vtype (R215). -/
def execVmulh (t : Tower) (i : Nat) (f : Fields) (s : State) : Host.Outcome State Fault Refusal :=
  .next (intOp2 t i f (fun w a b => a * b / (2 ^ w : Nat)) s)

/-- VMAC: vd = va × vb + vc (R215). -/
def execVmac (t : Tower) (i : Nat) (f : Fields) (s : State) : Host.Outcome State Fault Refusal :=
  .next (thrOp t i f shapeInt3 (fun x => x.vecBits f x.w fun j =>
    twos x.w (x.int f.a.toNat j * x.int f.b.toNat j + x.int f.c.toNat j)) s)

/-- VMIN: vd = lesser of va and vb (R215). -/
def execVmin (t : Tower) (i : Nat) (f : Fields) (s : State) : Host.Outcome State Fault Refusal :=
  .next (intOp2 t i f (fun _ a b => min a b) s)

/-- VMAX: vd = greater of va and vb (R215). -/
def execVmax (t : Tower) (i : Nat) (f : Fields) (s : State) : Host.Outcome State Fault Refusal :=
  .next (intOp2 t i f (fun _ a b => max a b) s)

/-- VCMP: bit i of mask register d = predicate fn[2:0]; 6 and 7 reserved (R215). -/
def execVcmp (t : Tower) (i : Nat) (f : Fields) (s : State) : Host.Outcome State Fault Refusal :=
  .next (thrOp t i f (fun x => { shapeInt2 x with d := .m, fn := true, ok := vtIntOp x && f.fn ≤ 5 }) (fun x =>
    x.writeMask f fun j =>
      if x.active f j then some (predOf f.fn (compare (x.int f.a.toNat j) (x.int f.b.toNat j))) else none) s)

/-- VIREDSUM: element 0 of vd = wrapping sum of the active elements of va; 0 when none (R215). -/
def execViredsum (t : Tower) (i : Nat) (f : Fields) (s : State) : Host.Outcome State Fault Refusal :=
  .next (thrOp t i f (fun x => { shapeInt1 x with elementwise := false }) (fun x =>
    let sum := (List.range x.sc.vl).foldl (fun a j => if x.active f j then a + x.int f.a.toNat j else a) (0 : Int)
    x.writeElems f x.w fun j => if j == 0 then some (twos x.w sum) else none) s)

/-- The saturated result: ±(2^(width − 1) − 1), or 0 and 2^width − 1 for an unsigned vtype, with the saturated
condition (R219). -/
def satInt (unsigned : Bool) (w : Nat) (v : Int) : Nat × FFlags :=
  let hi : Int := if unsigned then 2 ^ w - 1 else 2 ^ (w - 1) - 1
  let lo : Int := if unsigned then 0 else -hi
  let r := if v > hi then hi else if v < lo then lo else v
  (twos w r, { FFlags.none with saturated := r != v })

/-- Saturating shapes need the saturating-integer unit in slot B (R192, R205). -/
def shapeSat (sh : Shape) (slotb : Nat) : Shape := { sh with ok := sh.ok && slotb == 1 }

/-- vd = sat(`op` va vb), computed exactly (R219). -/
def satOp2 (t : Tower) (i : Nat) (f : Fields) (op : Nat → Int → Int → Int) (s : State) : State :=
  thrOp t i f (fun x => shapeSat (shapeInt2 x) (s.slotB t i)) (fun x =>
    x.vecOp f x.w fun j => satInt (vtUnsigned x.sc.vtype) x.w (op x.w (x.int f.a.toNat j) (x.int f.b.toNat j))) s

/-- vd = sat(`op` va) (R219). -/
def satOp1 (t : Tower) (i : Nat) (f : Fields) (op : Int → Int) (s : State) : State :=
  thrOp t i f (fun x => shapeSat (shapeInt1 x) (s.slotB t i)) (fun x =>
    x.vecOp f x.w fun j => satInt (vtUnsigned x.sc.vtype) x.w (op (x.int f.a.toNat j))) s

/-- The integer nearest v / 2^n, ties to even. -/
def roundShift (v : Int) (n : Nat) : Int :=
  let m := (nearestNat v.natAbs (-(n : Int))).1
  if v < 0 then -(m : Int) else m

/-- VQADD: vd = sat(va + vb) (R219). -/
def execVqadd (t : Tower) (i : Nat) (f : Fields) (s : State) : Host.Outcome State Fault Refusal :=
  .next (satOp2 t i f (fun _ a b => a + b) s)

/-- VQSUB: vd = sat(va − vb) (R219). -/
def execVqsub (t : Tower) (i : Nat) (f : Fields) (s : State) : Host.Outcome State Fault Refusal :=
  .next (satOp2 t i f (fun _ a b => a - b) s)

/-- VQMUL: vd = sat(va × vb) (R219). -/
def execVqmul (t : Tower) (i : Nat) (f : Fields) (s : State) : Host.Outcome State Fault Refusal :=
  .next (satOp2 t i f (fun _ a b => a * b) s)

/-- VQMAC: vd = sat(va × vb + vc), one saturation (R219). -/
def execVqmac (t : Tower) (i : Nat) (f : Fields) (s : State) : Host.Outcome State Fault Refusal :=
  .next (thrOp t i f (fun x => shapeSat (shapeInt3 x) (s.slotB t i)) (fun x =>
    x.vecOp f x.w fun j => satInt (vtUnsigned x.sc.vtype) x.w
      (x.int f.a.toNat j * x.int f.b.toNat j + x.int f.c.toNat j)) s)

/-- VQMULSHR: vd = sat(round(va × vb / 2^fn)), ties to even; fn above width − 1 is illegal (R219). -/
def execVqmulshr (t : Tower) (i : Nat) (f : Fields) (s : State) : Host.Outcome State Fault Refusal :=
  .next (thrOp t i f (fun x =>
    { shapeSat (shapeInt2 x) (s.slotB t i) with fn := true, ok := vtIntOp x && s.slotB t i == 1 && f.fn < x.w }) (fun x =>
    x.vecOp f x.w fun j => satInt (vtUnsigned x.sc.vtype) x.w
      (roundShift (x.int f.a.toNat j * x.int f.b.toNat j) f.fn)) s)

/-- VQSHL: vd = sat(va × 2^(vb mod width)) (R219). -/
def execVqshl (t : Tower) (i : Nat) (f : Fields) (s : State) : Host.Outcome State Fault Refusal :=
  .next (satOp2 t i f (fun w a b => a * (2 ^ (b % (w : Int)).toNat : Nat)) s)

/-- VQABS: vd = sat(|va|) (R219). -/
def execVqabs (t : Tower) (i : Nat) (f : Fields) (s : State) : Host.Outcome State Fault Refusal :=
  .next (satOp1 t i f (fun a => (a.natAbs : Int)) s)

/-- VQNEG: vd = sat(−va) (R219). -/
def execVqneg (t : Tower) (i : Nat) (f : Fields) (s : State) : Host.Outcome State Fault Refusal :=
  .next (satOp1 t i f (fun a => -a) s)

end Sys2Proof.Machine
end

