-- ==== Sys2Proof/Machine/VecLogic.lean ====
section
/-! DEFINITION. Logic, shifts, permutes, masks, compress and expand (R220, R221). -/

namespace Sys2Proof.Machine

/-- Vector d from vectors a and b, every vtype (R220). -/
def shapeLog2 (x : Seat) : Shape :=
  { form := .reg, d := .v 1, a := .v 1, b := .v 1, z := true, mu := true, ok := vtOk x.sc.vtype }

/-- vd = `op` width va vb on bit patterns (R220). -/
def logOp (t : Tower) (i : Nat) (f : Fields) (op : Nat → Nat → Nat → Nat) (s : State) : State :=
  thrOp t i f shapeLog2 (fun x =>
    x.vecBits f x.w fun j => op x.w (x.elem f.a.toNat x.w j) (x.elem f.b.toNat x.w j)) s

/-- VAND: vd = va AND vb (R220). -/
def execVand (t : Tower) (i : Nat) (f : Fields) (s : State) : Host.Outcome State Fault Refusal :=
  .next (logOp t i f (fun _ a b => a &&& b) s)

/-- VOR: vd = va OR vb (R220). -/
def execVor (t : Tower) (i : Nat) (f : Fields) (s : State) : Host.Outcome State Fault Refusal :=
  .next (logOp t i f (fun _ a b => a ||| b) s)

/-- VXOR: vd = va XOR vb (R220). -/
def execVxor (t : Tower) (i : Nat) (f : Fields) (s : State) : Host.Outcome State Fault Refusal :=
  .next (logOp t i f (fun _ a b => a ^^^ b) s)

/-- VSHL: vd = va << (vb mod width) (R220). -/
def execVshl (t : Tower) (i : Nat) (f : Fields) (s : State) : Host.Outcome State Fault Refusal :=
  .next (logOp t i f (fun w a b => a * 2 ^ (b % w)) s)

/-- VSHR: right shift by vb mod width: arithmetic for signed integer vtypes, logical otherwise (R220). -/
def execVshr (t : Tower) (i : Nat) (f : Fields) (s : State) : Host.Outcome State Fault Refusal :=
  .next (thrOp t i f shapeLog2 (fun x =>
    x.vecBits f x.w fun j =>
      let a := x.elem f.a.toNat x.w j
      let n := x.elem f.b.toNat x.w j % x.w
      if codeInt (vtCode x.sc.vtype) && !vtUnsigned x.sc.vtype then twos x.w (untwos x.w a / (2 ^ n : Nat))
      else a / 2 ^ n) s)

/-- VSHLI: vd = va << fn; fn at or above the width is illegal (R220). -/
def execVshli (t : Tower) (i : Nat) (f : Fields) (s : State) : Host.Outcome State Fault Refusal :=
  .next (thrOp t i f (fun x => { shapeLog2 x with b := .none, fn := true, ok := vtOk x.sc.vtype && f.fn < x.w })
    (fun x => x.vecBits f x.w fun j => x.elem f.a.toNat x.w j * 2 ^ f.fn) s)

/-- VPERM: vd[i] = va[vb[i]] for each active i; an index at or above vl gives 0 (R220). -/
def execVperm (t : Tower) (i : Nat) (f : Fields) (s : State) : Host.Outcome State Fault Refusal :=
  .next (thrOp t i f (fun x => { shapeLog2 x with elementwise := false }) (fun x =>
    x.vecBits f x.w fun j =>
      let n := x.elem f.b.toNat x.w j
      if n < x.sc.vl then x.elem f.a.toNat x.w n else 0) s)

/-- VBCAST: vd[i] = low width bits of sa, for each active i (R220). -/
def execVbcast (t : Tower) (i : Nat) (f : Fields) (s : State) : Host.Outcome State Fault Refusal :=
  .next (thrOp t i f (fun x => { shapeLog2 x with a := .s, b := .none })
    (fun x => x.vecBits f x.w fun _ => (x.s f.a.toNat).toNat % 2 ^ x.w) s)

/-- A scalar destination of a vector or mask instruction, which with vl 0 changes no register (R190). -/
def Seat.putS (x : Seat) (f : Fields) (v : DWord) : Seat := if x.sc.vl == 0 then x else x.setS f.d.toNat v

/-- VEXT: sd = element sb of va, zero-extended; 0 when sb is at or above vl (R220). -/
def execVext (t : Tower) (i : Nat) (f : Fields) (s : State) : Host.Outcome State Fault Refusal :=
  .next (thrOp t i f (fun x => { shapeLog2 x with d := .s, b := .s, z := false, mu := false }) (fun x =>
    let n := (x.s f.b.toNat).toNat
    x.putS f (if n < x.sc.vl then BitVec.ofNat 64 (x.elem f.a.toNat x.w n) else 0)) s)

/-- VINS: element sb of vd = low width bits of sa when sb is below vl, and no effect otherwise; mu must be 0 (R220). -/
def execVins (t : Tower) (i : Nat) (f : Fields) (s : State) : Host.Outcome State Fault Refusal :=
  .next (thrOp t i f (fun x => { shapeLog2 x with a := .s, b := .s, mu := false }) (fun x =>
    let n := (x.s f.b.toNat).toNat
    if x.sc.vl ≤ n then x
    else x.writeElems f x.w fun j => if j == n then some ((x.s f.a.toNat).toNat % 2 ^ x.w) else none) s)

/-- VSLUP: vd[i] = va[i − sb] for active i ≥ sb; other active elements are not written (R220). -/
def execVslup (t : Tower) (i : Nat) (f : Fields) (s : State) : Host.Outcome State Fault Refusal :=
  .next (thrOp t i f (fun x => { shapeLog2 x with b := .s, elementwise := false }) (fun x =>
    let n := (x.s f.b.toNat).toNat
    x.writeElems f x.w fun j =>
      if x.active f j && n ≤ j then some (x.elem f.a.toNat x.w (j - n)) else none) s)

/-- VSLDN: vd[i] = va[i + sb] for active i with i + sb < vl; other active elements are not written (R220). -/
def execVsldn (t : Tower) (i : Nat) (f : Fields) (s : State) : Host.Outcome State Fault Refusal :=
  .next (thrOp t i f (fun x => { shapeLog2 x with b := .s, elementwise := false }) (fun x =>
    let n := (x.s f.b.toNat).toNat
    x.writeElems f x.w fun j =>
      if x.active f j && j + n < x.sc.vl then some (x.elem f.a.toNat x.w (j + n)) else none) s)

/-- VMERGE: vd[i] = vb[i] where bit i of mk is 1, else va[i]; mu must be 1 (R220). -/
def execVmerge (t : Tower) (i : Nat) (f : Fields) (s : State) : Host.Outcome State Fault Refusal :=
  .next (thrOp t i f (fun x => { shapeLog2 x with ok := vtOk x.sc.vtype && f.mu }) (fun x =>
    x.writeElems f x.w fun j =>
      some (if x.active f j then x.elem f.b.toNat x.w j else x.elem f.a.toNat x.w j)) s)

/-- The sign bit's weight in an element of the vtype: the top bit of an integer type (log entry 11). -/
def signWeight (x : Seat) : Nat :=
  match codeFloat (vtCode x.sc.vtype) with
  | some ff => 2 ^ (ff.eb + ff.mb)
  | none => 2 ^ (x.w - 1)

/-- The element code is a NaN of the vtype. -/
def isNanCode (x : Seat) (n : Nat) : Bool :=
  match codeFloat (vtCode x.sc.vtype) with
  | some ff => ff.decode n == .nan
  | none => false

/-- VFSGN: floating-point sign: fn 0 absolute value, 1 negate, 2 copy the sign of vb; a NaN keeps its bits (R220). -/
def execVfsgn (t : Tower) (i : Nat) (f : Fields) (s : State) : Host.Outcome State Fault Refusal :=
  .next (thrOp t i f (fun x =>
    { shapeLog2 x with
      b := if f.fn == 2 then .v 1 else .none, fn := true
      ok := vtOk x.sc.vtype && f.fn ≤ 2 }) (fun x =>
    x.vecBits f x.w fun j =>
      let a := x.elem f.a.toNat x.w j
      let sw := signWeight x
      let mag := a / (2 * sw) * (2 * sw) + a % sw
      if isNanCode x a then a
      else
        match f.fn with
        | 0 => mag
        | 1 => a ^^^ sw
        | _ => mag + x.elem f.b.toNat x.w j / sw % 2 * sw) s)

/-- VMOV: vd = va (R220). -/
def execVmov (t : Tower) (i : Nat) (f : Fields) (s : State) : Host.Outcome State Fault Refusal :=
  .next (thrOp t i f (fun x => { shapeLog2 x with b := .none })
    (fun x => x.vecBits f x.w fun j => x.elem f.a.toNat x.w j) s)

/-- Mask d from masks a and b; mu must be 0 (R221). -/
def shapeMask : Shape := { form := .reg, d := .m, a := .m, b := .m }

/-- Bits 0 to vl − 1 of md = `op` ma mb; the others keep their values (R221). -/
def maskOp (t : Tower) (i : Nat) (f : Fields) (sh : Shape) (op : Bool → Bool → Bool) (s : State) : State :=
  thrOp t i f (fun _ => sh) (fun x =>
    x.writeMask f fun j => some (op ((x.msk f.a.toNat).getLsbD j) ((x.msk f.b.toNat).getLsbD j))) s

/-- MAND: md = ma AND mb (R221). -/
def execMand (t : Tower) (i : Nat) (f : Fields) (s : State) : Host.Outcome State Fault Refusal :=
  .next (maskOp t i f shapeMask (fun a b => a && b) s)

/-- MOR: md = ma OR mb (R221). -/
def execMor (t : Tower) (i : Nat) (f : Fields) (s : State) : Host.Outcome State Fault Refusal :=
  .next (maskOp t i f shapeMask (fun a b => a || b) s)

/-- MXOR: md = ma XOR mb (R221). -/
def execMxor (t : Tower) (i : Nat) (f : Fields) (s : State) : Host.Outcome State Fault Refusal :=
  .next (maskOp t i f shapeMask (fun a b => a != b) s)

/-- MANDN: md = ma AND NOT mb (R221). -/
def execMandn (t : Tower) (i : Nat) (f : Fields) (s : State) : Host.Outcome State Fault Refusal :=
  .next (maskOp t i f shapeMask (fun a b => a && !b) s)

/-- MNOT: md = NOT ma (R221). -/
def execMnot (t : Tower) (i : Nat) (f : Fields) (s : State) : Host.Outcome State Fault Refusal :=
  .next (maskOp t i f { shapeMask with b := .none } (fun a _ => !a) s)

/-- MSET: md = all ones (R221). -/
def execMset (t : Tower) (i : Nat) (f : Fields) (s : State) : Host.Outcome State Fault Refusal :=
  .next (maskOp t i f { shapeMask with a := .none, b := .none } (fun _ _ => true) s)

/-- MCLR: md = all zeros (R221). -/
def execMclr (t : Tower) (i : Nat) (f : Fields) (s : State) : Host.Outcome State Fault Refusal :=
  .next (maskOp t i f { shapeMask with a := .none, b := .none } (fun _ _ => false) s)

/-- The 1 bits of a mask below vl, in ascending order. -/
def Seat.onesOf (x : Seat) (r : Nat) : List Nat := (List.range x.sc.vl).filter fun j => (x.msk r).getLsbD j

/-- MPOPC: sd = number of 1 bits of ma below vl (R221). -/
def execMpopc (t : Tower) (i : Nat) (f : Fields) (s : State) : Host.Outcome State Fault Refusal :=
  .next (thrOp t i f (fun _ => { form := .reg, d := .s, a := .m })
    (fun x => x.putS f (BitVec.ofNat 64 (x.onesOf f.a.toNat).length)) s)

/-- MFIRST: sd = index of the lowest 1 bit of ma below vl, or all ones if none (R221). -/
def execMfirst (t : Tower) (i : Nat) (f : Fields) (s : State) : Host.Outcome State Fault Refusal :=
  .next (thrOp t i f (fun _ => { form := .reg, d := .s, a := .m })
    (fun x => x.putS f (match x.onesOf f.a.toNat with
      | [] => BitVec.allOnes 64
      | j :: _ => BitVec.ofNat 64 j)) s)

/-- MFROMS: bits [64j + 63:64j] of md = sa, j = fn[1:0], whatever vl (R221). -/
def execMfroms (t : Tower) (i : Nat) (f : Fields) (s : State) : Host.Outcome State Fault Refusal :=
  .next (thrOp t i f (fun _ => { form := .reg, d := .m, a := .s, fn := true, ok := f.fn ≤ 3 }) (fun x =>
    let sh := 64 * f.fn
    x.setMsk f.d.toNat (((x.msk f.d.toNat) &&& ~~~(BitVec.ofNat 256 ((2 ^ 64 - 1) * 2 ^ sh)))
      ||| ((x.s f.a.toNat).zeroExtend 256 <<< sh))) s)

/-- MTOS: sd = bits [64j + 63:64j] of ma, j = fn[1:0] (R221). -/
def execMtos (t : Tower) (i : Nat) (f : Fields) (s : State) : Host.Outcome State Fault Refusal :=
  .next (thrOp t i f (fun _ => { form := .reg, d := .s, a := .m, fn := true, ok := f.fn ≤ 3 })
    (fun x => x.putS f ((x.msk f.a.toNat).extractLsb' (64 * f.fn) 64)) s)

/-- VCOMPRESS: vd[0 to p − 1] = the elements of va at the 1 bits of mb below vl, in ascending order (R221). -/
def execVcompress (t : Tower) (i : Nat) (f : Fields) (s : State) : Host.Outcome State Fault Refusal :=
  .next (thrOp t i f (fun x =>
    { shapeLog2 x with b := .m, mu := false, elementwise := false }) (fun x =>
    let ones := x.onesOf f.b.toNat
    x.writeElems f x.w fun j => (ones[j]?).map fun n => x.elem f.a.toNat x.w n) s)

/-- VEXPAND: for each 1 bit i of mb below vl, in ascending i: vd[i] = va[j], j counting from 0 (R221). -/
def execVexpand (t : Tower) (i : Nat) (f : Fields) (s : State) : Host.Outcome State Fault Refusal :=
  .next (thrOp t i f (fun x =>
    { shapeLog2 x with b := .m, mu := false, elementwise := false }) (fun x =>
    let ones := x.onesOf f.b.toNat
    x.writeElems f x.w fun j => (ones.idxOf? j).map fun n => x.elem f.a.toNat x.w n) s)

end Sys2Proof.Machine
end

