-- ==== Sys2Proof/Machine/Dispatch.lean ====
section
/-! DEFINITION. One arm per command: the direct call of its meaning. -/

namespace Sys2Proof.Machine

def exec (i : Instr) (s : State) : Host.Outcome State Fault Refusal :=
  match i with
  | .crossingEntryArrive src dst entry => Sys2Proof.Machine.execCrossingEntryArrive src dst entry s
  | .crossingCreditReturn src dst => Sys2Proof.Machine.execCrossingCreditReturn src dst s
  | .islandReadyLoss b => Sys2Proof.Machine.execIslandReadyLoss b s
  | .registerWrite a v => Sys2Proof.Machine.execRegisterWrite a v s
  | .w1cFieldWrite a v sets => Sys2Proof.Machine.execW1cFieldWrite a v sets s
  | .rcFieldRead a added => Sys2Proof.Machine.execRcFieldRead a added s
  | .storePerformed t ix n ecc => Sys2Proof.Machine.execStorePerformed t ix n ecc s
  | .loadComplete t ix n ecc => Sys2Proof.Machine.execLoadComplete t ix n ecc s
  | .localArrival => Sys2Proof.Machine.execLocalArrival s
  | .arriveTokenReceive p => Sys2Proof.Machine.execArriveTokenReceive p s
  | .commitTokenReceive p => Sys2Proof.Machine.execCommitTokenReceive p s
  | .stepTimeout => Sys2Proof.Machine.execStepTimeout s
  | .bankStoreRelease t ix n ecc => Sys2Proof.Machine.execBankStoreRelease t ix n ecc s
  | .queueTailWrite k t c v => Sys2Proof.Machine.execQueueTailWrite k t c v s
  | .queueCqHeadWrite k t c v => Sys2Proof.Machine.execQueueCqHeadWrite k t c v s
  | .queueBaseWrite k t c which v => Sys2Proof.Machine.execQueueBaseWrite k t c which v s
  | .tileJobIssue t c => Sys2Proof.Machine.execTileJobIssue t c s
  | .slotClaim job tile => Sys2Proof.Machine.execSlotClaim job tile s
  | .chunkIssue t window aged => Sys2Proof.Machine.execChunkIssue t window aged s
  | .stageChunkArrive job tgroup ecc => Sys2Proof.Machine.execStageChunkArrive job tgroup ecc s
  | .chunkFold t ecc => Sys2Proof.Machine.execChunkFold t ecc s
  | .slotDrainComplete t slot ecc => Sys2Proof.Machine.execSlotDrainComplete t slot ecc s
  | .tileCopy job tile => Sys2Proof.Machine.execTileCopy job tile s
  | .spillPartial job tile => Sys2Proof.Machine.execSpillPartial job tile s
  | .reloadPartial job tile => Sys2Proof.Machine.execReloadPartial job tile s
  | .descriptorComplete job => Sys2Proof.Machine.execDescriptorComplete job s
  | .completionRecordWrite k t c => Sys2Proof.Machine.execCompletionRecordWrite k t c s
  | .sleeveIssue t c => Sys2Proof.Machine.execSleeveIssue t c s
  | .sleevePassComplete t aged ecc => Sys2Proof.Machine.execSleevePassComplete t aged ecc s
  | .sleeveTailHandoff job => Sys2Proof.Machine.execSleeveTailHandoff job s
  | .threadDispatch x => Sys2Proof.Machine.execThreadDispatch x s
  | .threadResume t ix => Sys2Proof.Machine.execThreadResume t ix s
  | .waitDeadline t ix => Sys2Proof.Machine.execWaitDeadline t ix s
  | .threadIndexFree t ix => Sys2Proof.Machine.execThreadIndexFree t ix s
  | .sadd t ix f => Sys2Proof.Machine.execSadd t ix f s
  | .ssub t ix f => Sys2Proof.Machine.execSsub t ix f s
  | .smul t ix f => Sys2Proof.Machine.execSmul t ix f s
  | .sand t ix f => Sys2Proof.Machine.execSand t ix f s
  | .sor t ix f => Sys2Proof.Machine.execSor t ix f s
  | .sxor t ix f => Sys2Proof.Machine.execSxor t ix f s
  | .sshl t ix f => Sys2Proof.Machine.execSshl t ix f s
  | .sshr t ix f => Sys2Proof.Machine.execSshr t ix f s
  | .ssra t ix f => Sys2Proof.Machine.execSsra t ix f s
  | .scmp t ix f => Sys2Proof.Machine.execScmp t ix f s
  | .saddi t ix f => Sys2Proof.Machine.execSaddi t ix f s
  | .sli t ix f => Sys2Proof.Machine.execSli t ix f s
  | .slih t ix f => Sys2Proof.Machine.execSlih t ix f s
  | .srd t ix f => Sys2Proof.Machine.execSrd t ix f s
  | .swrf t ix f => Sys2Proof.Machine.execSwrf t ix f s
  | .branch t ix f => Sys2Proof.Machine.execBranch t ix f s
  | .beq t ix f => Sys2Proof.Machine.execBeq t ix f s
  | .bne t ix f => Sys2Proof.Machine.execBne t ix f s
  | .blt t ix f => Sys2Proof.Machine.execBlt t ix f s
  | .bge t ix f => Sys2Proof.Machine.execBge t ix f s
  | .bltu t ix f => Sys2Proof.Machine.execBltu t ix f s
  | .bgeu t ix f => Sys2Proof.Machine.execBgeu t ix f s
  | .jal t ix f => Sys2Proof.Machine.execJal t ix f s
  | .jr t ix f => Sys2Proof.Machine.execJr t ix f s
  | .setvl t ix f => Sys2Proof.Machine.execSetvl t ix f s
  | .vfadd t ix f => Sys2Proof.Machine.execVfadd t ix f s
  | .vfsub t ix f => Sys2Proof.Machine.execVfsub t ix f s
  | .vfmul t ix f => Sys2Proof.Machine.execVfmul t ix f s
  | .vfma t ix f => Sys2Proof.Machine.execVfma t ix f s
  | .vfnma t ix f => Sys2Proof.Machine.execVfnma t ix f s
  | .vfmin t ix f => Sys2Proof.Machine.execVfmin t ix f s
  | .vfmax t ix f => Sys2Proof.Machine.execVfmax t ix f s
  | .vfcmp t ix f => Sys2Proof.Machine.execVfcmp t ix f s
  | .vfdiv t ix f => Sys2Proof.Machine.execVfdiv t ix f s
  | .vfsqrt t ix f => Sys2Proof.Machine.execVfsqrt t ix f s
  | .vfexp2 t ix f => Sys2Proof.Machine.execVfexp2 t ix f s
  | .vflog2 t ix f => Sys2Proof.Machine.execVflog2 t ix f s
  | .vfredsum t ix f => Sys2Proof.Machine.execVfredsum t ix f s
  | .vfredmax t ix f => Sys2Proof.Machine.execVfredmax t ix f s
  | .vadd t ix f => Sys2Proof.Machine.execVadd t ix f s
  | .vsub t ix f => Sys2Proof.Machine.execVsub t ix f s
  | .vmul t ix f => Sys2Proof.Machine.execVmul t ix f s
  | .vmulh t ix f => Sys2Proof.Machine.execVmulh t ix f s
  | .vmac t ix f => Sys2Proof.Machine.execVmac t ix f s
  | .vmin t ix f => Sys2Proof.Machine.execVmin t ix f s
  | .vmax t ix f => Sys2Proof.Machine.execVmax t ix f s
  | .vcmp t ix f => Sys2Proof.Machine.execVcmp t ix f s
  | .viredsum t ix f => Sys2Proof.Machine.execViredsum t ix f s
  | .vcvt t ix f => Sys2Proof.Machine.execVcvt t ix f s
  | .vcvts t ix f => Sys2Proof.Machine.execVcvts t ix f s
  | .vcvtmx t ix f => Sys2Proof.Machine.execVcvtmx t ix f s
  | .vcvtfmx t ix f => Sys2Proof.Machine.execVcvtfmx t ix f s
  | .vqadd t ix f => Sys2Proof.Machine.execVqadd t ix f s
  | .vqsub t ix f => Sys2Proof.Machine.execVqsub t ix f s
  | .vqmul t ix f => Sys2Proof.Machine.execVqmul t ix f s
  | .vqmac t ix f => Sys2Proof.Machine.execVqmac t ix f s
  | .vqmulshr t ix f => Sys2Proof.Machine.execVqmulshr t ix f s
  | .vqshl t ix f => Sys2Proof.Machine.execVqshl t ix f s
  | .vqabs t ix f => Sys2Proof.Machine.execVqabs t ix f s
  | .vqneg t ix f => Sys2Proof.Machine.execVqneg t ix f s
  | .vand t ix f => Sys2Proof.Machine.execVand t ix f s
  | .vor t ix f => Sys2Proof.Machine.execVor t ix f s
  | .vxor t ix f => Sys2Proof.Machine.execVxor t ix f s
  | .vshl t ix f => Sys2Proof.Machine.execVshl t ix f s
  | .vshr t ix f => Sys2Proof.Machine.execVshr t ix f s
  | .vshli t ix f => Sys2Proof.Machine.execVshli t ix f s
  | .vperm t ix f => Sys2Proof.Machine.execVperm t ix f s
  | .vbcast t ix f => Sys2Proof.Machine.execVbcast t ix f s
  | .vext t ix f => Sys2Proof.Machine.execVext t ix f s
  | .vins t ix f => Sys2Proof.Machine.execVins t ix f s
  | .vslup t ix f => Sys2Proof.Machine.execVslup t ix f s
  | .vsldn t ix f => Sys2Proof.Machine.execVsldn t ix f s
  | .vmerge t ix f => Sys2Proof.Machine.execVmerge t ix f s
  | .vfsgn t ix f => Sys2Proof.Machine.execVfsgn t ix f s
  | .vmov t ix f => Sys2Proof.Machine.execVmov t ix f s
  | .mand t ix f => Sys2Proof.Machine.execMand t ix f s
  | .mor t ix f => Sys2Proof.Machine.execMor t ix f s
  | .mxor t ix f => Sys2Proof.Machine.execMxor t ix f s
  | .mandn t ix f => Sys2Proof.Machine.execMandn t ix f s
  | .mnot t ix f => Sys2Proof.Machine.execMnot t ix f s
  | .mset t ix f => Sys2Proof.Machine.execMset t ix f s
  | .mclr t ix f => Sys2Proof.Machine.execMclr t ix f s
  | .mpopc t ix f => Sys2Proof.Machine.execMpopc t ix f s
  | .mfirst t ix f => Sys2Proof.Machine.execMfirst t ix f s
  | .mfroms t ix f => Sys2Proof.Machine.execMfroms t ix f s
  | .mtos t ix f => Sys2Proof.Machine.execMtos t ix f s
  | .vcompress t ix f => Sys2Proof.Machine.execVcompress t ix f s
  | .vexpand t ix f => Sys2Proof.Machine.execVexpand t ix f s
  | .lds t ix f tag => Sys2Proof.Machine.execLds t ix f tag s
  | .vld t ix f tag => Sys2Proof.Machine.execVld t ix f tag s
  | .vlds t ix f tag => Sys2Proof.Machine.execVlds t ix f tag s
  | .vgather t ix f tag => Sys2Proof.Machine.execVgather t ix f tag s
  | .sts t ix f => Sys2Proof.Machine.execSts t ix f s
  | .vst t ix f => Sys2Proof.Machine.execVst t ix f s
  | .vsts t ix f => Sys2Proof.Machine.execVsts t ix f s
  | .vscatter t ix f => Sys2Proof.Machine.execVscatter t ix f s
  | .amoadd t ix f => Sys2Proof.Machine.execAmoadd t ix f s
  | .amomin t ix f => Sys2Proof.Machine.execAmomin t ix f s
  | .amomax t ix f => Sys2Proof.Machine.execAmomax t ix f s
  | .amoswap t ix f => Sys2Proof.Machine.execAmoswap t ix f s
  | .amocas t ix f => Sys2Proof.Machine.execAmocas t ix f s
  | .amoand t ix f => Sys2Proof.Machine.execAmoand t ix f s
  | .amoor t ix f => Sys2Proof.Machine.execAmoor t ix f s
  | .amofadd t ix f => Sys2Proof.Machine.execAmofadd t ix f s
  | .vamoadd t ix f => Sys2Proof.Machine.execVamoadd t ix f s
  | .wait t ix f => Sys2Proof.Machine.execWait t ix f s
  | .yield t ix f => Sys2Proof.Machine.execYield t ix f s
  | .barinit t ix f => Sys2Proof.Machine.execBarinit t ix f s
  | .bar t ix f => Sys2Proof.Machine.execBar t ix f s
  | .barEos t ix f => Sys2Proof.Machine.execBarEos t ix f s
  | .spawn t ix f => Sys2Proof.Machine.execSpawn t ix f s
  | .exit t ix f => Sys2Proof.Machine.execExit t ix f s
  | .fence t ix f => Sys2Proof.Machine.execFence t ix f s
  | .phase t ix f => Sys2Proof.Machine.execPhase t ix f s
  | .event t ix f => Sys2Proof.Machine.execEvent t ix f s
  | .kvapp t ix f => Sys2Proof.Machine.execKvapp t ix f s
  | .nop t ix f => Sys2Proof.Machine.execNop t ix f s
  | .attentionJobIssue t c => Sys2Proof.Machine.execAttentionJobIssue t c s
  | .scoreTileDrain job tile ecc => Sys2Proof.Machine.execScoreTileDrain job tile ecc s
  | .attentionFinalise job => Sys2Proof.Machine.execAttentionFinalise job s
  | .atnPoolTailWrite t c v => Sys2Proof.Machine.execAtnPoolTailWrite t c v s
  | .atnPoolBaseWrite t c hi v => Sys2Proof.Machine.execAtnPoolBaseWrite t c hi v s
  | .kvPageTimeout t ix => Sys2Proof.Machine.execKvPageTimeout t ix s
  | .decodeJobIssue x => Sys2Proof.Machine.execDecodeJobIssue x s
  | .encodeJobIssue x => Sys2Proof.Machine.execEncodeJobIssue x s
  | .codecEngineGrant e aged => Sys2Proof.Machine.execCodecEngineGrant e aged s
  | .ringRecordConsume e found ecc => Sys2Proof.Machine.execRingRecordConsume e found ecc s
  | .ringRecordTimeout e => Sys2Proof.Machine.execRingRecordTimeout e s
  | .pictureDecoded e p blocks hashBad ecc => Sys2Proof.Machine.execPictureDecoded e p blocks hashBad ecc s
  | .decodeJobComplete e => Sys2Proof.Machine.execDecodeJobComplete e s
  | .pictureCoded e ecc => Sys2Proof.Machine.execPictureCoded e ecc s
  | .sliceCoded e ecc => Sys2Proof.Machine.execSliceCoded e ecc s
  | .encodeOutputRoom e => Sys2Proof.Machine.execEncodeOutputRoom e s
  | .encodeJobComplete e => Sys2Proof.Machine.execEncodeJobComplete e s
  | .maintModeChange => Sys2Proof.Machine.execMaintModeChange s
  | .hbmRefresh k pc => Sys2Proof.Machine.execHbmRefresh k pc s
  | .scrubRead a row ecc last => Sys2Proof.Machine.execScrubRead a row ecc last s
  | .calWindowOpen k => Sys2Proof.Machine.execCalWindowOpen k s
  | .calWindowClose k rd wr => Sys2Proof.Machine.execCalWindowClose k rd wr s
  | .calWindowAbort k => Sys2Proof.Machine.execCalWindowAbort k s
  | .moverIssue t c => Sys2Proof.Machine.execMoverIssue t c s
  | .moverPartStart job => Sys2Proof.Machine.execMoverPartStart job s
  | .moverPartComplete job part ecc => Sys2Proof.Machine.execMoverPartComplete job part ecc s
  | .moverPartFail job part addr => Sys2Proof.Machine.execMoverPartFail job part addr s
  | .moverTransferComplete job => Sys2Proof.Machine.execMoverTransferComplete job s
  | .snapCloseSend e => Sys2Proof.Machine.execSnapCloseSend e s
  | .snapshotHeldStoreRelease t ix n ecc => Sys2Proof.Machine.execSnapshotHeldStoreRelease t ix n ecc s
  | .contributeIssue t c => Sys2Proof.Machine.execContributeIssue t c s
  | .bucketOpen => Sys2Proof.Machine.execBucketOpen s
  | .contributionAccept src ecc => Sys2Proof.Machine.execContributionAccept src ecc s
  | .partialReceive p ecc => Sys2Proof.Machine.execPartialReceive p ecc s
  | .summaryReceive p => Sys2Proof.Machine.execSummaryReceive p s
  | .bucketComplete g e b differs => Sys2Proof.Machine.execBucketComplete g e b differs s
  | .abortNoticeReceive p => Sys2Proof.Machine.execAbortNoticeReceive p s
  | .redGrpBaseWrite hi v => Sys2Proof.Machine.execRedGrpBaseWrite hi v s
  | .linkTrainingComplete p tx margins => Sys2Proof.Machine.execLinkTrainingComplete p tx margins s
  | .linkTrainingRetry p => Sys2Proof.Machine.execLinkTrainingRetry p s
  | .gussetRotationStart p tx => Sys2Proof.Machine.execGussetRotationStart p tx s
  | .rotReady p lane now => Sys2Proof.Machine.execRotReady p lane now s
  | .rotSwitch p lane codeword => Sys2Proof.Machine.execRotSwitch p lane codeword s
  | .switchCodewordReached p tx => Sys2Proof.Machine.execSwitchCodewordReached p tx s
  | .laneRetrainComplete p margin => Sys2Proof.Machine.execLaneRetrainComplete p margin s
  | .rotDone p lane margin => Sys2Proof.Machine.execRotDone p lane margin s
  | .laneFault p lane => Sys2Proof.Machine.execLaneFault p lane s
  | .laneDown p lane now => Sys2Proof.Machine.execLaneDown p lane now s
  | .halfWidth p keep => Sys2Proof.Machine.execHalfWidth p keep s
  | .quarantine p => Sys2Proof.Machine.execQuarantine p s
  | .ident p serial index code addr valid => Sys2Proof.Machine.execIdent p serial index code addr valid s
  | .flitReceive p ws => Sys2Proof.Machine.execFlitReceive p ws s
  | .replayRequest p seq => Sys2Proof.Machine.execReplayRequest p seq s
  | .writePacketReceive p => Sys2Proof.Machine.execWritePacketReceive p s
  | .readPacketReceive p ecc => Sys2Proof.Machine.execReadPacketReceive p ecc s
  | .readData p => Sys2Proof.Machine.execReadData p s
  | .writeAck p => Sys2Proof.Machine.execWriteAck p s
  | .nack p => Sys2Proof.Machine.execNack p s
  | .snapClose p => Sys2Proof.Machine.execSnapClose p s
  | .mgmt p m => Sys2Proof.Machine.execMgmt p m s
  | .requestTimeout tag => Sys2Proof.Machine.execRequestTimeout tag s
  | .seamFrameSend => Sys2Proof.Machine.execSeamFrameSend s
  | .seamFrameReceive w0 w1 => Sys2Proof.Machine.execSeamFrameReceive w0 w1 s
  | .seamHeadDetect => Sys2Proof.Machine.execSeamHeadDetect s
  | .seamLost => Sys2Proof.Machine.execSeamLost s
  | .ethernetFrameReceive f pfc => Sys2Proof.Machine.execEthernetFrameReceive f pfc s
  | .pfcPauseReceive p pause => Sys2Proof.Machine.execPfcPauseReceive p pause s
  | .hostLinkUp => Sys2Proof.Machine.execHostLinkUp s
  | .rdmaWriteReceive q psn va rkey data ce => Sys2Proof.Machine.execRdmaWriteReceive q psn va rkey data ce s
  | .rdmaReadReceive q psn va rkey len ce ecc => Sys2Proof.Machine.execRdmaReadReceive q psn va rkey len ce ecc s
  | .roceAckReceive h psn nak => Sys2Proof.Machine.execRoceAckReceive h psn nak s
  | .roceRetryTimeout q => Sys2Proof.Machine.execRoceRetryTimeout q s
  | .cnpReceive h => Sys2Proof.Machine.execCnpReceive h s
  | .rateRecovery q => Sys2Proof.Machine.execRateRecovery q s
  | .doorbell d => Sys2Proof.Machine.execDoorbell d s
  | .inlineCmd d => Sys2Proof.Machine.execInlineCmd d s
  | .eventAck d => Sys2Proof.Machine.execEventAck d s
  | .echoReq d => Sys2Proof.Machine.execEchoReq d s
  | .eventDatagramSend => Sys2Proof.Machine.execEventDatagramSend s
  | .eventRetry => Sys2Proof.Machine.execEventRetry s
  | .mailboxCommandTake ecc => Sys2Proof.Machine.execMailboxCommandTake ecc s
  | .mailboxCommandResume => Sys2Proof.Machine.execMailboxCommandResume s
  | .mailboxCommandTimeout => Sys2Proof.Machine.execMailboxCommandTimeout s
  | .mboxOpen h mbox flags slots base => Sys2Proof.Machine.execMboxOpen h mbox flags slots base s
  | .mboxClose h mbox => Sys2Proof.Machine.execMboxClose h mbox s
  | .devInfo h => Sys2Proof.Machine.execDevInfo h s
  | .devReset h kind => Sys2Proof.Machine.execDevReset h kind s
  | .regRead h count addr => Sys2Proof.Machine.execRegRead h count addr s
  | .eventMask h first count masked => Sys2Proof.Machine.execEventMask h first count masked s
  | .telemetryRead h => Sys2Proof.Machine.execTelemetryRead h s
  | .sscSet h depth rate => Sys2Proof.Machine.execSscSet h depth rate s
  | .ctxCreate h ctx slotb slots thrBase thrCount => Sys2Proof.Machine.execCtxCreate h ctx slotb slots thrBase thrCount s
  | .ctxDestroy h ctx => Sys2Proof.Machine.execCtxDestroy h ctx s
  | .ctxQueueSet h ctx kind tower ringSize cqSize ring cq => Sys2Proof.Machine.execCtxQueueSet h ctx kind tower ringSize cqSize ring cq s
  | .ctxSpawn h ctx tower count pc arg => Sys2Proof.Machine.execCtxSpawn h ctx tower count pc arg s
  | .ctxSchedSet h ctx prio reserved allowed => Sys2Proof.Machine.execCtxSchedSet h ctx prio reserved allowed s
  | .lanternSet h cores windows base size => Sys2Proof.Machine.execLanternSet h cores windows base size s
  | .ctxFaultRead h ctx => Sys2Proof.Machine.execCtxFaultRead h ctx s
  | .kvTimeoutSet h ctx mask ticks => Sys2Proof.Machine.execKvTimeoutSet h ctx mask ticks s
  | .stepGroupCreate h tag n members flags parent epoch firstStep seed children => Sys2Proof.Machine.execStepGroupCreate h tag n members flags parent epoch firstStep seed children s
  | .stepGroupDissolve h => Sys2Proof.Machine.execStepGroupDissolve h s
  | .epochSet h epoch => Sys2Proof.Machine.execEpochSet h epoch s
  | .bankTableSet h first count entries => Sys2Proof.Machine.execBankTableSet h first count entries s
  | .stepTimeoutSet h ticks => Sys2Proof.Machine.execStepTimeoutSet h ticks s
  | .phaseTableRead h back count => Sys2Proof.Machine.execPhaseTableRead h back count s
  | .biasLoad h table mask count src => Sys2Proof.Machine.execBiasLoad h table mask count src s
  | .codecMaintOn h => Sys2Proof.Machine.execCodecMaintOn h s
  | .codecMaintOff h => Sys2Proof.Machine.execCodecMaintOff h s
  | .memLocalSet h gib => Sys2Proof.Machine.execMemLocalSet h gib s
  | .memCalSet h interval margin hours => Sys2Proof.Machine.execMemCalSet h interval margin hours s
  | .memStatsSet h entry enable base limit => Sys2Proof.Machine.execMemStatsSet h entry enable base limit s
  | .memStatsRead h entry clear => Sys2Proof.Machine.execMemStatsRead h entry clear s
  | .mirrorTableSet h first count entries => Sys2Proof.Machine.execMirrorTableSet h first count entries s
  | .snapshotListSet h count words => Sys2Proof.Machine.execSnapshotListSet h count words s
  | .snapshotScheduleSet h mode interval cost => Sys2Proof.Machine.execSnapshotScheduleSet h mode interval cost s
  | .repairListGet h first count => Sys2Proof.Machine.execRepairListGet h first count s
  | .repairListPut h count rows => Sys2Proof.Machine.execRepairListPut h count rows s
  | .redGroupSet h group epoch entry => Sys2Proof.Machine.execRedGroupSet h group epoch entry s
  | .redBucketsSet h group epoch first count src => Sys2Proof.Machine.execRedBucketsSet h group epoch first count src s
  | .redScaleSet h group epoch bucket sOpen => Sys2Proof.Machine.execRedScaleSet h group epoch bucket sOpen s
  | .redGroupRead h group epoch => Sys2Proof.Machine.execRedGroupRead h group epoch s
  | .fabPortsRead h => Sys2Proof.Machine.execFabPortsRead h s
  | .fabAddrSet h tSize sSize dSize dateline enable addr => Sys2Proof.Machine.execFabAddrSet h tSize sSize dSize dateline enable addr s
  | .fabRouteSet h axis first count entries => Sys2Proof.Machine.execFabRouteSet h axis first count entries s
  | .fabPortRetrain h port => Sys2Proof.Machine.execFabPortRetrain h port s
  | .fabPortQuarantine h port => Sys2Proof.Machine.execFabPortQuarantine h port s
  | .fabRotEnSet h port => Sys2Proof.Machine.execFabRotEnSet h port s
  | .fabRotEnClear h port => Sys2Proof.Machine.execFabRotEnClear h port s
  | .fabCfgSet h rotInterval reqTimeout violWindow violLimit minMargin => Sys2Proof.Machine.execFabCfgSet h rotInterval reqTimeout violWindow violLimit minMargin s
  | .hostAddrSet h which clear addr => Sys2Proof.Machine.execHostAddrSet h which clear addr s
  | .hostPortSet h udp vlan roce belpel pfc => Sys2Proof.Machine.execHostPortSet h udp vlan roce belpel pfc s
  | .hostNeighSet h first count entries => Sys2Proof.Machine.execHostNeighSet h first count entries s
  | .qpSet h qp mtu tclass ackTimeout retry remoteQpn sqPsn rqPsn rkey ip va len => Sys2Proof.Machine.execQpSet h qp mtu tclass ackTimeout retry remoteQpn sqPsn rqPsn rkey ip va len s
  | .qpReset h qp => Sys2Proof.Machine.execQpReset h qp s
  | .qpQuery h qp => Sys2Proof.Machine.execQpQuery h qp s
  | .windowSet h win perms rkey base size => Sys2Proof.Machine.execWindowSet h win perms rkey base size s
  | .allowSet h count entries => Sys2Proof.Machine.execAllowSet h count entries s
  | .eventEndpointSet h port ip => Sys2Proof.Machine.execEventEndpointSet h port ip s
  | .fwStage h len src => Sys2Proof.Machine.execFwStage h len src s
  | .fwActivate h => Sys2Proof.Machine.execFwActivate h s
  | .attest h nonce cap dst => Sys2Proof.Machine.execAttest h nonce cap dst s
  | .identityRead h cap dst => Sys2Proof.Machine.execIdentityRead h cap dst s
  | .failureReport h failures hours => Sys2Proof.Machine.execFailureReport h failures hours s
  | .mirrorRefill h entry src => Sys2Proof.Machine.execMirrorRefill h entry src s
  | .refillComplete => Sys2Proof.Machine.execRefillComplete s
  | .contextFault c f => Sys2Proof.Machine.execContextFault c f s
  | .teardownComplete c => Sys2Proof.Machine.execTeardownComplete c s
  | .noGroupPeriodTick => Sys2Proof.Machine.execNoGroupPeriodTick s
  | .irqClaim k => Sys2Proof.Machine.execIrqClaim k s
  | .irqComplete k n => Sys2Proof.Machine.execIrqComplete k n s
  | .hostEventRecordAppend n => Sys2Proof.Machine.execHostEventRecordAppend n s
  | .forwardedRecordAppend n => Sys2Proof.Machine.execForwardedRecordAppend n s
  | .irqSrcCfgWrite n v begun => Sys2Proof.Machine.execIrqSrcCfgWrite n v begun s
  | .irqLockWrite v => Sys2Proof.Machine.execIrqLockWrite v s
  | .crystalLost x => Sys2Proof.Machine.execCrystalLost x s
  | .loopLockLost ix => Sys2Proof.Machine.execLoopLockLost ix s
  | .clkSelWrite v => Sys2Proof.Machine.execClkSelWrite v s
  | .loopRelock ix => Sys2Proof.Machine.execLoopRelock ix s
  | .crystalStable x opens => Sys2Proof.Machine.execCrystalStable x opens s
  | .powerGoodRise b => Sys2Proof.Machine.execPowerGoodRise b s
  | .hbmTrainingStart => Sys2Proof.Machine.execHbmTrainingStart s
  | .inputUndervoltage => Sys2Proof.Machine.execInputUndervoltage s
  | .inputOvervoltage => Sys2Proof.Machine.execInputOvervoltage s
  | .inputOvervoltageClear => Sys2Proof.Machine.execInputOvervoltageClear s
  | .rstNAssert => Sys2Proof.Machine.execRstNAssert s
  | .rstNRelease b => Sys2Proof.Machine.execRstNRelease b s
  | .resetHoldExpire b => Sys2Proof.Machine.execResetHoldExpire b s
  | .throttleRise t temp => Sys2Proof.Machine.execThrottleRise t temp s
  | .throttleStepTimer t temp => Sys2Proof.Machine.execThrottleStepTimer t temp s
  | .throttleFall t temp => Sys2Proof.Machine.execThrottleFall t temp s
  | .thermalTrip temp => Sys2Proof.Machine.execThermalTrip temp s
  | .tripRecovery temp b => Sys2Proof.Machine.execTripRecovery temp b s
  | .telemetrySample sensors => Sys2Proof.Machine.execTelemetrySample sensors s
  | .bootWatchdog => Sys2Proof.Machine.execBootWatchdog s
  | .flashOwnNFall => Sys2Proof.Machine.execFlashOwnNFall s
  | .flashBusRelease => Sys2Proof.Machine.execFlashBusRelease s
  | .flashOwnNRise writes b => Sys2Proof.Machine.execFlashOwnNRise writes b s
  | .extest cells => Sys2Proof.Machine.execExtest cells s
  | .idcode => Sys2Proof.Machine.execIdcode s
  | .samplePreload pins cells => Sys2Proof.Machine.execSamplePreload pins cells s
  | .clamp => Sys2Proof.Machine.execClamp s
  | .highz => Sys2Proof.Machine.execHighz s
  | .extestPulse cells => Sys2Proof.Machine.execExtestPulse cells s
  | .extestTrain cells => Sys2Proof.Machine.execExtestTrain cells s
  | .bootStat => Sys2Proof.Machine.execBootStat s
  | .bypass code => Sys2Proof.Machine.execBypass code s
  | .hbmTrainingComplete g failed => Sys2Proof.Machine.execHbmTrainingComplete g failed s
  | .rdmaReadResponseReceive h psn data => Sys2Proof.Machine.execRdmaReadResponseReceive h psn data s
  | .linkLost => Sys2Proof.Machine.execLinkLost s
  | .violationWindowEnd p => Sys2Proof.Machine.execViolationWindowEnd p s
  | .refreshManagementRequest k pc => Sys2Proof.Machine.execRefreshManagementRequest k pc s
  | .testLogicReset => Sys2Proof.Machine.execTestLogicReset s

end Sys2Proof.Machine
end

