-- ==== Sys2Proof/Machine/Tick.lean ====
section
/-! DEFINITION. One refclk tick: what the device does with no command waiting (log entry 33). -/

namespace Sys2Proof.Machine

/-- The phase of a descriptor whose enable is bit `b` of word 0 and whose phase id lies above it (R54). -/
def descPhase (w : List Nat) (b : Nat) : List Nat :=
  if w.getD 0 0 / 2 ^ b % 2 == 1 then [w.getD 0 0 / 2 ^ (b + 1) % 16] else []

/-- Phase ids of the agents active now: issued jobs and transfers, and running threads (R54, R90, R160, R226, R282, R300,
R336, R348). -/
def State.activePhases (s : State) : List Nat :=
  s.mtx.jobs.flatMap (fun x => descPhase x.2.desc 25) ++ s.slv.jobs.flatMap (fun x => descPhase x.2.words 27)
  ++ s.ram.jobs.flatMap (fun x => if x.2.complete then [] else descPhase x.2.words 17)
  ++ s.red.jobs.flatMap (fun x => if x.2.complete then [] else descPhase x.2.words 5)
  ++ s.cdc.jobs.flatMap (fun x => descPhase x.2.words (if x.2.eng < 8 then 23 else 15))
  ++ s.thr.recs.flatMap (fun x => if s.seated x.1 x.2 && (s.seat x.1).sc.phaseEn then [(s.seat x.1).sc.phaseId % 16] else [])

/-- A phase counter over one more active tick (R54). -/
def PhaseCnt.active (p : PhaseCnt) (now : DWord) : PhaseCnt :=
  { first := some (p.first.getD now), last := now, busy := p.busy + 1 }

/-- The phase counters take in the present tick (R54). -/
def State.countPhases (s : State) : State :=
  let on := s.activePhases
  s.each ((List.range 16).filter on.contains) fun s p =>
    { s with step := { s.step with phases := tmod s.step.phases p fun x => x.active s.refclk } }

/-- Reduction traffic that waited goes on: held messages, complete segments and completion records (R365, R372, R375, R380). -/
def State.redTick (s : State) : State := ((s.releaseHeld).retrySegs).ringTick

/-- One refclk tick of a device with power: the phase counters, one page of a snapshot and of a refill, reduction traffic that
waited and the faults its shards left, starved appends and mover parts that waited, an idle flit of each port that owes one, and
the counter (R54, R20, R266, R345, R365, R368, R396, R490). -/
def State.tick (s : State) : State :=
  if s.pwr.st == .off then s
  else
    let s := s.countPhases
    let s := ((((s.snapTick.refillTick).redTick).settleRed).kvTick).mvTick
    let s := s.each (List.range 6) fun s p => s.idleFlit p
    { s with refclk := s.refclk + 1 }

end Sys2Proof.Machine
end

