-- ==== Sys2Proof/Safety.lean ====
section
/-! DEFINITION. What claims are stated in: the canonical form of memory and registers, when a thread can run an instruction,
and what an instruction or a command leaves alone. -/

namespace Sys2Proof.Machine

/-- Memory is in its canonical form: addresses strictly rising, no entry equal to what an unlisted address reads as. -/
def Memory.wf (m : List Host.Cell) : Bool := sparseWf (fun _ => memDefault) m

/-! ### Threads -/

/-- Thread `i` of tower `t` can issue the instruction with fields `f` and shape `sh`: it occupies a seat and runs, the
instruction may be fetched from its pc, it is legal, and its operands are ready (R172, R202, R205). -/
def State.canIssue (s : State) (t : Tower) (i : Nat) (f : Fields) (sh : Shape) : Bool :=
  let k := thrKey t.val i
  s.canRun k && fetchOk (s.seat k).sc.pc && sh.legal f && operandsReady (s.accs k) sh f

/-- Nothing but the seat of thread `k` differs: every register, every byte of memory, every other thread and every unit is as
it was. -/
structure OnlySeat (k : Nat) (s u : State) : Prop where
  same : u = s.setSeat k (u.seat k)
  bytes : ∀ a, u.byte a = s.byte a
  regs : ∀ r t i, u.reg r t i = s.reg r t i
  others : ∀ j, j ≠ k → u.seat j = s.seat j

/-- A seat keeps its place and its modes: vl, vtype, phase, core and what its unwritten registers hold. -/
structure SameModes (x y : Seat) : Prop where
  vl : y.sc.vl = x.sc.vl
  vtype : y.sc.vtype = x.sc.vtype
  phaseId : y.sc.phaseId = x.sc.phaseId
  phaseEn : y.sc.phaseEn = x.sc.phaseEn
  core : y.core = x.core
  loaded : y.loaded = x.loaded
  exited : y.exited = x.exited

/-- The address of the instruction after the one at the seat's pc (R202). -/
def Seat.nextPc (x : Seat) : Nat := (x.sc.pc + 8) % 2 ^ 64

/-- An instruction of thread `k` wrote `v` to scalar register `d` and went on at `pc`; nothing else changed. -/
structure ScalarResult (k d pc : Nat) (v : DWord) (s u : State) : Prop where
  frame : OnlySeat k s u
  modes : SameModes (s.seat k) (u.seat k)
  pc : (u.seat k).sc.pc = pc
  dest : (u.seat k).s d = v
  scalars : ∀ r, r ≠ d → (u.seat k).s r = (s.seat k).s r
  vectors : ∀ r, (u.seat k).vec r = (s.seat k).vec r
  masks : ∀ r, (u.seat k).msk r = (s.seat k).msk r
  flags : (u.seat k).sc.flags = (s.seat k).sc.flags

/-- An instruction of thread `k` went on at `pc` and changed nothing else. -/
structure NoResult (k pc : Nat) (s u : State) : Prop where
  frame : OnlySeat k s u
  modes : SameModes (s.seat k) (u.seat k)
  pc : (u.seat k).sc.pc = pc
  scalars : ∀ r, (u.seat k).s r = (s.seat k).s r
  vectors : ∀ r, (u.seat k).vec r = (s.seat k).vec r
  masks : ∀ r, (u.seat k).msk r = (s.seat k).msk r
  flags : (u.seat k).sc.flags = (s.seat k).sc.flags

/-- An instruction of thread `k` wrote the elements below vl of the group at `f.d`, of width `w`: element j holds `sel j` where
that selects a value, else 0 under zeroing, else what it held; an element at or above vl keeps its value, as does every
register outside the group (R190, R191, R208). The conditions `fl` are ORed into the flags (R232), and nothing else changed. -/
structure VectorResult (k : Nat) (f : Fields) (w : Nat) (sel : Nat → Option Nat) (fl : FFlags) (s u : State) : Prop where
  frame : OnlySeat k s u
  modes : SameModes (s.seat k) (u.seat k)
  pc : (u.seat k).sc.pc = (s.seat k).nextPc
  written : ∀ j v, j < (s.seat k).sc.vl → sel j = some v → (u.seat k).elem f.d.toNat w j = v % 2 ^ w
  zeroed : ∀ j, j < (s.seat k).sc.vl → sel j = none → f.z = true → (u.seat k).elem f.d.toNat w j = 0
  kept : ∀ j, j < (s.seat k).sc.vl → sel j = none → f.z = false →
    (u.seat k).elem f.d.toNat w j = (s.seat k).elem f.d.toNat w j
  tail : ∀ j, (s.seat k).sc.vl ≤ j → (u.seat k).elem f.d.toNat w j = (s.seat k).elem f.d.toNat w j
  vectors : ∀ r, (∀ j, j < (s.seat k).sc.vl → r ≠ f.d.toNat + j / (1024 / w)) → (u.seat k).vec r = (s.seat k).vec r
  scalars : ∀ r, (u.seat k).s r = (s.seat k).s r
  masks : ∀ r, (u.seat k).msk r = (s.seat k).msk r
  flags : (u.seat k).sc.flags = (s.seat k).sc.flags.or fl

/-- An instruction of thread `k` wrote bits below vl of mask register `f.d`: bit j takes `sel j`, else 0 under zeroing, else
keeps its value; the other bits and masks keep theirs (R190, R191, R221). -/
structure MaskResult (k : Nat) (f : Fields) (sel : Nat → Option Bool) (fl : FFlags) (s u : State) : Prop where
  frame : OnlySeat k s u
  modes : SameModes (s.seat k) (u.seat k)
  pc : (u.seat k).sc.pc = (s.seat k).nextPc
  written : ∀ j b, j < 256 → j < (s.seat k).sc.vl → sel j = some b → ((u.seat k).msk f.d.toNat).getLsbD j = b
  zeroed : ∀ j, j < 256 → j < (s.seat k).sc.vl → sel j = none → f.z = true →
    ((u.seat k).msk f.d.toNat).getLsbD j = false
  kept : ∀ j, j < 256 → j < (s.seat k).sc.vl → sel j = none → f.z = false →
    ((u.seat k).msk f.d.toNat).getLsbD j = ((s.seat k).msk f.d.toNat).getLsbD j
  tail : ∀ j, j < 256 → (s.seat k).sc.vl ≤ j →
    ((u.seat k).msk f.d.toNat).getLsbD j = ((s.seat k).msk f.d.toNat).getLsbD j
  masks : ∀ r, r ≠ f.d.toNat → (u.seat k).msk r = (s.seat k).msk r
  vectors : ∀ r, (u.seat k).vec r = (s.seat k).vec r
  scalars : ∀ r, (u.seat k).s r = (s.seat k).s r
  flags : (u.seat k).sc.flags = (s.seat k).sc.flags.or fl

/-- The value `g` where the element is active under the governing mask, none elsewhere (R208). -/
def Seat.ifActive {α : Type} (x : Seat) (f : Fields) (g : Nat → α) (j : Nat) : Option α :=
  if x.active f j then some (g j) else none

/-- The conditions of the active elements below vl, ORed (R232). -/
def Seat.conditions (x : Seat) (f : Fields) (g : Nat → FFlags) : FFlags :=
  orAll x.sc.vl fun j => if x.active f j then g j else FFlags.none

/-- Predicate `p` of two numbers: 0 EQ, 1 NE, 2 LT, 3 LE, 4 GT, 5 GE (R210, R213, R215). -/
def holdsPred (p : Nat) (a b : Int) : Bool :=
  match p with
  | 0 => a == b | 1 => a != b | 2 => decide (a < b) | 3 => decide (a ≤ b) | 4 => decide (a > b) | 5 => decide (a ≥ b)
  | _ => false

/-- The shape of a scalar register instruction that writes d from a and b. -/
def formSab : Shape := { form := .reg, d := .s, a := .s, b := .s }

/-- `n` with bit `p` made `b`. -/
def withBit (n p : Nat) (b : Bool) : Nat := n / 2 ^ (p + 1) * 2 ^ (p + 1) + (if b then 2 ^ p else 0) + n % 2 ^ p

/-- The shape of an element-wise instruction that writes vector d from vector a, where `ok` holds. -/
def formVa (ok : Bool) : Shape := { form := .reg, d := .v 1, a := .v 1, z := true, mu := true, ok := ok }
/-- The same from vectors a and b. -/
def formVab (ok : Bool) : Shape := { formVa ok with b := .v 1 }
/-- The same from vectors a, b and c. -/
def formVabc (ok : Bool) : Shape := { formVab ok with c := .v 1 }

/-- The saturation bounds of `w`-bit results (R219). -/
def satHi (unsigned : Bool) (w : Nat) : Int := if unsigned then 2 ^ w - 1 else 2 ^ (w - 1) - 1
def satLo (unsigned : Bool) (w : Nat) : Int := if unsigned then 0 else -(2 ^ (w - 1) - 1)
/-- `v` saturated to the bounds (R219). -/
def satTo (unsigned : Bool) (w : Nat) (v : Int) : Int := max (satLo unsigned w) (min (satHi unsigned w) v)

/-! ### Accesses in flight -/

/-- Thread `k` issued the accesses `l`, numbered on from those it had issued, and went on to its next instruction: they stand
behind its earlier ones, and until they are performed no register outside the seat, no byte of memory and no other thread
differs (R194). What becomes of the vector registers is said where it is used. -/
structure Issued (k : Nat) (l : List Acc) (s u : State) : Prop where
  list : u.accs k = s.accs k ++ l.zipIdx.map fun x => { x.1 with seq := tget s.thr.nextAcc k + x.2 }
  lists : ∀ j, j ≠ k → u.accs j = s.accs j
  bytes : ∀ a, u.byte a = s.byte a
  regs : ∀ r t i, u.reg r t i = s.reg r t i
  seats : ∀ j, j ≠ k → u.seat j = s.seat j
  recs : ∀ j, u.trec j = s.trec j
  modes : SameModes (s.seat k) (u.seat k)
  pc : (u.seat k).sc.pc = (s.seat k).nextPc
  scalars : ∀ r, (u.seat k).s r = (s.seat k).s r
  masks : ∀ r, (u.seat k).msk r = (s.seat k).msk r
  flags : (u.seat k).sc.flags = (s.seat k).sc.flags

/-- The numbers of the active elements below vl, in ascending order (R208). -/
def Seat.actives (x : Seat) (f : Fields) : List Nat := (List.range x.sc.vl).filter (x.active f)

/-- The access at place `n` of thread `k` is `a`; the orders of R194 and R195 allow it, its way is open (R20) and no line holds it
(R322), it is no lantern access to a bank pair, and its bytes hold no uncorrectable error. -/
structure MayPerform (s : State) (k n : Nat) (a : Acc) : Prop where
  there : (s.accs k)[n]? = some a
  first : orderOk (s.accs k) n = true
  free : s.accBlocked k a = false
  unlined : s.accLined k a = false
  plain : a.lantern = .no
  good : s.knownBad a.addr a.len = none

/-- The bytes of an access lie in HBM, scratch or queue memory. -/
def PlainBytes (a : Acc) : Prop :=
  ∀ j, j = 0 ∨ j < a.len → regionOf (a.addr + j) = .hbm ∨ (∃ t, regionOf (a.addr + j) = .scratch t)
    ∨ ∃ t, regionOf (a.addr + j) = .queueMem t

/-- Nothing holds the store of `a`: no bank that serves a lantern access (R52), no snapshot (R345); and it goes into no mirror
entry (R347). -/
structure Unheld (s : State) (a : Acc) : Prop where
  unheld : a.held = .no
  banks : s.bankHeld [(a.addr, a.len)] = false
  snap : s.snapHolds a.addr = false ∧ s.snapHolds (a.addr + a.len - 1) = false
  mirror : (s.mirrorAt a.addr).isSome = false ∧ (s.mirrorAt (a.addr + a.len - 1)).isSome = false

/-! ### Park and resume (R177 to R181) -/

/-- Every register and every byte of memory reads as before; the thread context store, which shows the thread records, apart. -/
structure SameStores (s u : State) : Prop where
  bytes : ∀ a, (∀ t, regionOf a ≠ .ctxStore t) → u.byte a = s.byte a
  regs : ∀ r t i, u.reg r t i = s.reg r t i

/-- Thread `k` parked in state `st` for `reason` and gave up its seat: its record holds the scalar state with the pc at the next
instruction, its loads are abandoned, its stores stay, and no other thread changed (R178). -/
structure Parked (k : Nat) (st : ThrState) (reason : Reason) (d : Nat) (s u : State) : Prop where
  saved : (u.trec k).sc = { (s.seat k).sc with pc := (s.seat k).nextPc }
  state : (u.trec k).st = st ∧ (u.trec k).reason = reason ∧ (u.trec k).wakeDst = d
  owner : (u.trec k).ctx = (s.trec k).ctx ∧ (u.trec k).spawner = (s.trec k).spawner
  seat : u.seat k = default
  accs : u.accs k = (s.accs k).filter fun a => a.kind != .load
  recs : ∀ j, j ≠ k → u.trec j = s.trec j
  seats : ∀ j, j ≠ k → u.seat j = s.seat j
  lists : ∀ j, j ≠ k → u.accs j = s.accs j
  stores : SameStores s u

/-- A may-park instruction of thread `k` went on without parking: `v` is in scalar register `d`, the other scalars, the flags and
the modes are kept, and the vector and mask registers hold the free values of a new epoch (R177, R181). -/
structure WentOn (k d : Nat) (v : DWord) (s u : State) : Prop where
  dest : (u.seat k).s d = v
  scalars : ∀ r, r ≠ d → (u.seat k).s r = (s.seat k).s r
  pc : (u.seat k).sc.pc = (s.seat k).nextPc
  modes : SameModes (s.seat k) (u.seat k)
  flags : (u.seat k).sc.flags = (s.seat k).sc.flags
  vectors : ∀ r, (u.seat k).vec r = Config.freeVec s.freeCtr r ∧ (u.seat k).msk r = Config.freeMask s.freeCtr r
  fresh : u.freeCtr = s.freeCtr + 1
  seats : ∀ j, j ≠ k → u.seat j = s.seat j
  stores : SameStores s u

/-! ### What units send and raise -/

/-- Source `n` was raised once with argument `a`: an idle source pends, with the count 1 (R497, R498). -/
def Raised (n a : Nat) (s u : State) : Prop :=
  (tget s.irq.srcs n).st = .idle →
    (tget u.irq.srcs n).st = .pending ∧ (tget u.irq.srcs n).arg = argOf 1 (BitVec.ofNat 48 a)

/-- Counter field `f` of a register grew by one, or stays at its largest value. -/
def CountedOne (r : RegId) (t i : Nat) (f : Fld) (s u : State) : Prop :=
  u.fld r t i f = min (s.fld r t i f + 1) (2 ^ f.width - 1)

/-- The host port sent `o`, or holds it while a received pause for its priority is in force (R430), or has no neighbour entry for
the peer and does not send it (R422); it sent nothing else. -/
def SendsOne (o : HostOut) (s u : State) : Prop :=
  (s.reaches o = true → s.isPaused o = false → u.host.tx = s.framed o :: s.host.tx ∧ u.host.stalled = s.host.stalled)
  ∧ (s.reaches o = true → s.isPaused o = true → u.host.tx = s.host.tx ∧ u.host.stalled = s.host.stalled ++ [o])
  ∧ (s.reaches o = false → u.host.tx = s.host.tx ∧ u.host.stalled = s.host.stalled)

/-- Packet `k` is on its way out of port `p`: it waits in the queue, or its flits stand in the replay buffer (R398, R401). -/
def State.sending (s : State) (p : Nat) (k : Packet) : Prop :=
  (∃ q ∈ (s.port p).txq, q.pkt = k) ∨ ∃ f ∈ (s.port p).replay, f.pkt = k

/-- The received packet `p` of port `port` left the list of received packets and `r` answers it, by the routing of the drum that
handled it; an answer without a route is discarded and counted (R404, R420, R421). -/
structure Answered (port : Nat) (p r : Packet) (s u : State) : Prop where
  here : s.route (atTower port) none r = .deliver → u.fab.rxLocal = s.fab.rxLocal.erase (port, p) ++ [(6, r)]
  away : ∀ q sub det, s.route (atTower port) none r = .send q sub det →
    u.fab.rxLocal = s.fab.rxLocal.erase (port, p) ∧ u.sending q { r with sub := sub, detour := det }
  lost : s.route (atTower port) none r = .lost →
    u.fab.rxLocal = s.fab.rxLocal.erase (port, p) ∧ CountedOne .plynUnroutable (atTower port) 0 plynUnroutable_count s u

/-- No byte of [a, a + n) lies in a thread context store, which shows the thread records. -/
def NoContextStore (a n : Nat) : Prop := ∀ l t, l < n → regionOf (a + l) ≠ .ctxStore t

/-- `bs` was stored at `a`, and no other byte of memory differs, the thread context store apart. -/
structure Wrote (a : Nat) (bs : List Byte) (s u : State) : Prop where
  there : ∀ l, l < bs.length → u.byte (a + l) = bs.getD l 0
  kept : ∀ b, b < a ∨ a + bs.length ≤ b → (∀ t, regionOf b ≠ .ctxStore t) → u.byte b = s.byte b

/-! ### Mailbox commands (R442 to R453) -/

/-- The command `c` that came to mailbox `h.mb` is executed as it arrives: Lumdom runs, no waiting command is due, the mailbox is
open, idle and next in the round-robin, no waiting command or command accepted earlier names one of its objects, its accesses are
not held, and it is accepted on that mailbox (R445, R446, R450, R453). -/
structure Taken (h : CmdHdr) (c : MbCmd) (s : State) : Prop where
  running : s.pwr.st = .running
  due : s.host.waiting.any s.mayResume = false
  isOpen : (s.mbox h.mb.val).isOpen = true
  idle : s.mbHeld h.mb.val = false
  empty : (s.mbox h.mb.val).queue = []
  free : s.heldObjs c.objects = false
  first : s.objsAhead h.mb.val s.host.accepted c.objects = false
  turn : s.nextMbox (fun i => i == h.mb.val || s.mbReady i) = some h.mb.val
  unheld : s.storesHeld belfryIsland (s.cmdSpans c) = false
  accepted : mbox0Only.contains c.op = true → h.mb.val = 0

/-- `s` with the reply of a command, of status `st` with body `body`, in front of the replies written, and its mailbox the one
served last (R443, R445). -/
def State.replied (s : State) (h : CmdHdr) (c : MbCmd) (st : Status) (body : List Byte) : State :=
  { s with host := { s.host with
    replies := { mb := h.mb.val, opcode := c.op, tag := h.tag.toNat, status := st, body := body } :: s.host.replies
    lastMbox := h.mb.val } }

/-- The replies written are those before, and one of a command in front. -/
def Replied (h : CmdHdr) (c : MbCmd) (st : Status) (body : List Byte) (s u : State) : Prop :=
  u.host.replies = (s.replied h c st body).host.replies

/-- A command holds its mailbox and waits (R450); nothing else differs. -/
def Waits (h : CmdHdr) (c : MbCmd) (s u : State) : Prop :=
  u = { s with host := { s.host with
    waiting := s.host.waiting ++ [{ hdr := h, cmd := c, item := none, taken := s.refclk }]
    lastMbox := h.mb.val } }

/-- A change of the open copy of the shadowed settings, with the staged and the active copies as they were (R449). -/
def OpenOnly (s u : State) : Prop := ∃ o, u.step = { s.step with openSet := o }

/-! ### Registers -/

/-- Nothing but registers differs, and of these none but repeat `i` of register `r` of tower `t`. -/
structure OnlyReg (r : RegId) (t i : Nat) (s u : State) : Prop where
  same : u = { s with regs := u.regs }
  others : ∀ q t2 i2, regKey q t2 i2 ≠ regKey r t i → u.reg q t2 i2 = s.reg q t2 i2

/-- Registers whose writes have an effect of their own, apart from the queue registers. -/
def writesApart : List RegId :=
  [.vecCtxCfg, .vecThrRange, .atnPoolTail, .atnPoolBaseLo, .atnPoolBaseHi, .atnPageTimeout, .memLocalCfg, .redGrpBaseLo,
   .redGrpBaseHi, .plynPortCfg, .plynViolCfg, .plynFabAddr, .plynReqTimeout, .hostUdpPort, .hostEvtRetry, .irqSrcCfg,
   .irqComplete, .clkSel, .clkThermCfg, .plynRtT, .plynRtS, .plynRtD, .hostPfcCfg]

/-- Registers that are computed, or whose reads have an effect of their own. -/
def readsApart : List RegId :=
  [.vecThrLive, .vecThrRun, .atnStarved, .vecSeatBusy, .redBusy, .ctlRefclkLo, .irqSrcStat, .irqClaim, .irqComplete]

/-- A write of `v` finds the value `old` in a field (R7): RW takes it, W1C clears and W1S sets the bits written as 1, any other
type keeps its value. -/
def fieldWrite (f : Fld) (old v : Word) (j : Nat) : Bool :=
  match f.acc with
  | .rw => v.getLsbD j
  | .w1c => old.getLsbD j && !v.getLsbD j
  | .w1s => old.getLsbD j || v.getLsbD j
  | _ => old.getLsbD j

end Sys2Proof.Machine
end

