-- ==== Sys2Proof/WellFormed.lean ====
section
/-! DEFINITION. Which commands the block can be sent: list operands of the length their counts give, indices within range. -/

namespace Sys2Proof

namespace Machine

/-- A thread index has 18 bits (R175). -/
def threadOk (i : Nat) : Bool := i < 2 ^ 18

/-- Physical lanes of a port direction: its lanes and the gusset lane (R10, R386). -/
def physLanes (p : Nat) : Nat := if p < 2 then 17 else 9

/-- A packet's fields have the widths of R403, and its payload the length its header gives; a READ has none (R404). -/
def Packet.wf (p : Packet) : Bool :=
  p.dst < 2 ^ 16 && p.src < 2 ^ 16 && p.cls < 8 && p.sub < 4 && p.length < 2 ^ 16 && p.tag < 2 ^ 16 && p.addr < 2 ^ 48
  && (if p.kind == .read then p.payload.isEmpty else p.payload.length == p.length)

/-- A descriptor of Lumdom has 32 words (R282, R300). -/
def CdcSrc.wf (x : CdcSrc) : Bool :=
  match x with
  | .queue _ => true
  | .lumdom w => w.length == 32

/-- A record's payload holds a sequence header with a size. -/
def RecFound.wf (f : RecFound) : Bool := f.hdr.all fun h => h.w != 0 && h.h != 0

/-- A picture has a size, its planes have it too, and 4:0:0 has no chroma planes (R273, R290). -/
def Pic.wf (p : Pic) : Bool :=
  p.w != 0 && p.h != 0 && (p.bd == 8 || p.bd == 10) && p.y.length == p.w * p.h
  && (let n := if p.mono then 0 else (p.w + 1) / 2 * ((p.h + 1) / 2)
      p.cb.length == n && p.cr.length == n)

end Machine

open Machine

/-- The command is well formed. -/
def Instr.wf (c : Instr) : Bool :=
  match c with
  | .crossingEntryArrive _ _ _ => true
  | .crossingCreditReturn _ _ => true
  | .islandReadyLoss _ => true
  | .registerWrite _ _ => true
  | .w1cFieldWrite _ _ _ => true
  | .rcFieldRead _ _ => true
  | .storePerformed _ i _ _ => threadOk i
  | .loadComplete _ i _ _ => threadOk i
  | .localArrival => true
  | .arriveTokenReceive p => p.wf
  | .commitTokenReceive p => p.wf
  | .stepTimeout => true
  | .bankStoreRelease _ i _ _ => threadOk i
  | .queueTailWrite _ _ _ _ => true
  | .queueCqHeadWrite _ _ _ _ => true
  | .queueBaseWrite _ _ _ _ _ => true
  | .tileJobIssue _ _ => true
  | .slotClaim _ _ => true
  | .chunkIssue _ _ _ => true
  | .stageChunkArrive _ _ _ => true
  | .chunkFold _ _ => true
  | .slotDrainComplete _ _ _ => true
  | .tileCopy _ _ => true
  | .spillPartial _ _ => true
  | .reloadPartial _ _ => true
  | .descriptorComplete _ => true
  | .completionRecordWrite _ _ _ => true
  | .sleeveIssue _ _ => true
  | .sleevePassComplete _ _ _ => true
  | .sleeveTailHandoff _ => true
  | .threadDispatch _ => true
  | .threadResume _ i => threadOk i
  | .waitDeadline _ i => threadOk i
  | .threadIndexFree _ i => threadOk i
  | .sadd _ i _ => threadOk i
  | .ssub _ i _ => threadOk i
  | .smul _ i _ => threadOk i
  | .sand _ i _ => threadOk i
  | .sor _ i _ => threadOk i
  | .sxor _ i _ => threadOk i
  | .sshl _ i _ => threadOk i
  | .sshr _ i _ => threadOk i
  | .ssra _ i _ => threadOk i
  | .scmp _ i _ => threadOk i
  | .saddi _ i _ => threadOk i
  | .sli _ i _ => threadOk i
  | .slih _ i _ => threadOk i
  | .srd _ i _ => threadOk i
  | .swrf _ i _ => threadOk i
  | .branch _ i _ => threadOk i
  | .beq _ i _ => threadOk i
  | .bne _ i _ => threadOk i
  | .blt _ i _ => threadOk i
  | .bge _ i _ => threadOk i
  | .bltu _ i _ => threadOk i
  | .bgeu _ i _ => threadOk i
  | .jal _ i _ => threadOk i
  | .jr _ i _ => threadOk i
  | .setvl _ i _ => threadOk i
  | .vfadd _ i _ => threadOk i
  | .vfsub _ i _ => threadOk i
  | .vfmul _ i _ => threadOk i
  | .vfma _ i _ => threadOk i
  | .vfnma _ i _ => threadOk i
  | .vfmin _ i _ => threadOk i
  | .vfmax _ i _ => threadOk i
  | .vfcmp _ i _ => threadOk i
  | .vfdiv _ i _ => threadOk i
  | .vfsqrt _ i _ => threadOk i
  | .vfexp2 _ i _ => threadOk i
  | .vflog2 _ i _ => threadOk i
  | .vfredsum _ i _ => threadOk i
  | .vfredmax _ i _ => threadOk i
  | .vadd _ i _ => threadOk i
  | .vsub _ i _ => threadOk i
  | .vmul _ i _ => threadOk i
  | .vmulh _ i _ => threadOk i
  | .vmac _ i _ => threadOk i
  | .vmin _ i _ => threadOk i
  | .vmax _ i _ => threadOk i
  | .vcmp _ i _ => threadOk i
  | .viredsum _ i _ => threadOk i
  | .vcvt _ i _ => threadOk i
  | .vcvts _ i _ => threadOk i
  | .vcvtmx _ i _ => threadOk i
  | .vcvtfmx _ i _ => threadOk i
  | .vqadd _ i _ => threadOk i
  | .vqsub _ i _ => threadOk i
  | .vqmul _ i _ => threadOk i
  | .vqmac _ i _ => threadOk i
  | .vqmulshr _ i _ => threadOk i
  | .vqshl _ i _ => threadOk i
  | .vqabs _ i _ => threadOk i
  | .vqneg _ i _ => threadOk i
  | .vand _ i _ => threadOk i
  | .vor _ i _ => threadOk i
  | .vxor _ i _ => threadOk i
  | .vshl _ i _ => threadOk i
  | .vshr _ i _ => threadOk i
  | .vshli _ i _ => threadOk i
  | .vperm _ i _ => threadOk i
  | .vbcast _ i _ => threadOk i
  | .vext _ i _ => threadOk i
  | .vins _ i _ => threadOk i
  | .vslup _ i _ => threadOk i
  | .vsldn _ i _ => threadOk i
  | .vmerge _ i _ => threadOk i
  | .vfsgn _ i _ => threadOk i
  | .vmov _ i _ => threadOk i
  | .mand _ i _ => threadOk i
  | .mor _ i _ => threadOk i
  | .mxor _ i _ => threadOk i
  | .mandn _ i _ => threadOk i
  | .mnot _ i _ => threadOk i
  | .mset _ i _ => threadOk i
  | .mclr _ i _ => threadOk i
  | .mpopc _ i _ => threadOk i
  | .mfirst _ i _ => threadOk i
  | .mfroms _ i _ => threadOk i
  | .mtos _ i _ => threadOk i
  | .vcompress _ i _ => threadOk i
  | .vexpand _ i _ => threadOk i
  | .lds _ i _ _ => threadOk i
  | .vld _ i _ _ => threadOk i
  | .vlds _ i _ _ => threadOk i
  | .vgather _ i _ _ => threadOk i
  | .sts _ i _ => threadOk i
  | .vst _ i _ => threadOk i
  | .vsts _ i _ => threadOk i
  | .vscatter _ i _ => threadOk i
  | .amoadd _ i _ => threadOk i
  | .amomin _ i _ => threadOk i
  | .amomax _ i _ => threadOk i
  | .amoswap _ i _ => threadOk i
  | .amocas _ i _ => threadOk i
  | .amoand _ i _ => threadOk i
  | .amoor _ i _ => threadOk i
  | .amofadd _ i _ => threadOk i
  | .vamoadd _ i _ => threadOk i
  | .wait _ i _ => threadOk i
  | .yield _ i _ => threadOk i
  | .barinit _ i _ => threadOk i
  | .bar _ i _ => threadOk i
  | .barEos _ i _ => threadOk i
  | .spawn _ i _ => threadOk i
  | .exit _ i _ => threadOk i
  | .fence _ i _ => threadOk i
  | .phase _ i _ => threadOk i
  | .event _ i _ => threadOk i
  | .kvapp _ i _ => threadOk i
  | .nop _ i _ => threadOk i
  | .attentionJobIssue _ _ => true
  | .scoreTileDrain _ _ _ => true
  | .attentionFinalise _ => true
  | .atnPoolTailWrite _ _ _ => true
  | .atnPoolBaseWrite _ _ _ _ => true
  | .kvPageTimeout _ i => threadOk i
  | .decodeJobIssue x => x.wf
  | .encodeJobIssue x => x.wf
  | .codecEngineGrant _ _ => true
  | .ringRecordConsume _ found _ => found.wf
  | .ringRecordTimeout _ => true
  | .pictureDecoded _ p blocks _ _ => p.wf && blocks.all fun b => b.pos < (p.w + 15) / 16 * ((p.h + 15) / 16)
  | .decodeJobComplete _ => true
  | .pictureCoded _ _ => true
  | .sliceCoded _ _ => true
  | .encodeOutputRoom _ => true
  | .encodeJobComplete _ => true
  | .maintModeChange => true
  | .hbmRefresh _ _ => true
  | .scrubRead _ _ _ _ => true
  | .calWindowOpen _ => true
  | .calWindowClose _ _ _ => true
  | .calWindowAbort _ => true
  | .moverIssue _ _ => true
  | .moverPartStart _ => true
  | .moverPartComplete _ _ _ => true
  | .moverPartFail _ _ _ => true
  | .moverTransferComplete _ => true
  | .snapCloseSend _ => true
  | .snapshotHeldStoreRelease _ i _ _ => threadOk i
  | .contributeIssue _ _ => true
  | .bucketOpen => true
  | .contributionAccept _ _ => true
  | .partialReceive p _ => p.wf
  | .summaryReceive p => p.wf
  | .bucketComplete _ _ _ _ => true
  | .abortNoticeReceive p => p.wf
  | .redGrpBaseWrite _ _ => true
  | .linkTrainingComplete p _ margins => margins.length == physLanes p.val
  | .linkTrainingRetry _ => true
  | .gussetRotationStart _ _ => true
  | .rotReady p lane _ => lane < physLanes p.val
  | .rotSwitch p lane _ => lane < physLanes p.val
  | .switchCodewordReached _ _ => true
  | .laneRetrainComplete _ _ => true
  | .rotDone p lane _ => lane < physLanes p.val
  | .laneFault p lane => lane < physLanes p.val
  | .laneDown p lane _ => lane < physLanes p.val
  | .halfWidth p keep => keep.lanes.all (· < physLanes p.val)
  | .quarantine _ => true
  | .ident _ _ index code _ _ => index < 4096 && code < 6
  | .flitReceive _ ws => ws.length == 35
  | .replayRequest _ seq => seq < 8192
  | .writePacketReceive p => p.pkt.wf
  | .readPacketReceive p _ => p.wf
  | .readData p => p.wf
  | .writeAck p => p.wf
  | .nack p => p.wf
  | .snapClose p => p.wf
  | .mgmt p _ => p.wf
  | .requestTimeout _ => true
  | .seamFrameSend => true
  | .seamFrameReceive _ _ => true
  | .seamHeadDetect => true
  | .seamLost => true
  | .ethernetFrameReceive _ _ => true
  | .pfcPauseReceive _ _ => true
  | .hostLinkUp => true
  | .rdmaWriteReceive _ _ _ _ _ _ => true
  | .rdmaReadReceive _ _ _ _ _ _ _ => true
  | .roceAckReceive _ _ _ => true
  | .roceRetryTimeout _ => true
  | .cnpReceive _ => true
  | .rateRecovery _ => true
  | .doorbell d => d.ip.length == 16 && d.port < 65536
  | .inlineCmd d => d.ip.length == 16 && d.port < 65536
  | .eventAck d => d.ip.length == 16 && d.port < 65536
  | .echoReq d => d.ip.length == 16 && d.port < 65536
  | .eventDatagramSend => true
  | .eventRetry => true
  | .mailboxCommandTake _ => true
  | .mailboxCommandResume => true
  | .mailboxCommandTimeout => true
  | .mboxOpen _ _ _ _ _ => true
  | .mboxClose _ _ => true
  | .devInfo _ => true
  | .devReset _ _ => true
  | .regRead _ _ _ => true
  | .eventMask _ _ _ _ => true
  | .telemetryRead _ => true
  | .sscSet _ _ _ => true
  | .ctxCreate _ _ _ _ _ _ => true
  | .ctxDestroy _ _ => true
  | .ctxQueueSet _ _ _ _ _ _ _ _ => true
  | .ctxSpawn _ _ _ _ _ _ => true
  | .ctxSchedSet _ _ _ _ allowed => allowed.length == 8
  | .lanternSet _ _ _ _ _ => true
  | .ctxFaultRead _ _ => true
  | .kvTimeoutSet _ _ _ _ => true
  | .stepGroupCreate _ _ n _ _ _ _ _ _ children => children.length == n.toNat
  | .stepGroupDissolve _ => true
  | .epochSet _ _ => true
  | .bankTableSet _ _ count entries => entries.length == 8 * count.toNat
  | .stepTimeoutSet _ _ => true
  | .phaseTableRead _ _ _ => true
  | .biasLoad _ _ _ _ _ => true
  | .codecMaintOn _ => true
  | .codecMaintOff _ => true
  | .memLocalSet _ _ => true
  | .memCalSet _ _ _ _ => true
  | .memStatsSet _ _ _ _ _ => true
  | .memStatsRead _ _ _ => true
  | .mirrorTableSet _ _ count entries => entries.length == 8 * count.toNat
  | .snapshotListSet _ count words => words.length == count.toNat
  | .snapshotScheduleSet _ _ _ _ => true
  | .repairListGet _ _ _ => true
  | .repairListPut _ count rows => rows.length == count.toNat
  | .redGroupSet _ _ _ entry => entry.length == 16
  | .redBucketsSet _ _ _ _ _ _ => true
  | .redScaleSet _ _ _ _ _ => true
  | .redGroupRead _ _ _ => true
  | .fabPortsRead _ => true
  | .fabAddrSet _ _ _ _ _ _ _ => true
  | .fabRouteSet _ _ _ count entries => entries.length == count.toNat
  | .fabPortRetrain _ _ => true
  | .fabPortQuarantine _ _ => true
  | .fabRotEnSet _ _ => true
  | .fabRotEnClear _ _ => true
  | .fabCfgSet _ _ _ _ _ _ => true
  | .hostAddrSet _ _ _ addr => addr.length == 16
  | .hostPortSet _ _ _ _ _ _ => true
  | .hostNeighSet _ _ count entries => entries.length == 24 * count.toNat
  | .qpSet _ _ _ _ _ _ _ _ _ _ ip _ _ => ip.length == 16
  | .qpReset _ _ => true
  | .qpQuery _ _ => true
  | .windowSet _ _ _ _ _ _ => true
  | .allowSet _ count entries => entries.length == 20 * count.toNat
  | .eventEndpointSet _ _ ip => ip.length == 16
  | .fwStage _ _ _ => true
  | .fwActivate _ => true
  | .attest _ nonce _ _ => nonce.length == 32
  | .identityRead _ _ _ => true
  | .failureReport _ _ _ => true
  | .mirrorRefill _ _ _ => true
  | .refillComplete => true
  | .contextFault _ _ => true
  | .teardownComplete _ => true
  | .noGroupPeriodTick => true
  | .irqClaim _ => true
  | .irqComplete _ _ => true
  | .hostEventRecordAppend _ => true
  | .forwardedRecordAppend _ => true
  | .irqSrcCfgWrite _ _ _ => true
  | .irqLockWrite _ => true
  | .crystalLost _ => true
  | .loopLockLost _ => true
  | .clkSelWrite _ => true
  | .loopRelock _ => true
  | .crystalStable _ _ => true
  | .powerGoodRise _ => true
  | .hbmTrainingStart => true
  | .inputUndervoltage => true
  | .inputOvervoltage => true
  | .inputOvervoltageClear => true
  | .rstNAssert => true
  | .rstNRelease _ => true
  | .resetHoldExpire _ => true
  | .throttleRise _ _ => true
  | .throttleStepTimer _ _ => true
  | .throttleFall _ _ => true
  | .thermalTrip _ => true
  | .tripRecovery _ _ => true
  | .telemetrySample sensors => sensors.length == 43
  | .bootWatchdog => true
  | .flashOwnNFall => true
  | .flashBusRelease => true
  | .flashOwnNRise writes _ => writes.all fun x => x.1 < 64 * 2 ^ 20
  | .extest _ => true
  | .idcode => true
  | .samplePreload _ _ => true
  | .clamp => true
  | .highz => true
  | .extestPulse _ => true
  | .extestTrain _ => true
  | .bootStat => true
  | .bypass _ => true
  | .hbmTrainingComplete g failed => failed.all fun k => k / 3 == g.val
  | .rdmaReadResponseReceive _ _ _ => true
  | .linkLost => true
  | .violationWindowEnd _ => true
  | .refreshManagementRequest _ _ => true
  | .testLogicReset => true

end Sys2Proof
end

