-- ==== Sys2Proof/Certificates/Slice0/Obligations.lean ====
section
/-! DEFINITION. The statements about the model. -/

open Sys2Proof Sys2Proof.Machine

/-- A step takes the command at the front of the queue and is exec of it on the state with the queue's rest. -/
def Obligations.StepRunsFront : Prop :=
  ∀ (c : Instr) (rest : List Instr) (s : State),
    step { s with pending := c :: rest } = exec c { s with pending := rest }

/-! ### Scalar instructions (R210, R211) -/

/-- SADD, SSUB, SMUL, SAND, SOR, SXOR, SSHL, SSHR and SSRA write their result of sa and sb, modulo 2^64, to sd and go on
(R210). -/
def Claims.ScalarArithmetic : Prop :=
  ∀ (s : State) (t : Tower) (i : Nat) (f : Fields), s.canIssue t i f formSab = true →
    let x := s.seat (thrKey t.val i)
    let a := x.s f.a.toNat
    let b := x.s f.b.toNat
    let gives (c : Tower → Nat → Fields → Instr) (v : DWord) : Prop :=
      ∃ u, exec (c t i f) s = .next u ∧ ScalarResult (thrKey t.val i) f.d.toNat x.nextPc v s u
    gives .sadd (BitVec.ofNat 64 (a.toNat + b.toNat))
    ∧ gives .ssub (BitVec.ofInt 64 (a.toNat - b.toNat : Int))
    ∧ gives .smul (BitVec.ofNat 64 (a.toNat * b.toNat))
    ∧ gives .sand (a &&& b) ∧ gives .sor (a ||| b) ∧ gives .sxor (a ^^^ b)
    ∧ gives .sshl (BitVec.ofNat 64 (a.toNat * 2 ^ (b.toNat % 64)))
    ∧ gives .sshr (BitVec.ofNat 64 (a.toNat / 2 ^ (b.toNat % 64)))
    ∧ gives .ssra (BitVec.ofInt 64 (a.toInt / 2 ^ (b.toNat % 64)))

/-- SCMP writes 1 where predicate fn[2:0] holds of sa and sb, compared as unsigned numbers with fn[3] and as signed numbers
otherwise, else 0; SADDI writes sa + imm, SLI writes imm, and SLIH writes imm to bits [63:32] alone (R210). -/
def Claims.ScalarCompareAndImmediates : Prop :=
  ∀ (s : State) (t : Tower) (i : Nat) (f : Fields),
    let k := thrKey t.val i
    let x := s.seat k
    let a := x.s f.a.toNat
    let b := x.s f.b.toNat
    let old := x.s f.d.toNat
    let gives (c : Tower → Nat → Fields → Instr) (v : DWord) : Prop :=
      ∃ u, exec (c t i f) s = .next u ∧ ScalarResult k f.d.toNat x.nextPc v s u
    (s.canIssue t i f { formSab with fn := true, ok := f.fn % 8 ≤ 5 && f.fn / 16 == 0 } = true →
      gives .scmp (if holdsPred (f.fn % 8) (if f.fn / 8 % 2 == 1 then a.toNat else a.toInt)
        (if f.fn / 8 % 2 == 1 then b.toNat else b.toInt) then 1 else 0))
    ∧ (s.canIssue t i f { form := .imm, d := .s, a := .s } = true →
        gives .saddi (BitVec.ofInt 64 (a.toInt + f.up.toInt)))
    ∧ (s.canIssue t i f { form := .imm, d := .s } = true →
        gives .sli (BitVec.ofInt 64 f.up.toInt)
        ∧ gives .slih (BitVec.ofNat 64 (f.up.toNat * 2 ^ 32 + old.toNat % 2 ^ 32)))

/-- SRD writes the special value that fn names: thread index, tower, context, flags, refclk, step number, core and fabric
address (R211); the flags once every earlier instruction has put its conditions into them (R232). -/
def Obligations.SpecialValues : Prop :=
  ∀ (s : State) (t : Tower) (i : Nat) (f : Fields),
    let k := thrKey t.val i
    let x := s.seat k
    i < 2 ^ 18 → s.canIssue t i f { form := .reg, d := .s, fn := true, ok := f.fn ≤ 7 } = true →
    (f.fn = 3 → s.flagsSettled k = true) →
    ∃ v u, exec (.srd t i f) s = .next u ∧ ScalarResult k f.d.toNat x.nextPc v s u
      ∧ (f.fn = 0 → v = BitVec.ofNat 64 i) ∧ (f.fn = 1 → v = BitVec.ofNat 64 t.val)
      ∧ (f.fn = 2 → v = BitVec.ofNat 64 (s.trec k).ctx)
      ∧ (f.fn = 3 → v.getLsbD 0 = x.sc.flags.invalid ∧ v.getLsbD 1 = x.sc.flags.overflow
          ∧ v.getLsbD 2 = x.sc.flags.underflow ∧ v.getLsbD 3 = x.sc.flags.inexact
          ∧ v.getLsbD 4 = x.sc.flags.saturated ∧ v.toNat < 32)
      ∧ (f.fn = 4 → v = s.refclk) ∧ (f.fn = 5 → v.toNat = (s.reg .ctlStepNumber 0 0).toNat)
      ∧ (f.fn = 6 → v = BitVec.ofNat 64 (64 * t.val + x.core))
      ∧ (f.fn = 7 → v.toNat = s.fld .plynFabAddr t.val 0 plynFabAddr_addr)

/-- B, BEQ, BNE, BLT, BGE, BLTU and BGEU go to pc + 8 × imm where their condition holds and to the next instruction
otherwise, and change nothing else; JAL also writes pc + 8 to sd (R210). -/
def Claims.Branches : Prop :=
  ∀ (s : State) (t : Tower) (i : Nat) (f : Fields),
    let k := thrKey t.val i
    let x := s.seat k
    let a := x.s f.a.toNat
    let b := x.s f.b.toNat
    let target : Nat := (BitVec.ofInt 64 (x.sc.pc + 8 * f.up.toInt)).toNat
    let goes (c : Tower → Nat → Fields → Instr) (cond : Bool) : Prop :=
      ∃ u, exec (c t i f) s = .next u ∧ NoResult k (if cond then target else x.nextPc) s u
    (s.canIssue t i f { form := .imm, a := .s, b := .s } = true →
      goes .beq (a == b) ∧ goes .bne (a != b)
      ∧ goes .blt (decide (a.toInt < b.toInt)) ∧ goes .bge (decide (b.toInt ≤ a.toInt))
      ∧ goes .bltu (decide (a.toNat < b.toNat)) ∧ goes .bgeu (decide (b.toNat ≤ a.toNat)))
    ∧ (s.canIssue t i f { form := .imm } = true → goes .branch true)
    ∧ (s.canIssue t i f { form := .imm, d := .s } = true →
        ∃ u, exec (.jal t i f) s = .next u ∧ ScalarResult k f.d.toNat target (BitVec.ofNat 64 (x.sc.pc + 8)) s u)

/-- JR goes to sa, read before sd = pc + 8 is written; a target that is not a multiple of 8 raises MISALIGNED (cause 2) and
leaves no trace of the instruction itself (R201, R210, R233). -/
def Claims.JumpRegister : Prop :=
  ∀ (s : State) (t : Tower) (i : Nat) (f : Fields),
    let k := thrKey t.val i
    let x := s.seat k
    let dest := (x.s f.a.toNat).toNat
    s.canIssue t i f { form := .reg, d := .s, a := .s } = true →
    (dest % 8 = 0 → ∃ u, exec (.jr t i f) s = .next u ∧ ScalarResult k f.d.toNat dest (BitVec.ofNat 64 (x.sc.pc + 8)) s u)
    ∧ (dest % 8 ≠ 0 → exec (.jr t i f) s = .next (s.thrException k 2 0))

/-- SETVL sets vtype and vl = min(sa, VLMAX) and writes vl to sd; PHASE sets phase_id and phase_en; SWRF sets the flags once every
earlier instruction has put its conditions into them; NOP only goes on (R189, R210, R226, R229, R232). No other register of the thread and nothing outside its seat changes. -/
def Claims.ModeInstructions : Prop :=
  ∀ (s : State) (t : Tower) (i : Nat) (f : Fields),
    let k := thrKey t.val i
    let x := s.seat k
    let kept (u : State) : Prop := OnlySeat k s u ∧ (u.seat k).sc.pc = x.nextPc
      ∧ (∀ r, (u.seat k).vec r = x.vec r) ∧ (∀ r, (u.seat k).msk r = x.msk r)
      ∧ (u.seat k).core = x.core ∧ (u.seat k).loaded = x.loaded ∧ (u.seat k).exited = x.exited
    let sameVl (y : Seat) : Prop := y.sc.vl = x.sc.vl ∧ y.sc.vtype = x.sc.vtype
    let samePhase (y : Seat) : Prop := y.sc.phaseId = x.sc.phaseId ∧ y.sc.phaseEn = x.sc.phaseEn
    let vt : Byte := f.up.truncate 8
    (s.canIssue t i f { form := .imm, d := .s, a := .s, ok := f.up.toNat / 256 == 0 && vtOk vt } = true →
      let vl := min (x.s f.a.toNat).toNat (1024 / codeWidth (vt.toNat % 32))
      ∃ u, exec (.setvl t i f) s = .next u ∧ kept u ∧ samePhase (u.seat k) ∧ (u.seat k).sc.flags = x.sc.flags
        ∧ (u.seat k).sc.vtype = vt ∧ (u.seat k).sc.vl = vl ∧ (u.seat k).s f.d.toNat = BitVec.ofNat 64 vl
        ∧ ∀ r, r ≠ f.d.toNat → (u.seat k).s r = x.s r)
    ∧ (s.canIssue t i f { form := .imm, ok := f.up.toNat / 32 == 0 } = true →
      ∃ u, exec (.phase t i f) s = .next u ∧ kept u ∧ sameVl (u.seat k) ∧ (u.seat k).sc.flags = x.sc.flags
        ∧ (u.seat k).sc.phaseId = f.up.toNat % 16 ∧ (u.seat k).sc.phaseEn = f.up.getLsbD 4
        ∧ ∀ r, (u.seat k).s r = x.s r)
    ∧ (s.canIssue t i f { form := .reg, a := .s } = true → s.flagsSettled k = true →
      let v := x.s f.a.toNat
      ∃ u, exec (.swrf t i f) s = .next u ∧ kept u ∧ sameVl (u.seat k) ∧ samePhase (u.seat k)
        ∧ (u.seat k).sc.flags = ⟨v.getLsbD 0, v.getLsbD 1, v.getLsbD 2, v.getLsbD 3, v.getLsbD 4⟩
        ∧ ∀ r, (u.seat k).s r = x.s r)
    ∧ (s.canIssue t i f { form := .reg } = true →
      ∃ u, exec (.nop t i f) s = .next u ∧ NoResult k x.nextPc s u)

/-! ### Vector instructions (R212 to R221) -/

/-- VADD, VSUB, VMUL, VMULH, VMIN, VMAX and VMAC write va op vb (+ vc) modulo 2^width to the active elements; VIREDSUM writes
the wrapping sum of the active elements to element 0; VCMP writes a predicate to a mask (R208, R215). -/
def Claims.VectorIntegers : Prop :=
  ∀ (s : State) (t : Tower) (i : Nat) (f : Fields),
    let k := thrKey t.val i
    let x := s.seat k
    let a := x.int f.a.toNat
    let b := x.int f.b.toNat
    let c := x.int f.c.toNat
    let gives (ins : Tower → Nat → Fields → Instr) (v : Nat → Int) : Prop :=
      ∃ u, exec (ins t i f) s = .next u
        ∧ VectorResult k f x.w (x.ifActive f fun j => (v j % 2 ^ x.w).toNat) FFlags.none s u
    (s.canIssue t i f (formVab (vtIntOp x)) = true →
      gives .vadd (fun j => a j + b j) ∧ gives .vsub (fun j => a j - b j) ∧ gives .vmul (fun j => a j * b j)
      ∧ gives .vmulh (fun j => a j * b j / 2 ^ x.w)
      ∧ gives .vmin (fun j => min (a j) (b j)) ∧ gives .vmax (fun j => max (a j) (b j)))
    ∧ (s.canIssue t i f (formVabc (vtIntOp x)) = true → gives .vmac (fun j => a j * b j + c j))
    ∧ (s.canIssue t i f { formVa (vtIntOp x) with elementwise := false } = true →
        let sum := (((List.range x.sc.vl).filter (x.active f)).map a).sum
        ∃ u, exec (.viredsum t i f) s = .next u
          ∧ VectorResult k f x.w (fun j => if j = 0 then some (sum % 2 ^ x.w).toNat else none) FFlags.none s u)
    ∧ (s.canIssue t i f { formVab (vtIntOp x && f.fn ≤ 5) with d := .m, fn := true } = true →
        ∃ u, exec (.vcmp t i f) s = .next u
          ∧ MaskResult k f (x.ifActive f fun j => holdsPred f.fn (a j) (b j)) FFlags.none s u)

/-- VQADD, VQSUB, VQMUL, VQMAC, VQMULSHR, VQSHL, VQABS and VQNEG compute exactly and saturate once to ±(2^(width − 1) − 1), or to
0 and 2^width − 1 for an unsigned vtype; the saturated flag is set where a result was cut (R192, R219). -/
def Claims.VectorSaturating : Prop :=
  ∀ (s : State) (t : Tower) (i : Nat) (f : Fields),
    let k := thrKey t.val i
    let x := s.seat k
    let a := x.int f.a.toNat
    let b := x.int f.b.toNat
    let c := x.int f.c.toNat
    let unsigned := vtUnsigned x.sc.vtype
    let ok := vtIntOp x && s.slotB t i == 1
    let gives (ins : Tower → Nat → Fields → Instr) (v : Nat → Int) : Prop :=
      ∃ u, exec (ins t i f) s = .next u
        ∧ VectorResult k f x.w (x.ifActive f fun j => (satTo unsigned x.w (v j) % 2 ^ x.w).toNat)
          (x.conditions f fun j => { FFlags.none with saturated := satTo unsigned x.w (v j) != v j }) s u
    (s.canIssue t i f (formVab ok) = true →
      gives .vqadd (fun j => a j + b j) ∧ gives .vqsub (fun j => a j - b j) ∧ gives .vqmul (fun j => a j * b j)
      ∧ gives .vqshl (fun j => a j * 2 ^ (b j % (x.w : Int)).toNat))
    ∧ (s.canIssue t i f (formVabc ok) = true → gives .vqmac (fun j => a j * b j + c j))
    ∧ (s.canIssue t i f { formVab (vtIntOp x && s.slotB t i == 1 && f.fn < x.w) with fn := true } = true →
        gives .vqmulshr (fun j => roundShift (a j * b j) f.fn))
    ∧ (s.canIssue t i f (formVa ok) = true → gives .vqabs (fun j => ((a j).natAbs : Int)) ∧ gives .vqneg (fun j => -(a j)))

/-- VQMULSHR's rounding: roundShift v n is an integer nearest to v / 2^n, and the even one of two that are equally near
(R219). -/
def Claims.RoundShiftIsNearest : Prop :=
  ∀ (v : Int) (n : Nat),
    let r := roundShift v n
    2 * (v - r * 2 ^ n) ≤ 2 ^ n ∧ 2 * (r * 2 ^ n - v) ≤ 2 ^ n
    ∧ (2 * (v - r * 2 ^ n) = 2 ^ n ∨ 2 * (r * 2 ^ n - v) = 2 ^ n → r % 2 = 0)

/-- The floating-point arithmetic: VFADD, VFSUB, VFMUL, VFDIV, VFMIN, VFMAX, VFMA, VFNMA, VFSQRT, VFEXP2 and VFLOG2 write one
rounding of the exact result of the active elements and OR its conditions into the flags (R212, R213, R218). Which of the
results within one unit in the last place VFEXP2 and VFLOG2 give is free (log entry 3). -/
def Claims.VectorFloats : Prop :=
  ∀ (s : State) (t : Tower) (i : Nat) (f : Fields),
    let k := thrKey t.val i
    let x := s.seat k
    let ff := vtLayout x
    let a := x.fp ff f.a.toNat
    let b := x.fp ff f.b.toNat
    let c := x.fp ff f.c.toNat
    let code := vtCode x.sc.vtype
    let gives (ins : Tower → Nat → Fields → Instr) (r : Nat → Conv) : Prop :=
      ∃ u, exec (ins t i f) s = .next u
        ∧ VectorResult k f x.w (x.ifActive f fun j => (r j).code) (x.conditions f fun j => (r j).flags) s u
    (s.canIssue t i f (formVab (vtFp x)) = true →
      gives .vfadd (fun j => fpAdd ff (a j) (b j)) ∧ gives .vfsub (fun j => fpAdd ff (a j) (b j).neg)
      ∧ gives .vfmul (fun j => fpMul ff (a j) (b j)) ∧ gives .vfdiv (fun j => fpDiv ff (a j) (b j))
      ∧ gives .vfmin (fun j => ff.encode .nearest ((a j).minimum (b j)))
      ∧ gives .vfmax (fun j => ff.encode .nearest ((a j).maximum (b j))))
    ∧ (s.canIssue t i f (formVabc (vtFp x)) = true →
        gives .vfma (fun j => fpFma ff (a j) (b j) (c j)) ∧ gives .vfnma (fun j => fpFma ff (a j).neg (b j) (c j)))
    ∧ (s.canIssue t i f (formVa (vtFp x)) = true →
        gives .vfsqrt (fun j => fpSqrt ff (a j))
        ∧ gives .vfexp2 (fun j => fpExp2 ff (Config.exp2Pick code (x.elem f.a.toNat x.w j)) (a j))
        ∧ gives .vflog2 (fun j => fpLog2 ff (Config.log2Pick code (x.elem f.a.toNat x.w j)) (a j)))

/-- VFCMP writes its predicate to a mask, false of a NaN but for NE and UNORD, and invalid is set where an ordering predicate
meets a NaN (R213); VFREDSUM writes the sum of the active elements over the fixed tree of R214 to element 0, +0 when none is
active, and VFREDMAX their maximum, −infinity when none is. -/
def Claims.FloatComparesAndReductions : Prop :=
  ∀ (s : State) (t : Tower) (i : Nat) (f : Fields),
    let k := thrKey t.val i
    let x := s.seat k
    let ff := vtLayout x
    let a := x.fp ff f.a.toNat
    let b := x.fp ff f.b.toNat
    let p := f.fn % 8
    (s.canIssue t i f { formVab (vtFp x && f.fn / 8 == 0) with d := .m, fn := true } = true →
      ∃ u sel, exec (.vfcmp t i f) s = .next u
        ∧ MaskResult k f (x.ifActive f sel)
          (x.conditions f fun j => { FFlags.none with invalid := 2 ≤ p && p ≤ 5 && ((a j).cmp (b j)).isNone }) s u
        ∧ (∀ j, (a j).cmp (b j) = none → sel j = (p == 1 || p == 6))
        ∧ (∀ j o, (a j).cmp (b j) = some o → sel j = match p with
            | 0 => o == .eq | 1 => o != .eq | 2 => o == .lt | 3 => o != .gt | 4 => o == .gt | 5 => o != .lt
            | 6 => false | _ => true))
    ∧ (s.canIssue t i f { formVa (vtFp x) with elementwise := false } = true →
        let leaves := (List.range (vlmax x.w)).map (x.ifActive f (x.elem f.a.toNat x.w))
        let root := treeSum ff 6 leaves FFlags.none
        let top := ((List.range x.sc.vl).filter (x.active f)).foldl (fun m j => m.maximum (a j)) (FVal.inf true)
        (∃ u, exec (.vfredsum t i f) s = .next u
          ∧ VectorResult k f x.w (fun j => if j = 0 then some ((root.1.head?.getD none).getD 0) else none)
            (if x.sc.vl = 0 then FFlags.none else root.2) s u)
        ∧ ∃ u, exec (.vfredmax t i f) s = .next u
          ∧ VectorResult k f x.w (fun j => if j = 0 then some (ff.encode .nearest top).code else none) FFlags.none s u)

/-- Every code of every floating-point format that is no NaN converts back to itself, with no condition (R57, R58, R60). -/
def Claims.FormatsRoundTrip : Prop :=
  ∀ ff ∈ [ffFp32, ffFp16, ffBf16, ffE4m3, ffE5m2, ffE3m2, ffE2m3, ffE2m1],
    ∀ code, code < 2 ^ (1 + ff.eb + ff.mb) → ff.decode code ≠ .nan →
      ff.encode .nearest (ff.decode code) = { code := code }

/-- VCVT, VCVTS and VCVTFMX convert each active element, exactly scaled by 2^e of sb[8:0] or by the element's block scale, to
the type fn[5:0] with one rounding; VCVTMX converts blocks of 32 elements to MX elements in vd and their scale bytes in vc
(R209, R216, R217, R218). Where vd and vc are one register its bytes are free (log entry 15). -/
def Claims.VectorConversions : Prop :=
  ∀ (s : State) (t : Tower) (i : Nat) (f : Fields),
    let k := thrKey t.val i
    let x := s.seat k
    let dw := codeWidth (f.fn % 32)
    let to_ := convTo (f.fn % 32) (f.fn / 32 % 2 == 1)
    let sh : Shape := { form := .reg, d := .v (groupOf dw x.w), a := .v (groupOf x.w dw), z := true, mu := true, fn := true,
                        ok := s.slotB t i == 0 && dstOk f && vtOk x.sc.vtype }
    let gives (ins : Tower → Nat → Fields → Instr) (v : Nat → FVal) : Prop :=
      ∃ u, exec (ins t i f) s = .next u
        ∧ VectorResult k f dw (x.ifActive f fun j => (to_ (v j)).1) (x.conditions f fun j => (to_ (v j)).2) s u
    (s.canIssue t i f sh = true → gives .vcvt (x.cvtSrc f))
    ∧ (s.canIssue t i f { sh with b := .s } = true →
        gives .vcvts fun j => (x.cvtSrc f j).scale (untwos 9 (x.s f.b.toNat).toNat))
    ∧ (s.canIssue t i f
          { sh with
            b := .v 1
            ok := s.slotB t i == 0 && dstOk f && vtOk x.sc.vtype
              && !overlapBad false (.v (groupOf dw x.w)) f.d.toNat (.v 1) f.b.toNat } = true →
        let e (j : Nat) : Nat := x.elem f.b.toNat 8 (j / 32)
        gives .vcvtfmx fun j => if e j = 0xFF then .nan else (x.cvtSrc f j).scale ((e j : Int) - 127))
    ∧ (∀ fmt, mxOf (f.fn % 32) = some fmt →
        s.canIssue t i f
          { sh with
            c := .v 1, mu := false
            ok := s.slotB t i == 0 && dstOk f && vtFp x && x.sc.vl % 32 == 0
              && !overlapBad false (.v 1) f.c.toNat (.v (groupOf x.w dw)) f.a.toNat } = true →
        let block (b : Nat) : Nat × List Conv := mxEncode fmt ((List.range 32).map fun e => x.cvtSrc f (32 * b + e))
        let vl := x.sc.vl
        (f.c = f.d → ∃ u, exec (.vcvtmx t i f) s = .next u ∧ u = s.free.2.setSeat k (u.seat k) ∧ SameModes x (u.seat k)
          ∧ (u.seat k).sc.pc = x.nextPc ∧ ∀ r, r ≠ f.d.toNat → (u.seat k).vec r = x.vec r)
        ∧ (f.c ≠ f.d → ∃ u, exec (.vcvtmx t i f) s = .next u ∧ OnlySeat k s u ∧ SameModes x (u.seat k) ∧ (u.seat k).sc.pc = x.nextPc
          ∧ (∀ b, b < vl / 32 → (u.seat k).elem f.c.toNat 8 b = (block b).1 % 256)
          ∧ (∀ e r, e < vl → (∀ b, b < vl / 32 → f.d.toNat + e / (1024 / dw) ≠ f.c.toNat + b / 128) →
              (block (e / 32)).2[e % 32]? = some r → (u.seat k).elem f.d.toNat dw e = r.code % 2 ^ dw)
          ∧ (∀ r, (∀ e, e < vl → r ≠ f.d.toNat + e / (1024 / dw)) → (∀ b, b < vl / 32 → r ≠ f.c.toNat + b / 128) →
              (u.seat k).vec r = x.vec r)
          ∧ (∀ r, (u.seat k).s r = x.s r) ∧ (∀ r, (u.seat k).msk r = x.msk r)
          ∧ (u.seat k).sc.flags = x.sc.flags.or (orAll vl fun e => ((block (e / 32)).2[e % 32]?.map Conv.flags).getD FFlags.none)))

/-- VAND, VOR, VXOR, VSHL, VSHR, VSHLI, VPERM, VBCAST, VMERGE, VFSGN and VMOV work on bit patterns, element by element (R220). That
VFSGN takes the top bit of an integer element as its sign is the model's choice (log entry 11). -/
def Claims.VectorLogic : Prop :=
  ∀ (s : State) (t : Tower) (i : Nat) (f : Fields),
    let k := thrKey t.val i
    let x := s.seat k
    let a := x.elem f.a.toNat x.w
    let b := x.elem f.b.toNat x.w
    let ok := vtOk x.sc.vtype
    let signed := codeInt (vtCode x.sc.vtype) && !vtUnsigned x.sc.vtype
    let float := codeFloat (vtCode x.sc.vtype)
    let sign := (float.map fun ff => ff.eb + ff.mb).getD (x.w - 1)
    let gives (ins : Tower → Nat → Fields → Instr) (v : Nat → Nat) : Prop :=
      ∃ u, exec (ins t i f) s = .next u ∧ VectorResult k f x.w (x.ifActive f v) FFlags.none s u
    (s.canIssue t i f (formVab ok) = true →
      gives .vand (fun j => a j &&& b j) ∧ gives .vor (fun j => a j ||| b j) ∧ gives .vxor (fun j => a j ^^^ b j)
      ∧ gives .vshl (fun j => a j * 2 ^ (b j % x.w))
      ∧ gives .vshr (fun j => if signed then (untwos x.w (a j) / 2 ^ (b j % x.w) % 2 ^ x.w).toNat else a j / 2 ^ (b j % x.w)))
    ∧ (s.canIssue t i f { formVab ok with elementwise := false } = true →
        gives .vperm (fun j => if b j < x.sc.vl then a (b j) else 0))
    ∧ (s.canIssue t i f (formVab (ok && f.mu)) = true →
        ∃ u, exec (.vmerge t i f) s = .next u
          ∧ VectorResult k f x.w
            (fun j => some (if (x.msk f.mask.toNat).getLsbD j then b j else a j)) FFlags.none s u)
    ∧ (s.canIssue t i f { formVa (ok && f.fn < x.w) with fn := true } = true → gives .vshli (fun j => a j * 2 ^ f.fn))
    ∧ (s.canIssue t i f { formVa ok with a := .s } = true → gives .vbcast (fun _ => (x.s f.a.toNat).toNat))
    ∧ (s.canIssue t i f (formVa ok) = true → gives .vmov a)
    ∧ (s.canIssue t i f
          { formVa (ok && f.fn ≤ 2) with
            b := if f.fn == 2 then .v 1 else .none, fn := true } = true →
        gives .vfsgn (fun j => if float.any (fun ff => ff.decode (a j) == .nan) then a j
          else withBit (a j) sign
            (if f.fn = 0 then false else if f.fn = 1 then !(a j).testBit sign else (b j).testBit sign)))

/-- VEXT reads one element into sd, 0 at or above vl, and with vl 0 changes no register (R190); VINS writes one below vl and has no
effect otherwise; VSLUP and VSLDN move elements up and down by sb, and
write no element that has no source below vl (R220). -/
def Claims.VectorMoves : Prop :=
  ∀ (s : State) (t : Tower) (i : Nat) (f : Fields),
    let k := thrKey t.val i
    let x := s.seat k
    let a := x.elem f.a.toNat x.w
    let n := (x.s f.b.toNat).toNat
    let ok := vtOk x.sc.vtype
    let gives (ins : Tower → Nat → Fields → Instr) (sel : Nat → Option Nat) : Prop :=
      ∃ u, exec (ins t i f) s = .next u ∧ VectorResult k f x.w sel FFlags.none s u
    (s.canIssue t i f { form := .reg, d := .s, a := .v 1, b := .s, ok := ok } = true →
      ∃ u, exec (.vext t i f) s = .next u
        ∧ (x.sc.vl = 0 → NoResult k x.nextPc s u)
        ∧ (x.sc.vl ≠ 0 →
            ScalarResult k f.d.toNat x.nextPc (BitVec.ofNat 64 (if n < x.sc.vl then a n else 0)) s u))
    ∧ (s.canIssue t i f { form := .reg, d := .v 1, a := .s, b := .s, z := true, ok := ok } = true →
        (n < x.sc.vl → gives .vins (fun j => if j = n then some (x.s f.a.toNat).toNat else none))
        ∧ (x.sc.vl ≤ n → ∃ u, exec (.vins t i f) s = .next u ∧ NoResult k x.nextPc s u))
    ∧ (s.canIssue t i f { formVa ok with b := .s, elementwise := false } = true →
        gives .vslup (fun j => if x.active f j = true ∧ n ≤ j then some (a (j - n)) else none)
        ∧ gives .vsldn (fun j => if x.active f j = true ∧ j + n < x.sc.vl then some (a (j + n)) else none))

/-- MAND, MOR, MXOR, MANDN, MNOT, MSET and MCLR write the mask bits below vl; MPOPC and MFIRST count and find the 1 bits below
vl and MTOS moves 64 bits to sd, which with vl 0 keeps its value; MFROMS moves 64 bits whatever vl is (R190, R221). -/
def Claims.MaskInstructions : Prop :=
  ∀ (s : State) (t : Tower) (i : Nat) (f : Fields),
    let k := thrKey t.val i
    let x := s.seat k
    let a (j : Nat) : Bool := (x.msk f.a.toNat).getLsbD j
    let b (j : Nat) : Bool := (x.msk f.b.toNat).getLsbD j
    let d (j : Nat) : Bool := (x.msk f.d.toNat).getLsbD j
    let sh : Shape := { form := .reg, d := .m }
    let toScalar (v : DWord) (u : State) : Prop :=
      (x.sc.vl = 0 → NoResult k x.nextPc s u) ∧ (x.sc.vl ≠ 0 → ScalarResult k f.d.toNat x.nextPc v s u)
    let gives (ins : Tower → Nat → Fields → Instr) (v : Nat → Bool) : Prop :=
      ∃ u, exec (ins t i f) s = .next u ∧ MaskResult k f (fun j => some (v j)) FFlags.none s u
    (s.canIssue t i f { sh with a := .m, b := .m } = true →
      gives .mand (fun j => a j && b j) ∧ gives .mor (fun j => a j || b j) ∧ gives .mxor (fun j => a j ^^ b j)
      ∧ gives .mandn (fun j => a j && !b j))
    ∧ (s.canIssue t i f { sh with a := .m } = true → gives .mnot (fun j => !a j))
    ∧ (s.canIssue t i f sh = true → gives .mset (fun _ => true) ∧ gives .mclr (fun _ => false))
    ∧ (s.canIssue t i f { form := .reg, d := .s, a := .m } = true →
        (∃ u, exec (.mpopc t i f) s = .next u ∧ toScalar (BitVec.ofNat 64 ((List.range x.sc.vl).countP a)) u)
        ∧ ∃ u v, exec (.mfirst t i f) s = .next u ∧ toScalar v u
          ∧ ((∀ j, j < x.sc.vl → a j = false) → v = BitVec.allOnes 64)
          ∧ ∀ j, j < x.sc.vl → a j = true → (∀ l, l < j → a l = false) → v = BitVec.ofNat 64 j)
    ∧ (s.canIssue t i f { form := .reg, d := .s, a := .m, fn := true, ok := f.fn ≤ 3 } = true →
        ∃ u, exec (.mtos t i f) s = .next u ∧ toScalar ((x.msk f.a.toNat).extractLsb' (64 * f.fn) 64) u)
    ∧ (s.canIssue t i f { sh with a := .s, fn := true, ok := f.fn ≤ 3 } = true →
        ∃ u, exec (.mfroms t i f) s = .next u ∧ OnlySeat k s u ∧ SameModes x (u.seat k) ∧ (u.seat k).sc.pc = x.nextPc
          ∧ (∀ j, j < 256 → ((u.seat k).msk f.d.toNat).getLsbD j
              = if 64 * f.fn ≤ j ∧ j < 64 * f.fn + 64 then (x.s f.a.toNat).getLsbD (j - 64 * f.fn) else d j)
          ∧ (∀ r, r ≠ f.d.toNat → (u.seat k).msk r = x.msk r) ∧ (∀ r, (u.seat k).vec r = x.vec r)
          ∧ (∀ r, (u.seat k).s r = x.s r) ∧ (u.seat k).sc.flags = x.sc.flags)

/-- VCOMPRESS packs the elements of va at the 1 bits of mb below vl into the low elements of vd; VEXPAND spreads the low
elements of va to those bits (R221). -/
def Claims.CompressExpand : Prop :=
  ∀ (s : State) (t : Tower) (i : Nat) (f : Fields),
    let k := thrKey t.val i
    let x := s.seat k
    let a := x.elem f.a.toNat x.w
    let ones := (List.range x.sc.vl).filter fun j => (x.msk f.b.toNat).getLsbD j
    s.canIssue t i f
      { form := .reg, d := .v 1, a := .v 1, b := .m, z := true, elementwise := false, ok := vtOk x.sc.vtype } = true →
    (∃ u, exec (.vcompress t i f) s = .next u
      ∧ VectorResult k f x.w (fun j => ones[j]?.map a) FFlags.none s u)
    ∧ ∃ u sel, exec (.vexpand t i f) s = .next u ∧ VectorResult k f x.w sel FFlags.none s u
      ∧ (∀ j, (x.msk f.b.toNat).getLsbD j = false → sel j = none)
      ∧ ∀ n j, ones[n]? = some j → sel j = some (a n)

/-! ### Memory instructions and accesses in flight (R194 to R199, R222 to R225) -/

/-- Which addresses a memory instruction may name (R28, R222, R225): at or above 2^48 and outside the allowed regions is
ADDRESS_FAULT (3), a misaligned address MISALIGNED (2), or ADDRESS_FAULT in register space, in this order; HBM, scratch and queue
memory take every access, the context store and the accumulator windows loads alone, register space 32-bit loads and stores alone. -/
def Claims.AddressChecks : Prop :=
  ∀ (l : Sampled) (c a n al : Nat) (k : AccessClass) (word : Bool),
    (2 ^ 48 ≤ a → l.accessCause c a n al k word = some 3)
    ∧ (a < 2 ^ 48 → a % al ≠ 0 → ¬(0x030000000000 ≤ a ∧ a < 0x030100000000) → l.accessCause c a n al k word = some 2)
    ∧ (0x030000000000 ≤ a → a < 0x030100000000 → a % al ≠ 0 → l.accessCause c a n al k word = some 3)
    ∧ (a < 2 ^ 48 → a % al = 0 → regionAllows a k word = false → l.accessCause c a n al k word = some 3)
    ∧ (l.accessCause c a n al k word = none ↔ a < 2 ^ 48 ∧ a % al = 0 ∧ regionAllows a k word = true
        ∧ (word = false → regionAllows (a + n - 1) k false = true) ∧ l.threadOk c a n k = true)
    ∧ (a < 0x018000000000 → regionAllows a k word = true)
    ∧ (0x018000000000 ≤ a ∧ a < 0x020000000000 ∨ 0x020080000000 ≤ a ∧ a < 0x028000000000
        ∨ 0x028010000000 ≤ a ∧ a < 0x030000000000 ∨ 0x030100000000 ≤ a → regionAllows a k word = false)
    ∧ (0x020000000000 ≤ a → a < 0x020080000000 →
        regionAllows a k word = (a % 0x10000000 < 0xC000000 || 0xF000000 ≤ a % 0x10000000 || k == .load))
    ∧ (0x028000000000 ≤ a → a < 0x028010000000 → regionAllows a k word = (k == .load))
    ∧ (0x030000000000 ≤ a → a < 0x030100000000 → regionAllows a k word = (k != .atomic && word && (regAt a).isSome))

/-- LDS, VLD, VLDS and VGATHER put one load per active element in flight, each for the bytes its form names, and go on; under
zeroing the inactive elements below vl become 0 at once, and no other register changes before the data return (R172, R208, R222,
R223). -/
def Claims.LoadsIssue : Prop :=
  ∀ (s : State) (t : Tower) (i : Nat) (f : Fields) (tag : Word),
    let k := thrKey t.val i
    let x := s.seat k
    let ctx := (s.trec k).ctx
    let base := (x.s f.a.toNat + f.off).toNat
    let eb := codeBits (vtCode x.sc.vtype)
    let ld : Acc := { (default : Acc) with kind := .load, pc := x.sc.pc, tag := tag }
    let okAt (a n al : Nat) : Prop := x.sampled.accessCause ctx a n al .load false = none
    let vecs (u : State) : Prop := (f.z = false → ∀ r, (u.seat k).vec r = x.vec r)
      ∧ (f.z = true → ∀ j, (u.seat k).elem f.d.toNat x.w j
          = if j < x.sc.vl ∧ x.active f j = false then 0 else x.elem f.d.toNat x.w j)
      ∧ ∀ r, (∀ j, j < x.sc.vl → r ≠ f.d.toNat + j / (1024 / x.w)) → (u.seat k).vec r = x.vec r
    let sh : Shape := { form := .mem, d := .v 1, a := .s, z := true, mu := true }
    (s.canIssue t i f { form := .mem, d := .s, a := .s, ok := f.ord ≤ 1 } = true →
      x.sampled.accessCause ctx base (2 ^ f.sz) (2 ^ f.sz) .load (f.sz == 2) = none →
      ∃ u, exec (.lds t i f tag) s = .next u ∧ (∀ r, (u.seat k).vec r = x.vec r)
        ∧ Issued k [{ ld with
            addr := base, bits := 8 * 2 ^ f.sz, dst := .scalar f.d.toNat f.sgn, sgn := f.sgn, acquire := f.ord == 1
            data := (x.s f.b.toNat).toNat % 2 ^ (8 * 2 ^ f.sz), cmp := (x.s f.c.toNat).toNat % 2 ^ (8 * 2 ^ f.sz)
            lantern := s.lanternView ctx base tag }] s u)
    ∧ (s.canIssue t i f { sh with ok := vtOk x.sc.vtype && vecMemOk f } = true → (x.sc.vl = 0 ∨ base < 2 ^ 48) →
        (∀ j, x.active f j = true → okAt (base + j * eb / 8) ((j * eb % 8 + eb + 7) / 8) (if eb = 16 ∨ eb = 32 then eb / 8 else 1)) →
        ∃ u, exec (.vld t i f tag) s = .next u ∧ vecs u
          ∧ Issued k ((x.actives f).map fun j => { ld with
              addr := base + j * eb / 8, shift := j * eb % 8, bits := eb, dst := .vec f.d.toNat j x.w
              lantern := s.lanternView ctx (base + j * eb / 8) tag }) s u)
    ∧ (s.canIssue t i f { sh with b := .s, ok := vtOk x.sc.vtype && vtWhole x && vecMemOk f } = true → (x.sc.vl = 0 ∨ base < 2 ^ 48) →
        let at_ (j : Nat) : Nat := (BitVec.ofInt 64 (base + j * (x.s f.b.toNat).toInt)).toNat
        (∀ j, x.active f j = true → okAt (at_ j) (x.w / 8) (x.w / 8)) →
        ∃ u, exec (.vlds t i f tag) s = .next u ∧ vecs u
          ∧ Issued k ((x.actives f).map fun j => { ld with
              addr := at_ j, bits := x.w, dst := .vec f.d.toNat j x.w, lantern := s.lanternView ctx (at_ j) tag }) s u)
    ∧ (s.canIssue t i f { sh with b := .v (32 / x.w), ok := vtOk x.sc.vtype && vtWhole x && vecMemOk f } = true → (x.sc.vl = 0 ∨ base < 2 ^ 48) →
        let at_ (j : Nat) : Nat := base + x.elem f.b.toNat 32 j
        (∀ j, x.active f j = true → okAt (at_ j) (x.w / 8) (x.w / 8)) →
        ∃ u, exec (.vgather t i f tag) s = .next u ∧ vecs u
          ∧ Issued k ((x.actives f).map fun j => { ld with
              addr := at_ j, bits := x.w, dst := .vec f.d.toNat j x.w, lantern := s.lanternView ctx (at_ j) tag }) s u)

/-- STS, VST, VSTS, VSCATTER and VAMOADD put one store per active element in flight, with the address and the value of its form,
and go on; no register and no byte changes before it is performed (R194, R222, R223, R224). -/
def Claims.StoresIssue : Prop :=
  ∀ (s : State) (t : Tower) (i : Nat) (f : Fields),
    let k := thrKey t.val i
    let x := s.seat k
    let ctx := (s.trec k).ctx
    let base := (x.s f.a.toNat + f.off).toNat
    let eb := codeBits (vtCode x.sc.vtype)
    let st : Acc := { (default : Acc) with kind := .store, pc := x.sc.pc }
    let elem (a : Acc) (j : Nat) : Acc :=
      { a with data := x.elem f.b.toNat x.w j % 2 ^ a.bits, float := vtCode x.sc.vtype == 0 }
    let gives (ins : Tower → Nat → Fields → Instr) (l : List Acc) : Prop :=
      ∃ u, exec (ins t i f) s = .next u ∧ Issued k l s u ∧ ∀ r, (u.seat k).vec r = x.vec r
    let okAt (k : AccessClass) (a n al : Nat) : Prop := x.sampled.accessCause ctx a n al k false = none
    let sh : Shape := { form := .mem, a := .s, b := .v 1, mu := true }
    (s.canIssue t i f { form := .mem, a := .s, b := .s, ok := f.ord % 2 == 0 && !f.sgn } = true →
      x.sampled.accessCause ctx base (2 ^ f.sz) (2 ^ f.sz) .store (f.sz == 2) = none →
      gives .sts [{ st with
        addr := base, bits := 8 * 2 ^ f.sz, data := (x.s f.b.toNat).toNat % 2 ^ (8 * 2 ^ f.sz), release := f.ord == 2
        cmp := (x.s f.c.toNat).toNat % 2 ^ (8 * 2 ^ f.sz) }])
    ∧ (s.canIssue t i f { sh with ok := vtOk x.sc.vtype && vecMemOk f } = true → (x.sc.vl = 0 ∨ base < 2 ^ 48) →
        (∀ j, x.active f j = true →
          okAt .store (base + j * eb / 8) ((j * eb % 8 + eb + 7) / 8) (if eb = 16 ∨ eb = 32 then eb / 8 else 1)) →
        gives .vst ((x.actives f).map fun j => elem { st with addr := base + j * eb / 8, shift := j * eb % 8, bits := eb } j))
    ∧ (s.canIssue t i f { sh with c := .s, ok := vtOk x.sc.vtype && vtWhole x && vecMemOk f } = true → (x.sc.vl = 0 ∨ base < 2 ^ 48) →
        let at_ (j : Nat) : Nat := (BitVec.ofInt 64 (base + j * (x.s f.c.toNat).toInt)).toNat
        (∀ j, x.active f j = true → okAt .store (at_ j) (x.w / 8) (x.w / 8)) →
        gives .vsts ((x.actives f).map fun j => elem { st with addr := at_ j, bits := x.w } j))
    ∧ (s.canIssue t i f { sh with c := .v (32 / x.w), ok := vtOk x.sc.vtype && vtWhole x && vecMemOk f } = true →
        (x.sc.vl = 0 ∨ base < 2 ^ 48) → (∀ j, x.active f j = true → okAt .store (base + x.elem f.c.toNat 32 j) (x.w / 8) (x.w / 8)) →
        gives .vscatter ((x.actives f).map fun j => elem { st with addr := base + x.elem f.c.toNat 32 j, bits := x.w } j))
    ∧ (s.canIssue t i f
          { sh with
            c := .v 1
            ok := (vtCode x.sc.vtype == 0x10 || vtCode x.sc.vtype == 0) && vtOk x.sc.vtype && f.sz == 0 && !f.sgn } = true →
        (x.sc.vl = 0 ∨ base < 2 ^ 48) → (∀ j, x.active f j = true → okAt .atomic (base + x.elem f.c.toNat 32 j) 4 4) →
        gives .vamoadd ((x.actives f).map fun j =>
          elem { st with
            kind := .vamoAdd, addr := base + x.elem f.c.toNat 32 j, bits := 32, acquire := f.ord % 2 == 1
            release := 2 ≤ f.ord } j))

/-- The scalar atomics put one atomic access of 32 or 64 bits in flight, with the value of sb and for AMOCAS the comparand sc,
whose old value will return to sd (R223); AMOFADD is 32 bits wide. -/
def Claims.AtomicsIssue : Prop :=
  ∀ (s : State) (t : Tower) (i : Nat) (f : Fields),
    let k := thrKey t.val i
    let x := s.seat k
    let base := (x.s f.a.toNat + f.off).toNat
    let w := 8 * 2 ^ f.sz
    let sh (ok : Bool) : Shape := { form := .mem, d := .s, a := .s, b := .s, ok := ok }
    let gives (ins : Tower → Nat → Fields → Instr) (kind : AccKind) : Prop :=
      ∃ u, exec (ins t i f) s = .next u ∧ (∀ r, (u.seat k).vec r = x.vec r)
        ∧ Issued k [{ (default : Acc) with
            kind := kind, pc := x.sc.pc, addr := base, bits := w, data := (x.s f.b.toNat).toNat % 2 ^ w
            cmp := (x.s f.c.toNat).toNat % 2 ^ w, sgn := f.sgn, dst := .scalar f.d.toNat false
            acquire := f.ord % 2 == 1, release := 2 ≤ f.ord }] s u
    x.sampled.accessCause (s.trec k).ctx base (2 ^ f.sz) (2 ^ f.sz) .atomic false = none →
    (s.canIssue t i f (sh (2 ≤ f.sz && !f.sgn)) = true →
      gives .amoadd .amoAdd ∧ gives .amoswap .amoSwap ∧ gives .amoand .amoAnd ∧ gives .amoor .amoOr)
    ∧ (s.canIssue t i f (sh (2 ≤ f.sz)) = true → gives .amomin .amoMin ∧ gives .amomax .amoMax)
    ∧ (s.canIssue t i f { sh (2 ≤ f.sz && !f.sgn) with c := .s } = true → gives .amocas .amoCas)
    ∧ (s.canIssue t i f (sh (f.sz == 2 && !f.sgn)) = true → gives .amofadd .amoFadd)

/-- An access may be performed once no earlier access of its thread touches its bytes, none that is an acquire is outstanding,
and, for a release, none is outstanding at all (R194, R195). -/
def Claims.AccessOrder : Prop :=
  ∀ (l : List Acc) (n : Nat) (a : Acc), l[n]? = some a →
    (orderOk l n = true ↔ ∀ m b, m < n → l[m]? = some b →
      (b.addr + b.len ≤ a.addr ∨ a.addr + a.len ≤ b.addr) ∧ b.acquire = false ∧ a.release = false)

/-- LOAD_COMPLETE of a load from HBM, scratch or queue memory writes the bits it names to its destination, extended as its form
says, takes it out of the list, and changes no byte of memory and no other register of the thread (R172, R223). -/
def Claims.LoadCompletes : Prop :=
  ∀ (s : State) (t : Tower) (i n : Nat) (a : Acc),
    let k := thrKey t.val i
    let x := s.seat k
    let v := s.num a.addr a.len / 2 ^ a.shift % 2 ^ a.bits
    MayPerform s k n a → PlainBytes a → a.kind = .load → a.stale = false →
    ∃ u, exec (.loadComplete t i n .clean) s = .next u ∧ u.accs k = (s.accs k).eraseIdx n
      ∧ (∀ b, u.byte b = s.byte b) ∧ (∀ r t i, u.reg r t i = s.reg r t i) ∧ (∀ j, j ≠ k → u.seat j = s.seat j)
      ∧ (u.seat k).sc.pc = x.sc.pc ∧ SameModes x (u.seat k) ∧ (u.seat k).sc.flags = x.sc.flags
      ∧ (∀ r, (u.seat k).msk r = x.msk r)
      ∧ (∀ r sg, a.dst = .scalar r sg →
          (u.seat k).s r = (if sg then BitVec.ofInt 64 (untwos a.bits v) else BitVec.ofNat 64 v)
          ∧ (∀ q, q ≠ r → (u.seat k).s q = x.s q) ∧ ∀ q, (u.seat k).vec q = x.vec q)
      ∧ (∀ r e w, a.dst = .vec r e w → w ∣ 1024 →
          (∀ j, (u.seat k).elem r w j = if j = e then v % 2 ^ w else x.elem r w j)
          ∧ (∀ q, q ≠ r + e / (1024 / w) → (u.seat k).vec q = x.vec q) ∧ ∀ q, (u.seat k).s q = x.s q)

/-- STORE_PERFORMED of a store to HBM, scratch or queue memory replaces the bits it names and no other bit of memory; every byte
outside it reads as before (the thread context store shows the records of the threads it wakes), and no register changes (R62,
R194, R223). -/
def Claims.StoreIsPerformed : Prop :=
  ∀ (s : State) (t : Tower) (i n : Nat) (a : Acc),
    let k := thrKey t.val i
    MayPerform s k n a → Unheld s a → PlainBytes a → a.kind = .store →
    ∃ u, exec (.storePerformed t i n .clean) s = .next u ∧ u.accs k = (s.accs k).eraseIdx n
      ∧ (∀ j, (u.num a.addr a.len).testBit j
          = if a.shift ≤ j ∧ j < a.shift + a.bits then a.data.testBit (j - a.shift) else (s.num a.addr a.len).testBit j)
      ∧ (∀ b, b < a.addr ∨ a.addr + a.len ≤ b → (∀ t, regionOf b ≠ .ctxStore t) → u.byte b = s.byte b)
      ∧ (∀ r t i, u.reg r t i = s.reg r t i) ∧ (∀ j, u.seat j = s.seat j) ∧ ∀ j, j ≠ k → u.accs j = s.accs j

/-- WATCH_MATCH: a performed store into drum SRAM wakes every thread parked in a WAIT on a word of a 64-byte line it touches
whose word differs now, with wake value 0, and no other thread (R181). -/
def Claims.StoresWakeWatchers : Prop :=
  ∀ (s : State) (a : Nat) (bs : List Byte) (j : Nat), inDrum a = true → bs ≠ [] → tblWf s.thr.recs = true →
    let u := s.store a bs
    let r := s.trec j
    let w := drumBase (keyTower j) + r.waitArg.toNat
    let watched := r.st = .parked ∧ r.reason = .wait ∧ a / 64 ≤ w / 64 ∧ w / 64 ≤ (a + bs.length - 1) / 64
      ∧ (s.putBytes a bs).word w ≠ r.waitVal.toNat
    (watched → (u.trec j) = { r with st := .ready, wakeValue := 0 } ∧ j ∈ u.thr.ready)
    ∧ (¬watched → u.trec j = r)

/-- Performing an atomic reads its word, leaves the new value of its kind there and nowhere else, returns the old value to sd, and ORs
the conditions of an FP32 sum into the flags; VAMOADD returns nothing (R199, R223, R224, R232). -/
def Claims.AtomicIsPerformed : Prop :=
  ∀ (s : State) (t : Tower) (i n : Nat) (a : Acc),
    let k := thrKey t.val i
    let old := s.num a.addr a.len
    let w := a.bits
    MayPerform s k n a → Unheld s a → PlainBytes a → a.shift = 0 → (w = 32 ∨ w = 64) → a.data < 2 ^ w → a.stale = false →
    s.ctxActive (s.trec k).ctx = true →
    let frame (u : State) : Prop := u.accs k = (s.accs k).eraseIdx n
      ∧ (∀ b, b < a.addr ∨ a.addr + a.len ≤ b → (∀ t, regionOf b ≠ .ctxStore t) → u.byte b = s.byte b)
      ∧ (∀ r t i, u.reg r t i = s.reg r t i) ∧ ∀ j, j ≠ k → u.seat j = s.seat j
    let leaves (kind : AccKind) (v : Nat) (fl : FFlags) : Prop :=
      a.kind = kind → ∀ r, a.dst = .scalar r false →
        ∃ u, exec (.loadComplete t i n .clean) s = .next u ∧ frame u ∧ u.num a.addr a.len = v % 2 ^ w
          ∧ ((s.trec k).st = .running → (u.seat k).sc.flags = (s.seat k).sc.flags.or fl)
          ∧ (u.seat k).s r = BitVec.ofNat 64 old ∧ (∀ q, q ≠ r → (u.seat k).s q = (s.seat k).s q)
          ∧ ∀ q, (u.seat k).vec q = (s.seat k).vec q
    let sg (v : Nat) : Int := if a.sgn then untwos w v else v
    let sum := fpAdd ffFp32 (ffFp32.decode old) (ffFp32.decode a.data)
    let int (kind : AccKind) (v : Nat) : Prop := leaves kind v FFlags.none
    int .amoAdd (old + a.data) ∧ int .amoSwap a.data ∧ int .amoAnd (old &&& a.data) ∧ int .amoOr (old ||| a.data)
    ∧ int .amoMin (if sg a.data < sg old then a.data else old) ∧ int .amoMax (if sg old < sg a.data then a.data else old)
    ∧ int .amoCas (if old = a.cmp then a.data else old)
    ∧ (w = 32 → leaves .amoFadd sum.code sum.flags)
    ∧ (a.kind = .vamoAdd → w = 32 → (s.trec k).st = .running →
        ∃ u, exec (.storePerformed t i n .clean) s = .next u ∧ frame u
          ∧ u.seat k = (if a.float then (s.seat k).orFlags sum.flags else s.seat k)
          ∧ u.num a.addr a.len = (if a.float then sum.code else old + a.data) % 2 ^ w)

/-! ### Threads: park, wake, barriers, spawn and exit (R172 to R187, R226 to R230) -/

/-- WAIT goes on with 0 in sd while the word at sa differs from sb[31:0]; where it is equal the thread parks with the watched
word, the value and, where sc[31:0] is not 0, a deadline that many refclk ticks from now (R181, R227). The wait needs every scalar
load back (R178) and the thread's earlier stores to the word performed (R194), and the read of the word neither waits (R20, R322)
nor meets an uncorrectable error (R319). -/
def Claims.WaitParksOrGoesOn : Prop :=
  ∀ (s : State) (t : Tower) (i : Nat) (f : Fields),
    let k := thrKey t.val i
    let x := s.seat k
    let a := (x.s f.a.toNat).toNat
    let v : Word := (x.s f.b.toNat).truncate 32
    let timeout : Word := (x.s f.c.toNat).truncate 32
    s.canIssue t i f { form := .reg, d := .s, a := .s, b := .s, c := .s } = true → scalarsBack (s.accs k) = true →
    a % 4 = 0 → drumBase t.val ≤ a → a < drumBase t.val + 0x10000000 →
    s.ownEarlier k [(a, 4)] [] = false → s.trafficHeld (cupolaIsland t.val) [(a, 4)] = false → s.knownBad a 4 = none →
    (s.word a ≠ v.toNat → ∃ u, exec (.wait t i f) s = .next u ∧ WentOn k f.d.toNat 0 s u ∧ ∀ j, u.trec j = s.trec j)
    ∧ (s.word a = v.toNat → ∃ u, exec (.wait t i f) s = .next u ∧ Parked k .parked .wait f.d.toNat s u
        ∧ (u.trec k).waitArg.toNat = a - drumBase t.val ∧ (u.trec k).waitVal = v ∧ u.thr.ready = s.thr.ready
        ∧ ((u.trec k).deadlineEn = true ↔ timeout ≠ 0)
        ∧ (timeout ≠ 0 → (u.trec k).deadlineTick = s.refclk + timeout.zeroExtend 64))

/-- YIELD parks the thread READY behind its context's READY threads; BAR.EOS parks a thread of a member context until the
commit (R182, R187). -/
def Claims.YieldAndBarEosPark : Prop :=
  ∀ (s : State) (t : Tower) (i : Nat) (f : Fields),
    let k := thrKey t.val i
    s.canIssue t i f { form := .reg, d := .s } = true → scalarsBack (s.accs k) = true →
    (∃ u, exec (.yield t i f) s = .next u ∧ Parked k .ready .yield f.d.toNat s u ∧ u.thr.ready = s.thr.ready ++ [k])
    ∧ (s.member (s.trec k).ctx = true →
        ∃ u, exec (.barEos t i f) s = .next u ∧ Parked k .parked .barEos f.d.toNat s u ∧ u.thr.ready = s.thr.ready)
    ∧ (s.member (s.trec k).ctx = false → exec (.barEos t i f) s = .next (s.thrException k 6 0))

/-- BAR: an arrival below the expected count parks; the arrival that reaches it, once every arriving thread's earlier stores are
performed, clears the arrivals, goes on with 0 in sd and makes the waiters READY in ascending index (R186, R198). -/
def Claims.Barriers : Prop :=
  ∀ (s : State) (t : Tower) (i : Nat) (f : Fields),
    let k := thrKey t.val i
    let x := s.seat k
    let c := (s.trec k).ctx
    let id := (x.s f.a.toNat).toNat
    let b := tget s.thr.bars (barKey t.val c id)
    let arrivals := b.arrivals ++ [(k, tget s.thr.nextAcc k)]
    let waiters := s.barWaiters t.val c id
    s.canIssue t i f { form := .reg, d := .s, a := .s } = true → scalarsBack (s.accs k) = true → id ≤ 63 → b.expected ≠ 0 →
    (arrivals.length < b.expected →
      ∃ u, exec (.bar t i f) s = .next u ∧ Parked k .parked .bar f.d.toNat s u ∧ (u.trec k).waitArg.toNat = id
        ∧ tget u.thr.bars (barKey t.val c id) = ⟨b.expected, arrivals⟩ ∧ u.thr.ready = s.thr.ready)
    ∧ (b.expected ≤ arrivals.length → (∀ g ∈ arrivals, s.storesDone g = true) →
        ∃ u, exec (.bar t i f) s = .next u ∧ WentOn k f.d.toNat 0 s u
          ∧ tget u.thr.bars (barKey t.val c id) = ⟨b.expected, []⟩ ∧ u.thr.ready = s.thr.ready ++ waiters
          ∧ ∀ j ∈ waiters, (u.trec j).st = .ready ∧ (u.trec j).wakeValue = 0)

/-- BARINIT sets the expected count of a barrier with no waiting thread and writes OK to sd; a count of 0 or above the context's
thread range writes LENGTH_RANGE and changes only barinit_refused (R185, R228). -/
def Claims.BarrierInit : Prop :=
  ∀ (s : State) (t : Tower) (i : Nat) (f : Fields),
    let k := thrKey t.val i
    let x := s.seat k
    let c := (s.trec k).ctx
    let id := (x.s f.a.toNat).toNat
    let n := (x.s f.b.toNat).toNat
    s.canIssue t i f { form := .reg, d := .s, a := .s, b := .s } = true → id ≤ 63 → s.barWaiters t.val c id = [] →
    (0 < n → n ≤ s.thrCount t.val c →
      ∃ u, exec (.barinit t i f) s = .next u ∧ tget u.thr.bars (barKey t.val c id) = ⟨n, []⟩
        ∧ (u.seat k).s f.d.toNat = 0 ∧ (u.seat k).sc.pc = x.nextPc ∧ SameStores s u
        ∧ (∀ r, r ≠ f.d.toNat → (u.seat k).s r = x.s r) ∧ (∀ r, (u.seat k).vec r = x.vec r)
        ∧ ∀ j, j ≠ k → u.seat j = s.seat j)
    ∧ (n = 0 ∨ s.thrCount t.val c < n →
      ∃ u, exec (.barinit t i f) s = .next u ∧ u.thr.bars = s.thr.bars ∧ u.bit .vecErr t.val c vecErr_barinitRefused = true
        ∧ (u.seat k).s f.d.toNat = 1 ∧ (u.seat k).sc.pc = x.nextPc ∧ ∀ a, u.byte a = s.byte a)

/-- SPAWN makes sb threads READY in the lowest FREE indices of the context's range, each with its ordinal in s0, the argument in
s1, entry as pc and the spawner's phase, and writes OK; where they do not fit it spawns nothing, sets spawn_refused and writes
LENGTH_RANGE (R183). -/
def Claims.Spawns : Prop :=
  ∀ (s : State) (t : Tower) (i : Nat) (f : Fields),
    let k := thrKey t.val i
    let x := s.seat k
    let c := (s.trec k).ctx
    let entry := (x.s f.a.toNat).toNat
    let n := (x.s f.b.toNat).toNat
    let live := s.liveThreads t.val c
    let idx := freeIndices s t.val (n + live) (s.thrBase t.val c) n
    s.canIssue t i f { form := .reg, d := .s, a := .s, b := .s, c := .s } = true → entry % 8 = 0 →
    (n + live ≤ s.thrCount t.val c →
      ∃ u, exec (.spawn t i f) s = .next u ∧ (u.seat k).s f.d.toNat = 0 ∧ (u.seat k).sc.pc = x.nextPc
        ∧ u.thr.ready = s.thr.ready ++ idx.map (thrKey t.val) ∧ (∀ r t i, u.reg r t i = s.reg r t i)
        ∧ (∀ o j, idx[o]? = some j → (s.trec (thrKey t.val j)).st = .free
            ∧ (u.trec (thrKey t.val j)).st = .ready
            ∧ (u.trec (thrKey t.val j)).ctx = c ∧ (u.trec (thrKey t.val j)).spawner = i
            ∧ (u.trec (thrKey t.val j)).sc.pc = entry
            ∧ tget (u.trec (thrKey t.val j)).sc.s 0 = BitVec.ofNat 64 o
            ∧ tget (u.trec (thrKey t.val j)).sc.s 1 = x.s f.c.toNat
            ∧ (u.trec (thrKey t.val j)).sc.phaseId = x.sc.phaseId ∧ (u.trec (thrKey t.val j)).sc.phaseEn = x.sc.phaseEn)
        ∧ ∀ j, (∀ l ∈ idx, j ≠ thrKey t.val l) → u.trec j = s.trec j)
    ∧ (s.thrCount t.val c < n + live →
      ∃ u, exec (.spawn t i f) s = .next u ∧ (u.seat k).s f.d.toNat = 1 ∧ (u.seat k).sc.pc = x.nextPc
        ∧ u.thr.ready = s.thr.ready ∧ u.bit .vecErr t.val c vecErr_spawnRefused = true ∧ ∀ j, u.trec j = s.trec j)

/-- EXIT ends the thread and abandons its loads; FENCE goes on once the thread has no access outstanding and waits until then;
EVENT raises the context's software event with the code (R184, R195, R230). -/
def Claims.ExitFenceEvent : Prop :=
  ∀ (s : State) (t : Tower) (i : Nat) (f : Fields),
    let k := thrKey t.val i
    let x := s.seat k
    let c := (s.trec k).ctx
    (s.canIssue t i f { form := .reg } = true →
      (∃ u, exec (.exit t i f) s = .next u ∧ (u.seat k).exited = true ∧ (∀ j, j ≠ k → u.seat j = s.seat j)
        ∧ u.accs k = ((s.accs k).filter fun a => a.kind != .load) ∧ (∀ j, u.trec j = s.trec j) ∧ ∀ a, u.byte a = s.byte a)
      ∧ (s.accs k = [] → ∃ u, exec (.fence t i f) s = .next u ∧ NoResult k x.nextPc s u)
      ∧ (s.accs k ≠ [] → exec (.fence t i f) s = .next s))
    ∧ (s.canIssue t i f { form := .reg, a := .s } = true → c < 16 →
        let code := (x.s f.a.toNat).toNat % 2 ^ 16
        let src := tget s.irq.srcs (112 + c)
        ∃ u, exec (.event t i f) s = .next u ∧ (u.seat k).sc.pc = x.nextPc ∧ (∀ r, (u.seat k).s r = x.s r)
          ∧ SameStores s u ∧ (∀ j, j ≠ 112 + c → tget u.irq.srcs j = tget s.irq.srcs j)
          ∧ (src.st = .idle → (tget u.irq.srcs (112 + c)).st = .pending
              ∧ (tget u.irq.srcs (112 + c)).arg = BitVec.ofNat 64 (code + 2 ^ 48)))

/-- THREAD_DISPATCH places a READY thread on the lowest-numbered core that qualifies, and the thread samples the active settings
(R41, R464): the thread is one that aged, where one did that can be placed (R467), and else the first READY one of the context that
priority and round-robin choose. -/
def Claims.DispatchPlaces : Prop :=
  ∀ (s : State) (t : Tower) (aged : Option Nat) (c k core : Nat),
    let cands := s.placeable t.val
    (∃ i, aged = some i ∧ thrKey t.val i = k ∧ k ∈ cands)
      ∨ ((∀ i, aged = some i → thrKey t.val i ∉ cands)
          ∧ nextCtx (tget s.thr.lastCtx t.val) (cands.map fun j => ((s.trec j).ctx, (s.sample (s.trec j).ctx).prio)) = some c
          ∧ cands.find? (fun j => (s.trec j).ctx == c) = some k) →
    (s.trec k).ctx = c → s.coreFor t.val c = some core →
    ∃ u, exec (.threadDispatch ⟨t, aged⟩) s = .next u ∧ u.trec k = { s.trec k with st := .running }
      ∧ (u.seat k).core = core ∧ (u.seat k).loaded = false ∧ (u.seat k).exited = false ∧ (u.seat k).sc = (s.trec k).sc
      ∧ (u.seat k).sampled = s.sample c
      ∧ u.thr.ready = s.thr.ready.filter (· != k) ∧ tget u.thr.lastCtx t.val = c
      ∧ (∀ j, j ≠ k → u.trec j = s.trec j ∧ u.seat j = s.seat j) ∧ SameStores s u
      ∧ core < 64 ∧ (tget s.step.active.sched c).allowed.testBit (64 * t.val + core) = true
      ∧ s.seatsTaken t.val core < 16 ∧ ∀ n, n < core → s.coreQualifies t.val c n = false

/-- An arbiter's choice among candidates, contexts each with one priority, is one of the highest priority, and of those the first
after the context served last, in context number order (R464, R465). -/
def Claims.ArbiterServesHighestPriority : Prop :=
  ∀ (last : Nat) (cands : List (Nat × Nat)), (∀ x ∈ cands, x.1 < 16) →
    (∀ x ∈ cands, ∀ y ∈ cands, x.1 = y.1 → x.2 = y.2) →
    (cands = [] → nextCtx last cands = none)
    ∧ (cands ≠ [] → ∃ x, nextCtx last cands = some x.1 ∧ x ∈ cands ∧ (∀ y ∈ cands, y.2 ≤ x.2)
        ∧ ∀ y ∈ cands, y.2 = x.2 → (x.1 + 16 - (last + 1) % 16) % 16 ≤ (y.1 + 16 - (last + 1) % 16) % 16)

/-- THREAD_RESUME brings the record to the seat: wake_value is in the register wake_dst names unless the thread was just spawned,
and vector and mask registers are undefined; WAIT_DEADLINE wakes a timed-out WAIT with 1; THREAD_INDEX_FREE frees the index of a
thread that has exited with no store outstanding (R177, R180, R184, R227). -/
def Claims.ResumeDeadlineFree : Prop :=
  ∀ (s : State) (t : Tower) (i : Nat),
    let k := thrKey t.val i
    let r := s.trec k
    (r.st = .running → (s.seat k).loaded = false → s.guardMet r = true →
      ∃ u, exec (.threadResume t i) s = .next u ∧ (u.seat k).loaded = true ∧ (u.seat k).exited = false
        ∧ (u.seat k).core = (s.seat k).core ∧ (u.seat k).sc.pc = r.sc.pc ∧ (u.seat k).sc.vl = r.sc.vl
        ∧ (u.seat k).sc.vtype = r.sc.vtype ∧ (u.seat k).sc.flags = r.sc.flags
        ∧ (r.reason = .spawned → ∀ q, (u.seat k).s q = tget r.sc.s q)
        ∧ (r.reason ≠ .spawned → (u.seat k).s r.wakeDst = r.wakeValue
            ∧ ∀ q, q ≠ r.wakeDst → (u.seat k).s q = tget r.sc.s q)
        ∧ (∀ q, (u.seat k).vec q = Config.freeVec s.freeCtr q ∧ (u.seat k).msk q = Config.freeMask s.freeCtr q)
        ∧ u.freeCtr = s.freeCtr + 1 ∧ (∀ j, j ≠ k → u.seat j = s.seat j ∧ u.trec j = s.trec j) ∧ SameStores s u)
    ∧ (r.st = .parked → r.reason = .wait → r.deadlineEn = true → r.deadlineTick.toNat ≤ s.refclk.toNat →
        ∃ u, exec (.waitDeadline t i) s = .next u ∧ u.trec k = { r with st := .ready, wakeValue := 1 }
          ∧ u.thr.ready = s.thr.ready ++ [k] ∧ (∀ j, j ≠ k → u.trec j = s.trec j) ∧ SameStores s u)
    ∧ ((s.seat k).exited = true → s.accs k = [] →
        ∃ u, exec (.threadIndexFree t i) s = .next u ∧ u.trec k = default ∧ u.seat k = default
          ∧ (∀ j, j ≠ k → u.trec j = s.trec j ∧ u.seat j = s.seat j) ∧ SameStores s u)

/-- A fetch outside HBM and scratch raises ADDRESS_FAULT (cause 3) and an illegal instruction ILLEGAL_INSTR (cause 1), before the
instruction changes anything; an instruction of a thread that does not run, or that waits for an operand, changes nothing
(R172, R201, R202, R205, R233). -/
def Claims.ThreadExceptions : Prop :=
  ∀ (s : State) (t : Tower) (i : Nat) (f : Fields) (shape : Seat → Shape) (body : Nat → Seat → State → State),
    let k := thrKey t.val i
    let x := s.seat k
    (s.canRun k = false → thrRun t i f shape body s = s)
    ∧ (s.canRun k = true → fetchOk x.sc.pc = false → thrRun t i f shape body s = s.thrException k 3 x.sc.pc)
    ∧ (s.canRun k = true → fetchOk x.sc.pc = true → (shape x).legal f = false →
        thrRun t i f shape body s = s.thrException k 1 0)
    ∧ (s.canRun k = true → fetchOk x.sc.pc = true → (shape x).legal f = true →
        operandsReady (s.accs k) (shape x) f = false → thrRun t i f shape body s = s)
    ∧ (s.canIssue t i f (shape x) = true → thrRun t i f shape body s = body k x s)

/-! ### Registers, interrupts, crossings and refresh (R7, R15 to R22, R313 to R326, R494 to R506) -/

/-- REGISTER_WRITE and W1C_FIELD_WRITE of a register without an effect of its own write each field by its access type; a W1C bit
that the hardware sets in the same cycle stays 1; RC_FIELD_READ returns the value from before its cycle and leaves in an RC field
the events of that cycle alone; bits [7:3] of a routing-table entry stay 0 (R419); an unassigned or misaligned address takes nothing
(R7, R27, R28, R494, R495). The island that serves the register is reachable (R20, R564). -/
def Obligations.RegisterAccesses : Prop :=
  ∀ (s : State) (a : Addr) (v sets : Word) (added : List Nat),
    (regTarget a.toNat = none → exec (.registerWrite a v) s = .next s ∧ exec (.w1cFieldWrite a v sets) s = .next s
      ∧ exec (.rcFieldRead a added) s = .next s)
    ∧ ∀ r t i, regTarget a.toNat = some (r, t, i) → s.trafficHeld belfryIsland [(a.toNat, 4)] = false →
      let old := s.reg r t i
      (writesApart.contains r = false ∨ r = .hostPfcCfg ∧ s.host.stalled = [] → queueUse r = none →
        (∃ u, exec (.registerWrite a v) s = .next u ∧ OnlyReg r t i s u
          ∧ ∀ f ∈ (regDef r).fields, ∀ j, f.lo ≤ j → j < f.lo + f.width →
              (u.reg r t i).getLsbD j = fieldWrite f old v j)
        ∧ ∃ u, exec (.w1cFieldWrite a v sets) s = .next u ∧ OnlyReg r t i s u
          ∧ ∀ f ∈ (regDef r).fields, ∀ j, f.lo ≤ j → j < f.lo + f.width →
              (u.reg r t i).getLsbD j = (fieldWrite f old v j || f.acc == .w1c && sets.getLsbD j))
      ∧ ([RegId.plynRtT, .plynRtS, .plynRtD].contains r = true →
          ∃ u, exec (.registerWrite a v) s = .next u ∧ OnlyReg r t i s u ∧ u.reg r t i = v &&& 0x07070707)
      ∧ (readsApart.contains r = false →
          ∃ u, exec (.rcFieldRead a added) s = .next u ∧ u.readData = old
            ∧ OnlyReg r t i { s with readData := old } u
            ∧ ∀ n f, (regDef r).fields[n]? = some f →
                u.fld r t i f = if f.acc = .rc then min (added.getD n 0) (2 ^ f.width - 1) else s.fld r t i f)
      ∧ (r = .ctlRefclkLo → t = 0 → i = 0 → ∃ u, exec (.rcFieldRead a added) s = .next u ∧ u.readData = s.refclk.truncate 32
            ∧ u.reg .ctlRefclkHi 0 0 = (s.refclk >>> 32).truncate 32)
      ∧ (r = .vecThrLive → exec (.rcFieldRead a []) s
            = .next { s.setReg r t i (s.reg r t i) with readData := BitVec.ofNat 32 (s.liveThreads t i) })
      ∧ (r = .vecCtxCfg → s.anyThread i = true →
          ∃ u, exec (.registerWrite a v) s = .next u ∧ OnlyReg .vecErr t i s u ∧ u.bit .vecErr t i vecErr_cfgWriteIgnored = true)

/-- SOURCE_RAISE: an idle source becomes PENDING with the argument and count 1; one that is PENDING merges it by its merge mode,
FIRST, LAST or OR, with the count saturating; an edge source that is ACTIVE becomes ACTIVE_PENDING, a level source stays; a
reserved source is never raised; no other source changes (R496 to R498, R506). -/
def Claims.SourceRaise : Prop :=
  ∀ (s : State) (n a : Nat), a < 2 ^ 48 →
    let x := tget s.irq.srcs n
    let y := tget (s.raise n a).irq.srcs n
    let level := s.bit .irqSrcCfg 0 n irqSrcCfg_sense
    let merge := s.fld .irqSrcCfg 0 n irqSrcCfg_merge
    let addr (d : DWord) : Nat := d.toNat % 2 ^ 48
    let cnt (d : DWord) : Nat := d.toNat / 2 ^ 48
    (srcListed n = false → s.raise n a = s)
    ∧ (∀ j, j ≠ n → tget (s.raise n a).irq.srcs j = tget s.irq.srcs j)
    ∧ (srcListed n = true →
        (x.st = .idle → y.st = .pending ∧ addr y.arg = a ∧ cnt y.arg = 1)
        ∧ (x.st = .pending → (level = false ∨ x.cond ≠ some (BitVec.ofNat 48 a)) →
            y.st = .pending ∧ cnt y.arg = min (cnt x.arg + 1) 0xFFFF
            ∧ addr y.arg = (if merge = 1 then a else if merge = 2 then addr x.arg ||| a else addr x.arg))
        ∧ (x.st = .active → level = false → y.st = .activePending ∧ addr y.arg = a ∧ cnt y.arg = 1 ∧ y.act = x.act)
        ∧ (x.st = .activePending → level = false → y.st = .activePending ∧ cnt y.arg = min (cnt x.arg + 1) 0xFFFF)
        ∧ (level = true → x.st = .active ∨ x.st = .activePending → y = x))

/-- The interrupt controller: a claim takes the lowest-numbered deliverable source of the core and latches its argument, a
completion ends it or makes it PENDING again, one that fits no source counts as spurious, records join the host event queue under
the next event_seq while it has room, and masks and lock govern the configuration (R437, R438, R499 to R504). -/
def Claims.InterruptController : Prop :=
  ∀ (s : State) (k : Fin 4) (n : Fin 1024) (v : Word),
    let x := tget s.irq.srcs n.val
    let target := s.fld .irqSrcCfg 0 n.val irqSrcCfg_target
    let forwarded := s.bit .irqSrcCfg 0 n.val irqSrcCfg_forwarded
    let others (u : State) : Prop := ∀ j, j ≠ n.val → tget u.irq.srcs j = tget s.irq.srcs j
    let record (u : State) (arg : DWord) : Prop := u.host.nextSeq = s.host.nextSeq + 1
      ∧ u.host.events = s.host.events
        ++ [{ seq := s.host.nextSeq, source := n.val, ctx := srcContext n.val arg, arg := arg, sentTick := none }]
    (s.deliverable k.val n.val = true → (∀ m, m < n.val → s.deliverable k.val m = false) →
      ∃ u, exec (.irqClaim k) s = .next u ∧ u.readData.toNat = 2 ^ 31 + n.val ∧ others u
        ∧ tget u.irq.srcs n.val = { x with st := .active, act := x.arg, arg := 0 }
        ∧ u.reg .irqArgLo 0 k.val = x.arg.truncate 32 ∧ u.reg .irqArgHi 0 k.val = (x.arg >>> 32).truncate 32
        ∧ ∀ a, u.byte a = s.byte a)
    ∧ ((∀ m, m < 1024 → s.deliverable k.val m = false) → exec (.irqClaim k) s = .next { s with readData := 0 })
    ∧ (x.st = .active → target = k.val → ∃ u, exec (.irqComplete k n) s = .next u ∧ others u
        ∧ (x.cond = none → (tget u.irq.srcs n.val).st = .idle)
        ∧ (∀ c, x.cond = some c → (tget u.irq.srcs n.val).st = .pending ∧ (tget u.irq.srcs n.val).arg = argOf 1 c)
        ∧ u.irq.forwards = s.irq.forwards ++ (if forwarded then [(n.val, x.act)] else []))
    ∧ (x.st = .activePending → target = k.val → ∃ u, exec (.irqComplete k n) s = .next u ∧ others u
        ∧ tget u.irq.srcs n.val = { x with st := .pending, act := 0 })
    ∧ (x.st = .idle ∨ x.st = .pending ∨ target ≠ k.val → ∃ u, exec (.irqComplete k n) s = .next u
        ∧ OnlyReg .irqSrcStat 0 n.val s u
        ∧ u.fld .irqSrcStat 0 n.val irqSrcStat_spurious
          = min (s.fld .irqSrcStat 0 n.val irqSrcStat_spurious + 1) (2 ^ irqSrcStat_spurious.width - 1))
    ∧ (srcListed n.val = true → x.st = .pending → s.bit .irqSrcCfg 0 n.val irqSrcCfg_hostMask = false → target = 4 →
        s.host.events.length < 1024 →
        ∃ u, exec (.hostEventRecordAppend n) s = .next u ∧ others u ∧ (tget u.irq.srcs n.val).st = .active ∧ record u x.arg)
    ∧ (∀ arg, s.irq.forwards.find? (fun f => f.1 == n.val) = some (n.val, arg) →
        s.bit .irqSrcCfg 0 n.val irqSrcCfg_hostMask = false → s.host.events.length < 1024 →
        ∃ u, exec (.forwardedRecordAppend n) s = .next u ∧ u.irq.forwards = s.irq.forwards.erase (n.val, arg) ∧ record u arg)
    ∧ (srcListed n.val = true →
        ∃ u, exec (.irqSrcCfgWrite n v false) s = .next u ∧ OnlyReg .irqSrcCfg 0 n.val s u
          ∧ (∀ f ∈ [irqSrcCfg_mask, irqSrcCfg_hostMask], u.fld .irqSrcCfg 0 n.val f = fldOf v f)
          ∧ ∀ f ∈ [irqSrcCfg_sense, irqSrcCfg_forwarded, irqSrcCfg_target, irqSrcCfg_merge],
              u.fld .irqSrcCfg 0 n.val f
                = if s.bit .irqLock 0 0 irqLock_lock = true ∨ f = irqSrcCfg_target ∧ 4 < fldOf v f
                    ∨ f = irqSrcCfg_merge ∧ 2 < fldOf v f then s.fld .irqSrcCfg 0 n.val f else fldOf v f)
    ∧ (v.getLsbD 0 = true → ∃ u, exec (.irqLockWrite v) s = .next u ∧ OnlyReg .irqLock 0 0 s u
        ∧ u.bit .irqLock 0 0 irqLock_lock = true)
    ∧ (v.getLsbD 0 = false → exec (.irqLockWrite v) s = .next s)

/-- An entry goes over the first crossing of its way, which between drums is the shorter way round the ring; a crossing holds at
most 16 entries, delivers in order and waits while the next island is not ready, and a sender without a credit stalls; a returned
credit frees the oldest entry, which goes on over the next crossing of its way, and lets the oldest stalled one in; a ready bit
that falls while the device runs raises ISLAND_LOST with its number (R13, R17 to R21). -/
def Obligations.CrossingsAndIslands : Prop :=
  (∀ (a b : Tower), a ≠ b →
    let d := (b.val + 8 - a.val) % 8
    route (drumIsland a.val) (drumIsland b.val)
      = if d < 4 ∨ d = 4 ∧ a.val % 2 = 0 then (List.range (d + 1)).map fun i => drumIsland ((a.val + i) % 8)
        else (List.range (9 - d)).map fun i => drumIsland ((a.val + 8 - i) % 8))
  ∧ ∀ (s : State) (src dst : Fin 33) (e : DWord) (b : Fin 32),
    let only (u : State) : Prop := u = { s with cross := u.cross }
    let same (u : State) (l : List Nat) : Prop := ∀ k, k ∉ l → tget u.cross k = tget s.cross k
    let takes (n : Nat) (x : Crossing) (en : CrossEntry) : Crossing :=
      if s.islandReady n then ⟨[], x.arrived ++ x.held ++ [en], []⟩ else ⟨x.held ++ [en], x.arrived, []⟩
    let room (x : Crossing) : Prop := x.held.length + x.arrived.length < 16 ∧ x.stalled = []
    let word := s.reg .ctlIslandReady 0 0
    (src = dst → exec (.crossingEntryArrive src dst e) s = .next s)
    ∧ (∀ n, nextOn src.val (route src.val dst.val) = some n →
        let k := crossKey src.val n
        let x := tget s.cross k
        let en : CrossEntry := ⟨src.val, dst.val, e⟩
        ∃ u, exec (.crossingEntryArrive src dst e) s = .next u ∧ only u ∧ same u [k]
          ∧ (room x → tget u.cross k = takes n x en)
          ∧ (¬ room x → s.islandReady n = false → tget u.cross k = ⟨x.held, x.arrived, x.stalled ++ [en]⟩)
          ∧ (¬ room x → s.islandReady n = true → tget u.cross k = ⟨[], x.arrived ++ x.held, x.stalled ++ [en]⟩))
    ∧ (let k := crossKey src.val dst.val
       let x := tget s.cross k
       (s.islandReady dst.val = false → ∃ u, exec (.crossingCreditReturn src dst) s = .next u ∧ only u ∧ same u [])
       ∧ ∀ en rest, s.islandReady dst.val = true → x.arrived ++ x.held = en :: rest →
          let freed : Crossing := ⟨[], rest ++ x.stalled.take (if rest.length < 16 then 1 else 0),
            x.stalled.drop (if rest.length < 16 then 1 else 0)⟩
          (nextOn dst.val (route en.src en.dst) = none →
            ∃ u, exec (.crossingCreditReturn src dst) s = .next u ∧ only u ∧ same u [k] ∧ tget u.cross k = freed)
          ∧ ∀ n, nextOn dst.val (route en.src en.dst) = some n → crossKey dst.val n ≠ k →
            let y := tget s.cross (crossKey dst.val n)
            (room y → ∃ u, exec (.crossingCreditReturn src dst) s = .next u ∧ only u ∧ same u [k, crossKey dst.val n]
              ∧ tget u.cross k = freed ∧ tget u.cross (crossKey dst.val n) = takes n y en)
            ∧ (¬ room y → ∃ u, exec (.crossingCreditReturn src dst) s = .next u ∧ only u ∧ same u [k]
              ∧ tget u.cross k = ⟨[], x.arrived ++ x.held, x.stalled⟩))
    ∧ (s.pwr.st = .running → word.getLsbD b.val = true →
        ∃ u, exec (.islandReadyLoss b) s = .next u
          ∧ (∀ j, (u.reg .ctlIslandReady 0 0).getLsbD j = (word.getLsbD j && j != b.val))
          ∧ u.pwr.lost = b.val :: s.pwr.lost
          ∧ ((tget s.irq.srcs 2).st = .idle → (tget u.irq.srcs 2).st = .pending
              ∧ (tget u.irq.srcs 2).arg.toNat % 2 ^ 48 = b.val)
          ∧ ∀ a, u.byte a = s.byte a)

/-- The all-bank refreshes and the refresh management of each pseudo-channel go out one by one while its controllers are ready; the
patrol scrub of a drum reads its own stacks, leaves a clean word alone, counts a corrected one and, where its row needed correction in
the drum's last pass as well, adds the row to the repair list, and notes an uncorrectable one without a context fault; the end of a
pass concerns the rows of that drum alone (R313, R314, R318 to R320). -/
def Claims.RefreshAndScrub : Prop :=
  ∀ (s : State) (k : Fin 24) (pc : Fin 64) (x row : Addr) (last : Bool) (w : Nat),
    let key := pcKey k.val pc.val
    let t := k.val / 3
    let a := hbmAddr (s.localGib t) k.val (x.toNat / 32 * 32)
    let r := repairRow k.val (pseudoChannel x.toNat) row.toNat
    let on := s.fld .memScrubCfg t 0 memScrubCfg_scrubHours ≠ 0 ∧ x.toNat < 64 * gib ∧ s.hbmReady k.val = true
    let only (u : State) : Prop := u = { s with regs := u.regs, ram := u.ram, irq := u.irq }
    let ce (u : State) : Nat := u.fld .memEccCe t (k.val % 3) memEccCe_corrected
    (s.hbmReady k.val = true →
      (∃ u, exec (.hbmRefresh k pc) s = .next u ∧ u = { s with ram := { s.ram with refreshes := u.ram.refreshes } }
        ∧ ∀ j, tget u.ram.refreshes j = tget s.ram.refreshes j + if j = key then 1 else 0)
      ∧ ∃ u, exec (.refreshManagementRequest k pc) s = .next u ∧ u = { s with ram := { s.ram with rfm := u.ram.rfm } }
        ∧ ∀ j, tget u.ram.rfm j = tget s.ram.rfm j + if j = key then 1 else 0)
    ∧ (s.hbmReady k.val = false → exec (.hbmRefresh k pc) s = .next s ∧ exec (.refreshManagementRequest k pc) s = .next s)
    ∧ (on → a < 0x018000000000 → s.knownBad a 32 = none → a ≤ w → w < a + 32 →
        exec (.scrubRead ⟨k, x⟩ row .clean false) s = .next s
        ∧ (∃ u, exec (.scrubRead ⟨k, x⟩ row (.corrected [w]) last) s = .next u ∧ only u
            ∧ ce u = min (ce s + 1) (2 ^ memEccCe_corrected.width - 1)
            ∧ (u.ram.repair = if s.ram.scrubLast.contains r && !s.ram.repair.contains r then s.ram.repair ++ [r]
                else s.ram.repair)
            ∧ (last = false → r ∈ u.ram.scrubNow ∧ u.ram.scrubLast = s.ram.scrubLast) ∧ (last = true → r ∈ u.ram.scrubLast)
            ∧ ∀ q : DWord, q.toNat / 2 ^ 56 / 3 ≠ t → (q ∈ u.ram.scrubLast ↔ q ∈ s.ram.scrubLast))
        ∧ ∃ u, exec (.scrubRead ⟨k, x⟩ row (.bad w) last) s = .next u ∧ only u
            ∧ u.reg .memUeAddrLo t 0 = BitVec.ofNat 32 w ∧ (a, 32) ∈ u.ram.bad
            ∧ ∀ c : CtxId, u.ctxState c.val = s.ctxState c.val)
    ∧ (¬ on → ∀ ecc, exec (.scrubRead ⟨k, x⟩ row ecc last) s = .next s)

/-- A calibration window opens on the next pseudo-channel once the interval has passed, unless the loop coasts, and issues a refresh;
its close or its abort moves the rotation on, applying the new settings where both margins reach the minimum; an abort is counted
(R322, R323, R325, R326, R514). -/
def Claims.CalibrationWindows : Prop :=
  ∀ (s : State) (k : Fin 24) (rd wr : Nat),
    let w := tget s.ram.cal k.val
    let t := k.val / 3
    let i := k.val % 3
    let pc (u : State) : Nat := u.fld .memCalStat t i memCalStat_nextPc
    let aborts (u : State) : Nat := u.fld .memCalStat t i memCalStat_aborts
    let kept (u : State) : Nat := tget u.ram.calKept (pcKey k.val w.pc)
    let every := s.fld .memCalCfg t 0 memCalCfg_calInterval
    let least := s.fld .memCalCfg t 0 memCalCfg_calMinMargin
    let ended (u : State) : Prop := u = { s with regs := u.regs, ram := u.ram, irq := u.irq }
      ∧ (tget u.ram.cal k.val).isOpen = false ∧ pc u = (w.pc + 1) % 64
    (every ≠ 0 → w.isOpen = false → s.hbmReady k.val = true → s.hbmCoasts k.val = false →
      every ≤ (s.refclk - w.tick).toNat →
      ∃ u, exec (.calWindowOpen k) s = .next u ∧ u = { s with ram := u.ram }
        ∧ tget u.ram.cal k.val = { pc := pc s, isOpen := true, tick := s.refclk }
        ∧ ∀ j, tget u.ram.refreshes j = tget s.ram.refreshes j + if j = pcKey k.val (pc s) then 1 else 0)
    ∧ (s.hbmCoasts k.val = true ∨ w.isOpen = true ∨ every = 0 → exec (.calWindowOpen k) s = .next s)
    ∧ (w.isOpen = true →
        (∃ u, exec (.calWindowClose k rd wr) s = .next u ∧ ended u ∧ aborts u = aborts s
          ∧ kept u = if least ≤ rd ∧ least ≤ wr then 0 else min 3 (kept s + 1))
        ∧ ∃ u, exec (.calWindowAbort k) s = .next u ∧ ended u
          ∧ aborts u = min (aborts s + 1) (2 ^ memCalStat_aborts.width - 1) ∧ kept u = min 3 (kept s + 1))
    ∧ (w.isOpen = false → exec (.calWindowClose k rd wr) s = .next s ∧ exec (.calWindowAbort k) s = .next s)

/-! ### Queues, page pools and completion records (R86 to R88, R122, R272, R383) -/

/-- A write of a queue's tail or completion head takes a value below the ring's size, and one of a base or size is taken while the
queue's head equals its tail, field by field; any other write is ignored and sets cfg_write_ignored. The same holds of the group
table's base while no group entry is valid (R122, R349). -/
def Obligations.QueueRegisters : Prop :=
  ∀ (s : State) (k : QKind) (t : Tower) (c : CtxId) (v : Word) (which : Fin 4) (hi : Bool),
    let q := qRegs k
    let t1 := qTower k t.val
    let n := v.toNat % 2 ^ 16
    let r := [q.baseLo, q.baseHi, q.cqLo, q.cqHi].getD which.val q.baseLo
    let g : RegId := if hi then .redGrpBaseHi else .redGrpBaseLo
    let ignored (i : Instr) : Prop := ∃ u, exec i s = .next u ∧ OnlyReg q.err t1 c.val s u
      ∧ u.bit q.err t1 c.val mtxQErr_cfgWriteIgnored = true
    (n < s.qSize k t.val c.val → ∃ u, exec (.queueTailWrite k t c v) s = .next u ∧ OnlyReg q.tail t1 c.val s u
      ∧ u.qTail k t.val c.val = n)
    ∧ (s.qSize k t.val c.val ≤ n → ignored (.queueTailWrite k t c v))
    ∧ (n < s.cqSize k t.val c.val → ∃ u, exec (.queueCqHeadWrite k t c v) s = .next u ∧ OnlyReg q.cqHead t1 c.val s u
        ∧ u.cqHead k t.val c.val = n)
    ∧ (s.cqSize k t.val c.val ≤ n → ignored (.queueCqHeadWrite k t c v))
    ∧ (s.qHead k t.val c.val = s.qTail k t.val c.val →
        ∃ u, exec (.queueBaseWrite k t c which v) s = .next u ∧ OnlyReg r t1 c.val s u
          ∧ ∀ f ∈ (regDef r).fields, u.fld r t1 c.val f = fldOf v f)
    ∧ (s.qHead k t.val c.val ≠ s.qTail k t.val c.val → ignored (.queueBaseWrite k t c which v))
    ∧ (s.anyGroup = false → ∃ u, exec (.redGrpBaseWrite hi v) s = .next u ∧ OnlyReg g 0 0 s u
        ∧ u.reg g 0 0 = if hi then v &&& 0xFFFF else v)
    ∧ (s.anyGroup = true → ∃ u, exec (.redGrpBaseWrite hi v) s = .next u ∧ OnlyReg .redGrpErr 0 0 s u
        ∧ u.bit .redGrpErr 0 0 redGrpErr_cfgWriteIgnored = true)

/-- The oldest completion record that waits is written at the tail of its ring while the ring has room, the tail moves on, and the
status word that goes with a record is written after it; the next record holds the queue where the ring is full again. With a full
ring, or while its drum or the status word's memory holds stores, nothing happens; a ring outside the queue memory faults the context
(R20, R86, R88, R339). -/
def Claims.CompletionRecordsAreWritten : Prop :=
  ∀ (s : State) (k : QKind) (t : Tower) (c : CtxId) (r : DoneRec) (rest : List DoneRec),
    let a := s.cqBase k t.val c.val + recBytes r.words * s.cqTail k t.val c.val
    let n := recBytes r.words
    let held (l : List (Nat × Nat)) : Bool := s.storesHeld (queueIsland k t.val) ((a, n) :: l)
    let inRing := cqRegionOk k t.val a = true ∧ cqRegionOk k t.val (a + n - 1) = true
    let wrote (u : State) : Prop := ∀ j, j < n → u.byte (a + j) = BitVec.ofNat 8 (r.words.getD (j / 4) 0 / 2 ^ (8 * (j % 4)))
    let moved (u : State) : Prop := u.cqTail k t.val c.val = (s.cqTail k t.val c.val + 1) % s.cqSize k t.val c.val
      ∧ (u.q k t.val c.val).done = rest ∧ (u.q k t.val c.val).running = (s.q k t.val c.val).running
      ∧ (u.q k t.val c.val).blocked = (!rest.isEmpty && u.cqFull k t.val c.val)
    (s.q k t.val c.val).done = r :: rest → r.words.length ≤ 16 →
    (s.cqFull k t.val c.val = false → inRing →
      (r.after = none → held [] = false → ∃ u, exec (.completionRecordWrite k t c) s = .next u ∧ wrote u ∧ moved u
        ∧ ∀ b, b < a ∨ a + n ≤ b → (∀ t, regionOf b ≠ .ctxStore t) → u.byte b = s.byte b)
      ∧ (∀ b v l, r.after = some (b, v, l) → held [(b, 4)] = false → b + 4 ≤ 0x018000000000 →
          s.ctxWriteOk l c.val b 4 = true →
          ∃ u, exec (.completionRecordWrite k t c) s = .next u ∧ wrote u ∧ moved u ∧ u.word b = v % 2 ^ 32)
      ∧ (r.after = none → held [] = true → exec (.completionRecordWrite k t c) s = .next s)
      ∧ ∀ b v l, r.after = some (b, v, l) → held [(b, 4)] = true → exec (.completionRecordWrite k t c) s = .next s)
    ∧ (s.cqFull k t.val c.val = true → exec (.completionRecordWrite k t c) s = .next s)
    ∧ (s.cqFull k t.val c.val = false → ¬ inRing →
        exec (.completionRecordWrite k t c) s = .next ((s.recordGone k t.val c.val rest).unitFault c.val t.val (queueUnit k)
          causeAddress a (recTag r.words) (recIndex k r.words)))

/-- A write of the page pool's tail takes a value below the pool's size and serves the append that starved first, whose thread becomes
READY with status OK, where the entry and the header can be read and the append's stores made at once; a write of the pool's base is
taken while the pool is empty and nothing is starved. Any other is ignored and sets cfg_write_ignored (R266, R272). -/
def Claims.PagePools : Prop :=
  ∀ (s : State) (t : Tower) (c : CtxId) (v : Word) (hi : Bool),
    let n := v.toNat % 2 ^ 16
    let r : RegId := if hi then .atnPoolBaseHi else .atnPoolBaseLo
    let ignored (i : Instr) : Prop := ∃ u, exec i s = .next u ∧ OnlyReg .atnErr t.val c.val s u
      ∧ u.bit .atnErr t.val c.val atnErr_cfgWriteIgnored = true
    (n < s.poolSize t.val c.val → s.starved t.val c.val = [] →
      ∃ u, exec (.atnPoolTailWrite t c v) s = .next u ∧ OnlyReg .atnPoolTail t.val c.val s u ∧ u.poolTail t.val c.val = n)
    ∧ (∀ k, n < s.poolSize t.val c.val → s.starved t.val c.val = [k] → s.poolHead t.val c.val ≠ n → s.ctxActive c.val = true →
        let p := s.setFld .atnPoolTail t.val c.val atnPoolTail_tail n
        let a := drumBase t.val + (s.trec k).waitArg.toNat
        let m := p.mapPage t.val c.val a (s.word (a + 4) / 256)
        let e := m.seqEntry a (s.word (a + 4) / 256)
        let rs := [(s.poolEntry t.val c.val, 16), (a, 64)]
        let ws := kvStores a (s.word (a + 4)) e.2.1 e.2.2 true
        (∀ y ∈ rs, unitReadOk y.1 y.2 = true) → (∀ y ∈ ws, p.ctxWriteOk (p.sample c.val) c.val y.1 y.2 = true) →
        p.ownEarlier k rs ws = false → p.trafficHeld (cupolaIsland t.val) rs = false →
        p.storesHeld (cupolaIsland t.val) ws = false → p.spansError rs .clean = none →
        (s.trec k).st = .parked → (s.trec k).reason = .kv →
        ∃ u, exec (.atnPoolTailWrite t c v) s = .next u ∧ (u.trec k).st = .ready ∧ (u.trec k).wakeValue = 0
          ∧ k ∈ u.thr.ready ∧ u.starved t.val c.val = [] ∧ u.poolTail t.val c.val = n
          ∧ u.poolHead t.val c.val = (s.poolHead t.val c.val + 1) % s.poolSize t.val c.val)
    ∧ (s.poolSize t.val c.val ≤ n → ignored (.atnPoolTailWrite t c v))
    ∧ (s.poolHead t.val c.val = s.poolTail t.val c.val → s.starved t.val c.val = [] →
        ∃ u, exec (.atnPoolBaseWrite t c hi v) s = .next u ∧ OnlyReg r t.val c.val s u
          ∧ ∀ f ∈ (regDef r).fields, u.fld r t.val c.val f = fldOf v f)
    ∧ (s.poolHead t.val c.val ≠ s.poolTail t.val c.val ∨ s.starved t.val c.val ≠ [] → ignored (.atnPoolBaseWrite t c hi v))

/-- KVAPP goes on with the status where the append is refused; appends the token, raising the sequence's length by one, where a page is
there, taking the next pool entry where a new page is needed; and parks behind the starved appends where the pool has none (R263 to
R265). What it reads and stores to is allowed, free of errors, not behind accesses of the thread's own and not held (R20, R52, R179). -/
def Claims.TokenAppends : Prop :=
  ∀ (s : State) (t : Tower) (i : Nat) (f : Fields),
    let k := thrKey t.val i
    let x := s.seat k
    let a := (x.s f.a.toNat).toNat
    let pos := (x.s f.c.toNat).toNat
    let c := (s.trec k).ctx
    let d := f.d.toNat
    let b := f.b.toNat
    let g := dfld [s.word a] 0 11 8
    let starves := s.poolHas t.val c = false ∨ s.starved t.val c ≠ []
    let rs := s.kvReads t.val c a pos
    let stores (l : List (Nat × Nat)) : Prop := (∀ y ∈ l, s.ctxWriteOk x.sampled c y.1 y.2 = true)
      ∧ s.ownEarlier k rs l = false ∧ s.storesHeld (cupolaIsland t.val) l = false
    let new := s.needsPage a pos
    let m := if new then s.mapPage t.val c a (pos / 256) else s
    let e := m.seqEntry a (pos / 256)
    s.canIssue t i f { form := .reg, d := .s, a := .s, b := .v 1, c := .s, ok := vtKv x } = true →
    scalarsBack (s.accs k) = true → a % 64 = 0 → inOwnDrum t.val a 64 = true → b + 2 * g ≤ 32 →
    rowsPending (s.accs k) b g = false → (∀ y ∈ rs, unitReadOk y.1 y.2 = true) → s.ownEarlier k rs [] = false →
    s.trafficHeld (cupolaIsland t.val) rs = false → s.spansError rs .clean = none → c < 16 →
    (∀ st, s.kvRefuse t.val c a pos = some st →
      ∃ u, exec (.kvapp t i f) s = .next u ∧ WentOn k d (BitVec.ofNat 64 st.code) s u ∧ ∀ j, u.trec j = s.trec j)
    ∧ (s.kvRefuse t.val c a pos = none → (new = true → ¬starves) → stores (kvStores a pos e.2.1 e.2.2 new) →
        ∃ u, exec (.kvapp t i f) s = .next u ∧ (u.seat k).s d = 0 ∧ (u.seat k).sc.pc = x.nextPc
          ∧ (∀ r, r ≠ d → (u.seat k).s r = x.s r) ∧ (u.seat k).sc.flags = x.sc.flags
          ∧ ((∀ j t2, j < 4 → regionOf (a + 4 + j) ≠ .ctxStore t2) → u.word (a + 4) = (pos + 1) % 2 ^ 32)
          ∧ (new = true → u.poolHead t.val c = (s.poolHead t.val c + 1) % s.poolSize t.val c)
          ∧ (new = false → u.poolHead t.val c = s.poolHead t.val c))
    ∧ (s.kvRefuse t.val c a pos = none → new = true → starves → stores [(a + 10, 1)] →
        ∃ u, exec (.kvapp t i f) s = .next u ∧ (u.trec k).st = .parked ∧ (u.trec k).reason = .kv ∧ (u.trec k).wakeDst = d
          ∧ (u.trec k).sc = { x.sc with pc := x.nextPc } ∧ u.seat k = default
          ∧ u.starved t.val c = s.starved t.val c ++ [k] ∧ u.bit .atnErr t.val c atnErr_starvedSeen = true
          ∧ u.poolHead t.val c = s.poolHead t.val c
          ∧ tget u.atn.parked k = (List.range (2 * g)).map fun j => x.vec (b + j))

/-! ### Contexts (R455 to R457, R471 to R473, R267) -/

/-- A fault on an ACTIVE context records it, takes the context to TEARDOWN with its cause, halts its queues and stops its threads, and
aborts the step group of a member; on a context being torn down or FAULTED it counts as a further one. Teardown ends, once all its
stores are performed, with CTX_FAULT raised after a fault, in FAULTED, or in NONE after CTX_DESTROY. A starved append that has waited
ATN_PAGE_TIMEOUT ticks faults its context with code 7 (R267, R456, R457, R471, R473, R476). -/
def Claims.ContextFaultsAndTeardown : Prop :=
  ∀ (s : State) (c : CtxId) (f : FaultInfo),
    let torn (u : State) : Prop := u.ctxState c.val = 2
      ∧ (∀ q ∈ ctxQueues, u.qHalted q.1 q.2 c.val = true ∧ u.q q.1 q.2 c.val = default)
      ∧ (∀ j, (s.trec j).ctx = c.val → (s.trec j).st ≠ .free → u.seat j = default)
      ∧ (∀ d : CtxId, d ≠ c → u.ctxState d.val = s.ctxState d.val)
      ∧ (s.member c.val = true → s.groupState = 1 ∨ s.groupState = 2 → u.groupState = 3)
    let raised (u : State) : Prop := (tget s.ctx.faults c.val).isSome = true → (tget s.irq.srcs (16 + c.val)).st = .idle →
      (tget u.irq.srcs (16 + c.val)).st = .pending
    (s.ctxState c.val = 1 →
      ∃ u r, exec (.contextFault c f) s = .next u ∧ torn u ∧ tget u.ctx.faults c.val = some r
        ∧ u.fld .ctlCtxState 0 c.val ctlCtxState_cause = f.cause.toNat
        ∧ r.cause = f.cause.toNat ∧ r.addr = f.addr.toNat ∧ r.pc = f.pc.toNat ∧ r.further = 0 ∧ r.tick = s.refclk
        ∧ r.threadsFreed = (s.ctxThreads c.val).length)
    ∧ (∀ r, s.ctxState c.val = 2 ∨ s.ctxState c.val = 3 → tget s.ctx.faults c.val = some r →
        ∃ u, exec (.contextFault c f) s = .next u ∧ u = { s with ctx := { s.ctx with faults := u.ctx.faults } }
          ∧ tget u.ctx.faults c.val = some { r with further := min (r.further + 1) (2 ^ 32 - 1) })
    ∧ (s.ctxState c.val = 2 → s.storesOut c.val = false →
        (tget s.ctx.destroying c.val = false →
          ∃ u, exec (.teardownComplete c) s = .next u ∧ u.ctxState c.val = 3 ∧ raised u
            ∧ tget u.ctx.faults c.val = tget s.ctx.faults c.val
            ∧ ∀ j ∈ s.ctxThreads c.val, u.trec j = default ∧ u.seat j = default)
        ∧ (tget s.ctx.destroying c.val = true →
            ∃ u, exec (.teardownComplete c) s = .next u ∧ u.ctxState c.val = 0 ∧ raised u ∧ tget u.ctx.faults c.val = none
              ∧ tget u.ctx.slotMask c.val = 0 ∧ ∀ j ∈ s.ctxThreads c.val, u.trec j = default ∧ u.seat j = default))
    ∧ (s.ctxState c.val ≠ 2 ∨ s.storesOut c.val = true → exec (.teardownComplete c) s = .next s)
    ∧ (∀ (t : Tower) (i : Nat), let r := s.trec (thrKey t.val i)
        r.st = .parked → r.reason = .kv → r.ctx = c.val → s.ctxState c.val = 1 →
        r.deadlineTick.toNat + (s.reg .atnPageTimeout t.val c.val).toNat ≤ s.refclk.toNat →
        ∃ u, exec (.kvPageTimeout t i) s = .next u ∧ torn u ∧ u.bit .atnErr t.val c.val atnErr_pageTimeout = true
          ∧ u.fld .ctlCtxState 0 c.val ctlCtxState_cause = 7)

/-! ### The step boundary (R32 to R46, R50 to R52, R345, R468) -/

/-- LOCAL_ARRIVAL: when every member context has arrived, the open settings become the staged ones and the step group stands at local
arrival. With every child's ARRIVE in and its epoch the same, a device that is no root sends its ARRIVE; the root commits: the step
number rises by one, the staged settings become active and the group runs again. Before that nothing happens (R34, R35, R37, R38,
R41). -/
def Claims.LocalArrival : Prop :=
  ∀ (s : State),
    let inAll := s.step.children.all fun c => s.step.arrives.any fun a => a.child == c
    let same := ∀ a ∈ s.step.arrives, a.epoch = s.step.openSet.epoch
    (s.allArrived = true → s.step.arriveSent = false →
      (inAll = false → ∃ u, exec .localArrival s = .next u ∧ u.groupState = 2 ∧ u.step.staged = s.step.openSet
        ∧ u.step.arriveTick = some s.refclk ∧ u.step.arriveSent = false ∧ u.stepNo = s.stepNo ∧ u.fab = s.fab)
      ∧ (inAll = true → same → s.isRoot = false →
          ∃ u, exec .localArrival s = .next u ∧ u.groupState = 2 ∧ u.step.staged = s.step.openSet
            ∧ u.step.active = s.step.active ∧ u.step.arriveSent = true ∧ u.stepNo = s.stepNo
            ∧ u.fab.nextTag = (s.fab.nextTag + 1) % 65536)
      ∧ (inAll = true → same → s.isRoot = true → s.red.held = [] → (∀ x ∈ s.ram.jobs, x.2.c < 16) →
          ∃ u, exec .localArrival s = .next u ∧ u.groupState = 1 ∧ u.step.active = s.step.openSet ∧ u.stepNo = s.stepNo + 1
            ∧ u.step.arrives = [] ∧ u.step.arriveSent = false ∧ u.step.arriveTick = none))
    ∧ (s.allArrived = false → exec .localArrival s = .next s)

/-- ARRIVE_TOKEN_RECEIVE holds a child's ARRIVE until this device arrives; COMMIT_TOKEN_RECEIVE at local arrival makes the staged
settings active, flips the banks of the pairs in use unless the vote skips the boundary, and runs the next step; a resent token that
came before is discarded and counted; one that fails the check of its tag or step aborts the group (R37, R39 to R42, R411). -/
def Claims.BarrierTokens : Prop :=
  ∀ (s : State) (p : Packet) (port : Nat) (k : Token), port ≤ 6 →
    let src := BitVec.ofNat 16 p.src
    let known := p.resent = true ∧ s.step.seen.contains (tokenId p.src k) = true
    let row (i : Instr) : Prop := (k.commit = true ∧ i = .commitTokenReceive p) ∨ (k.commit = false ∧ i = .arriveTokenReceive p)
    let flipped := s.step.staged.pairs.foldl (fun w n => w ^^^ BitVec.ofNat 32 (2 ^ n)) (s.reg .ctlBankCurrent 0 0)
    s.fab.rxLocal.find? (fun x => x.2 == p) = some (port, p) → p.kind = .token → tokenOf p.payload = some k →
    (k.commit = false → ¬known → k.tag = s.step.groupTag → k.step = s.stepNo → s.groupState = 1 →
      s.step.children.contains src = true → (∀ a ∈ s.step.arrives, a.child ≠ src) →
      ∃ u, exec (.arriveTokenReceive p) s = .next u ∧ u.groupState = 1 ∧ u.stepNo = s.stepNo
        ∧ u.step.arrives = s.step.arrives ++ [{ child := src, vote := k.vote, epoch := k.epoch }]
        ∧ u.fab.rxLocal = s.fab.rxLocal.erase (port, p))
    ∧ (k.commit = true → ¬known → k.tag = s.step.groupTag → k.step = s.stepNo → s.groupState = 2 → s.isRoot = false →
        src = s.step.parent → k.epoch = s.step.staged.epoch → s.red.held = [] → (∀ x ∈ s.ram.jobs, x.2.c < 16) →
        ∃ u, exec (.commitTokenReceive p) s = .next u ∧ u.groupState = 1 ∧ u.stepNo = s.stepNo + 1
          ∧ u.step.active = s.step.staged ∧ u.step.arrives = []
          ∧ u.reg .ctlBankCurrent 0 0 = if k.vote then s.reg .ctlBankCurrent 0 0 else flipped)
    ∧ (∀ i, row i → known →
        ∃ u, exec i s = .next u ∧ u.step = s.step ∧ (∀ q t2 i2, q ≠ .plynDupToken → t2 < 8 → i2 < 1024 →
            u.reg q t2 i2 = s.reg q t2 i2)
          ∧ u.fld .plynDupToken (portTower port) 0 plynDupToken_count
            = min (s.fld .plynDupToken (portTower port) 0 plynDupToken_count + 1) (2 ^ plynDupToken_count.width - 1))
    ∧ (∀ i, row i → ¬known → k.tag ≠ s.step.groupTag ∨ k.step ≠ s.stepNo → s.groupState = 1 ∨ s.groupState = 2 →
        ∃ u, exec i s = .next u ∧ u.groupState = 3 ∧ u.bit .ctlStepErr 0 0 ctlStepErr_tokenMismatch = true
          ∧ u.bit .ctlStepErr 0 0 ctlStepErr_aborted = true ∧ u.stepNo = s.stepNo ∧ u.step.staged = s.step.active)

/-- STEP_TIMEOUT notes, once in a step, that local arrival has lasted CTL_STEP_TIMEOUT ticks; while no step group exists each
100,000,000 refclk ticks count as a boundary (R46, R468). -/
def Obligations.StepTimeoutAndPeriods : Prop :=
  ∀ (s : State) (a : DWord),
    let lim := (s.reg .ctlStepTimeout 0 0).toNat
    (s.step.arriveTick = some a → s.groupState = 2 → lim ≠ 0 → s.step.timedOut = false → lim ≤ (s.refclk - a).toNat →
      ∃ u, exec .stepTimeout s = .next u ∧ u.step = { s.step with timedOut := true } ∧ OnlyReg .ctlStepErr 0 0 s { s with regs := u.regs }
        ∧ u.bit .ctlStepErr 0 0 ctlStepErr_timeout = true ∧ u = { s with step := u.step, regs := u.regs, irq := u.irq }
        ∧ ((tget s.irq.srcs 4).st = .idle → (tget u.irq.srcs 4).st = .pending
            ∧ (tget u.irq.srcs 4).arg.toNat = s.stepNo.toNat + 2 ^ 48))
    ∧ (lim = 0 ∨ s.step.timedOut = true ∨ s.groupState ≠ 2 ∨ s.step.arriveTick = none → exec .stepTimeout s = .next s)
    ∧ (s.groupState = 0 → 100000000 ≤ (s.refclk - s.ctx.periodTick).toNat →
        ∃ u, exec .noGroupPeriodTick s = .next u ∧ u.step.bounds = s.step.bounds + 1
          ∧ u.ctx = { s.ctx with periodTick := s.ctx.periodTick + 100000000 } ∧ ∀ b, u.byte b = s.byte b)
    ∧ (s.groupState ≠ 0 ∨ (s.refclk - s.ctx.periodTick).toNat < 100000000 → exec .noGroupPeriodTick s = .next s)

/-- How a lantern access with step tag T to a bank pair is decided, by the steps Ca and Cb whose state its ranges hold: served from the
range that holds T's state; held where T is later than both, stale where it is earlier than both; and otherwise served from the range
with the older state (R51, R563). -/
def Claims.LanternDecision : Prop :=
  ∀ (s : State) (p : Nat) (tag : Word),
    let ca := tget s.step.contentA p
    let cb := tget s.step.contentB p
    (tag = ca → s.lanternDecide p tag = .served p false)
    ∧ (tag ≠ ca → tag = cb → s.lanternDecide p tag = .served p true)
    ∧ (tag ≠ ca → tag ≠ cb → (tag - ca).toNat = 2 ^ 31 ∨ (tag - cb).toNat = 2 ^ 31 → s.lanternDecide p tag = .stale)
    ∧ (0 < (tag - ca).toNat → (tag - ca).toNat < 2 ^ 31 → 0 < (tag - cb).toNat → (tag - cb).toNat < 2 ^ 31 →
        s.lanternDecide p tag = .held p)
    ∧ (2 ^ 31 < (tag - ca).toNat → 2 ^ 31 < (tag - cb).toNat → s.lanternDecide p tag = .stale)
    ∧ (2 ^ 31 < (tag - ca).toNat → 0 < (tag - cb).toNat → (tag - cb).toNat < 2 ^ 31 → s.lanternDecide p tag = .served p true)
    ∧ (0 < (tag - ca).toNat → (tag - ca).toNat < 2 ^ 31 → 2 ^ 31 < (tag - cb).toNat → s.lanternDecide p tag = .served p false)

/-- A store held behind a lantern access, or for a snapshot, is performed once nothing holds it: its bits are replaced, and no other
byte, register, seat or access differs; while it is held nothing happens (R52, R345). -/
def Claims.HeldStoresAreReleased : Prop :=
  ∀ (s : State) (t : Tower) (i n : Nat) (a : Acc),
    let k := thrKey t.val i
    let bank := s.bankHeld [(a.addr, a.len)]
    let snap := s.snapHolds a.addr || s.snapHolds (a.addr + a.len - 1)
    let stored (c : Instr) : Prop := ∃ u, exec c s = .next u ∧ u.accs k = (s.accs k).eraseIdx n
      ∧ (∀ j, (u.num a.addr a.len).testBit j
          = if a.shift ≤ j ∧ j < a.shift + a.bits then a.data.testBit (j - a.shift) else (s.num a.addr a.len).testBit j)
      ∧ (∀ b, b < a.addr ∨ a.addr + a.len ≤ b → (∀ t, regionOf b ≠ .ctxStore t) → u.byte b = s.byte b)
      ∧ (∀ r t i, u.reg r t i = s.reg r t i) ∧ (∀ j, u.seat j = s.seat j) ∧ ∀ j, j ≠ k → u.accs j = s.accs j
    (s.accs k)[n]? = some a → a.kind = .store → PlainBytes a → (s.mirrorAt a.addr).isSome = false →
    (s.mirrorAt (a.addr + a.len - 1)).isSome = false →
    (a.held = .bank → bank = false → snap = false → stored (.bankStoreRelease t i n .clean))
    ∧ (a.held = .snapshot → bank = false → snap = false → stored (.snapshotHeldStoreRelease t i n .clean))
    ∧ (a.held ≠ .bank ∨ bank = true → exec (.bankStoreRelease t i n .clean) s = .next s)
    ∧ (a.held ≠ .snapshot ∨ snap = true → exec (.snapshotHeldStoreRelease t i n .clean) s = .next s)

/-! ### Descriptors and tile jobs (R83 to R148, R235 to R257) -/

/-- A descriptor that passes its checks is issued: it leaves its ring, joins the descriptors of its queue that run, samples the active
settings, and makes the queue wait for the commit if it is an eos descriptor of a member context. Tile jobs, attention jobs, sleeve
jobs and contributions are issued so (R41, R86, R87, R89, R127, R161, R244, R359). -/
def Claims.DescriptorsAreIssued : Prop :=
  ∀ (s : State) (t : Tower) (c : CtxId),
    let d := s.descWords .matrix t.val c.val
    let w := s.descWords .sleeve t.val c.val
    let r := s.descWords .reduction t.val c.val
    let entered (u : State) (k : QKind) (n : Nat) (eos : Bool) : Prop :=
      u.qHead k t.val c.val = (s.qHead k t.val c.val + 1) % s.qSize k t.val c.val
      ∧ (u.q k t.val c.val).running = (s.q k t.val c.val).running ++ [n]
      ∧ (u.q k t.val c.val).done = (s.q k t.val c.val).done
      ∧ u.qEosWait k t.val c.val = (eos && s.member c.val)
    let may (k : QKind) (prev : Nat) : Prop := s.qCanIssue k t.val c.val = true ∧ (prev = 1 → s.qIdle k t.val c.val = true)
    let fetched (k : QKind) : Prop := descRegionOk k t.val (s.descAddr k t.val c.val) = true
      ∧ s.trafficHeld (queueIsland k t.val) [(s.descAddr k t.val c.val, descBytes k)] = false
      ∧ s.knownBad (s.descAddr k t.val c.val) (descBytes k) = none
    (∀ j, s.mtxReady t.val c.val = true → fetched .matrix → descRoute d ≠ 2 → s.issueJob t.val c.val d = .ok j →
      ∃ u, exec (.tileJobIssue t c) s = .next u ∧ entered u .matrix s.mtx.nextJob (dfld d 0 22 22 == 1)
        ∧ u.job s.mtx.nextJob = j ∧ u.mtx.nextJob = s.mtx.nextJob + 1)
    ∧ (∀ j, s.mtxReady t.val c.val = true → fetched .matrix → descRoute d = 2 → s.attIssue t.val c.val d = .ok j →
        ∃ u, exec (.attentionJobIssue t c) s = .next u ∧ entered u .matrix s.mtx.nextJob (dfld d 0 22 22 == 1)
          ∧ u.job s.mtx.nextJob = j ∧ u.mtx.nextJob = s.mtx.nextJob + 1)
    ∧ (may .sleeve (dfld w 0 26 26) → fetched .sleeve →
        s.slvIssueChecks t.val c.val w = .ok () →
        ∃ u, exec (.sleeveIssue t c) s = .next u ∧ entered u .sleeve s.slv.nextJob (dfld w 0 24 24 == 1)
          ∧ (u.slvJob s.slv.nextJob).words = w ∧ (u.slvJob s.slv.nextJob).pass = 0
          ∧ (u.slvJob s.slv.nextJob).step = s.stepNo ∧ (u.slvJob s.slv.nextJob).sampled = s.sample c.val
          ∧ u.slv.nextJob = s.slv.nextJob + 1)
    ∧ (may .reduction (dfld r 0 4 4) → fetched .reduction → s.redChecks c.val r = none →
        (0 < r.getD 3 0 →
          ∃ u, exec (.contributeIssue t c) s = .next u ∧ entered u .reduction s.red.nextJob (dfld r 0 2 2 == 1)
            ∧ (u.redJob s.red.nextJob).words = r ∧ (u.redJob s.red.nextJob).accepted = 0
            ∧ (u.redJob s.red.nextJob).epoch = s.activeEpoch ∧ (u.redJob s.red.nextJob).sampled = s.sample c.val)
        ∧ (r.getD 3 0 = 0 →
            ∃ u, exec (.contributeIssue t c) s = .next u ∧ (u.q .reduction t.val c.val).done
              = (s.q .reduction t.val c.val).done
                ++ [{ words := [dfld r 1 15 0, 0, 0, 0, 0, 0, s.qHead .reduction t.val c.val, 0], after := none }]))

/-- A descriptor that fails a check is rejected: it leaves its ring and waits with a record that carries its tag, the status and zero
counts, the queue's error register notes it, and no job starts; one whose structures a unit may not touch faults its context; and a
queue that may not issue, or whose traffic waits, does nothing (R20, R87 to R89, R93, R121, R161, R359). -/
def Claims.DescriptorsAreRejected : Prop :=
  ∀ (s : State) (t : Tower) (c : CtxId) (st : Status),
    let d := s.descWords .matrix t.val c.val
    let w := s.descWords .sleeve t.val c.val
    let r := s.descWords .reduction t.val c.val
    let index (k : QKind) : Nat := s.qHead k t.val c.val
    let rejected (u : State) (k : QKind) (rec_ : List Nat) (eos : Bool) : Prop :=
      u.qHead k t.val c.val = (s.qHead k t.val c.val + 1) % s.qSize k t.val c.val
      ∧ (u.q k t.val c.val).running = (s.q k t.val c.val).running
      ∧ (u.q k t.val c.val).done = (s.q k t.val c.val).done ++ [{ words := rec_, after := none }]
      ∧ u.qEosWait k t.val c.val = (eos && s.member c.val)
      ∧ u.bit (qRegs k).err t.val c.val mtxQErr_rejected = true
      ∧ u.mtx.jobs = s.mtx.jobs ∧ u.slv.jobs = s.slv.jobs ∧ u.red.jobs = s.red.jobs ∧ ∀ b, u.byte b = s.byte b
    let may (k : QKind) (prev : Nat) : Prop := s.qCanIssue k t.val c.val = true ∧ (prev = 1 → s.qIdle k t.val c.val = true)
    let fetched (k : QKind) : Prop := descRegionOk k t.val (s.descAddr k t.val c.val) = true
      ∧ s.trafficHeld (queueIsland k t.val) [(s.descAddr k t.val c.val, descBytes k)] = false
      ∧ s.knownBad (s.descAddr k t.val c.val) (descBytes k) = none
    (s.mtxReady t.val c.val = true → fetched .matrix →
      (descRoute d ≠ 2 → s.issueJob t.val c.val d = .error (.reject st) →
        ∃ u, exec (.tileJobIssue t c) s = .next u
          ∧ rejected u .matrix [dfld d 2 15 0 + st.code * 2 ^ 16, 0, 0, 0, 0, 0, index .matrix, 0] (dfld d 0 22 22 == 1)
          ∧ u.fld .seqIssueStat t.val c.val seqIssueStat_lastStatus = st.code)
      ∧ (descRoute d = 2 → s.attIssue t.val c.val d = .error (.reject st) →
          ∃ u, exec (.attentionJobIssue t c) s = .next u
            ∧ rejected u .matrix [dfld d 2 15 0 + st.code * 2 ^ 16, 0, 0, 0, 0, 0, index .matrix, 0] (dfld d 0 22 22 == 1))
      ∧ (∀ unit b, descRoute d ≠ 2 → s.issueJob t.val c.val d = .error (.fault unit b) →
          exec (.tileJobIssue t c) s
            = .next (s.unitFault c.val t.val unit causeAddress b (dfld d 2 15 0) (index .matrix)))
      ∧ (∀ unit b, descRoute d = 2 → s.attIssue t.val c.val d = .error (.fault unit b) →
          exec (.attentionJobIssue t c) s
            = .next (s.unitFault c.val t.val unit causeAddress b (dfld d 2 15 0) (index .matrix)))
      ∧ (descRoute d ≠ 2 → s.issueJob t.val c.val d = .error .wait → exec (.tileJobIssue t c) s = .next s)
      ∧ (descRoute d = 2 → s.attIssue t.val c.val d = .error .wait → exec (.attentionJobIssue t c) s = .next s))
    ∧ (may .sleeve (dfld w 0 26 26) → fetched .sleeve →
        s.slvIssueChecks t.val c.val w = .error (.reject st) →
        ∃ u, exec (.sleeveIssue t c) s = .next u
          ∧ rejected u .sleeve [dfld w 1 15 0 + st.code * 2 ^ 16, 0, 0, 0, 0, index .sleeve, 0, 0] (dfld w 0 24 24 == 1))
    ∧ (may .reduction (dfld r 0 4 4) → fetched .reduction → s.redChecks c.val r = some st →
        ∃ u, exec (.contributeIssue t c) s = .next u
          ∧ rejected u .reduction [dfld r 1 15 0 + st.code * 2 ^ 16, 0, 0, 0, 0, 0, index .reduction, 0]
              (dfld r 0 2 2 == 1))
    ∧ (s.qCanIssue .matrix t.val c.val = false →
        exec (.tileJobIssue t c) s = .next s ∧ exec (.attentionJobIssue t c) s = .next s)
    ∧ (s.qCanIssue .sleeve t.val c.val = false → exec (.sleeveIssue t c) s = .next s)
    ∧ (s.qCanIssue .reduction t.val c.val = false → exec (.contributeIssue t c) s = .next s)

/-- A waiting tile job claims its slot, which is FILLING and, without acc_init, holds zeros; the next chunk of a tile group arrives on
the stage, with the operands of every tile of the group; and the free array takes the next chunk of the job that the arbiter serves
(R98, R99, R107, R132, R465). -/
def Claims.TileJobsClaimStageAndIssue : Prop :=
  ∀ (s : State) (n i tg win : Nat) (t : Tower) (aged : Option Nat),
    let j := s.job n
    let x := j.tile i
    let p := s.tileSlot j x
    let ts := j.stageTiles tg
    let mayRead (c : Nat) : Prop := (∀ y ∈ j.stageA ts c, unitReadOk y.1 y.2 = true
        ∧ (j.mantleA (ts.headD default) = true → mantleSpanOk y.1 y.2 = true))
      ∧ (∀ y ∈ s.stageB j ts c, unitReadOk y.1 y.2 = true) ∧ s.ctxWriteOk j.sampled j.c j.stageArea.1 j.stageArea.2 = true
      ∧ s.trafficHeld (cupolaIsland j.t) (s.stageSpans j ts c) = false ∧ ∀ y ∈ s.stageSpans j ts c, s.knownBad y.1 y.2 = none
    (s.canClaim n i = true → x.st = .waiting → x.omitted = false → j.tileChunks x ≠ 0 →
      ∃ u, exec (.slotClaim n i) s = .next u ∧ u.slotSt j.t p = .filling
        ∧ (u.job n).tile i = { x with st := .filling, begun := true } ∧ (u.job n).tilesComputed = j.tilesComputed + 1
        ∧ (∀ b, slotAddr j.t p ≤ b → b < slotAddr j.t p + 0x100000 → u.byte b =
            if j.accInit = true ∧ j.att = none ∨ x.sharesSlot = true then s.byte b else 0)
        ∧ (∀ b, b < slotAddr j.t p ∨ slotAddr j.t p + 0x100000 ≤ b → u.byte b = s.byte b)
        ∧ ∀ r t i, u.reg r t i = s.reg r t i)
    ∧ (s.canClaim n i = false → exec (.slotClaim n i) s = .next s)
    ∧ (∀ c, s.hasJob n = true → j.nextStage tg = some c → mayRead c →
        ∃ u st, exec (.stageChunkArrive n tg .clean) s = .next u ∧ u = { s with mtx := u.mtx }
          ∧ (u.job n).staged = j.staged ++ [st] ∧ st.tgroup = tg ∧ st.chunk = c ∧ (u.job n).tiles = j.tiles
          ∧ ∀ y ∈ ts, ∀ m l, y.row0 ≤ m → m < y.row1 → y.col0 ≤ l → l < y.col1 →
              sparseGet st.a [] m = (j.chunkKs (ts.headD default) c).map (s.opA j (ts.headD default) m)
              ∧ sparseGet st.b [] l = (j.chunkKs (ts.headD default) c).map fun k =>
                  if s.deadAt j (ts.headD default) l k = true then none else some (s.opB j (ts.headD default) l k))
    ∧ (∀ m y k, tget s.mtx.array t.val = none → s.grantJob t.val win aged = some m → (s.job m).ready.head? = some (y, k) →
        ∃ u, exec (.chunkIssue t win aged) s = .next u ∧ u = { s with mtx := u.mtx }
          ∧ tget u.mtx.array t.val = some { job := m, tile := k, chunk := y.chunk }
          ∧ (u.job m).slabsSkipped
            = (s.job m).slabsSkipped + ((s.slabCounts (s.job m) y).2 - (s.slabCounts (s.job m) y).1)
          ∧ (u.job m).tiles = (s.job m).tiles)
    ∧ ((tget s.mtx.array t.val).isSome = true → exec (.chunkIssue t win aged) s = .next s)

/-- CHUNK_FOLD of a floating-point chunk with a live slab adds to every in-bounds element of the tile the chunk's sum, rounded
stochastically with the generator's value for its element; it changes no other byte, and the array is free again (R71, R72, R77,
R99). -/
def Claims.ChunkFold : Prop :=
  ∀ (s : State) (t : Tower) (g : Granted),
    let j := s.job g.job
    let x := j.tile g.tile
    let p := s.tileSlot j x
    let st := (j.staged.find? fun y => y.tgroup == x.tgroup && y.chunk == x.chunk).getD default
    let inside (m n : Nat) : Prop := x.row0 ≤ m ∧ m < x.row1 ∧ x.col0 ≤ n ∧ n < x.col1
    let rnd (m n : Nat) : Nat :=
      srFold (s.reg .ctlSrSeedLo 0 0) (s.reg .ctlSrSeedHi 0 0) j.srStep n m (x.counter st.chunk) j.srStream
    tget s.mtx.array t.val = some g → j.intJob = false → (s.slabCounts j x).1 ≠ 0 → x.col1 ≤ x.col0 + j.cols →
    ∃ u, exec (.chunkFold t .clean) s = .next u ∧ tget u.mtx.array t.val = none
      ∧ (∀ m n, inside m n → u.word (j.accAddr p x m n)
          = foldFp (s.word (j.accAddr p x m n)) (chunkSum (sparseGet st.a [] m) (sparseGet st.b [] n)) (rnd m n) % 2 ^ 32)
      ∧ (∀ b, (∀ m n, inside m n → b < j.accAddr p x m n ∨ j.accAddr p x m n + 4 ≤ b) → u.byte b = s.byte b)
      ∧ ∀ r t i, u.reg r t i = s.reg r t i

/-- At the end of a segment a partial goes to its spill slot, byte for byte, and its slot becomes FREE; a spilled partial comes back
into the slot its tile has claimed; a drained tile leaves its slot FREE; and an omitted tile's row is copied from its reference row
(R97, R112, R145, R146, R567). -/
def Claims.TilesSpillReloadDrainAndCopy : Prop :=
  ∀ (s : State) (n i : Nat) (t : Tower) (slot : BitVec 5),
    let j := s.job n
    let x := j.tile i
    let p := s.tileSlot j x
    let a := slotAddr j.t p
    let b := j.spillAddr x
    let plain (v w : Nat) : Prop := ∀ l t2, l < w → regionOf (v + l) ≠ .ctxStore t2
    (s.hasJob n = true → x.st = .filling → x.due = true → s.ctxWriteOk j.sampled j.c b 0x100000 = true →
      s.storesHeld (cupolaIsland j.t) [(b, 0x100000)] = false →
      ∃ u, exec (.spillPartial n ⟨i, .clean⟩) s = .next u ∧ u.slotSt j.t p = .free ∧ (u.job n).spillCount = j.spillCount + 1
        ∧ (u.job n).tile i = { x with st := .spilled, begun := false, due := false }
        ∧ (plain b 0x100000 → ∀ l, l < 0x100000 → u.byte (b + l) = s.byte (a + l)))
    ∧ (s.hasJob n = true → x.st = .spilled → x.begun = true → s.trafficHeld (cupolaIsland j.t) [(b, 0x100000)] = false →
        s.knownBad b 0x100000 = none →
        ∃ u, exec (.reloadPartial n ⟨i, .clean⟩) s = .next u ∧ (u.job n).tile i = { x with st := .filling }
          ∧ ∀ l, l < 0x100000 → u.byte (a + l) = s.byte (b + l))
    ∧ (s.drainingTile t.val slot.toNat = some (n, i) → x.st = .draining →
        (j.route = 1 → x.sent = x.elements →
          ∃ u, exec (.slotDrainComplete t slot .clean) s = .next u ∧ u.slotSt j.t p = .free
            ∧ (u.job n).tile i = { x with st := .done } ∧ ∀ v, u.byte v = s.byte v)
        ∧ (j.route = 0 → s.tileWriteOk j x = true → s.storesHeld (cupolaIsland t.val) (j.tileSpans x) = false →
            ∃ u, exec (.slotDrainComplete t slot .clean) s = .next u ∧ u.slotSt j.t p = .free
              ∧ (u.job n).tile i = { x with st := .done } ∧ ∀ v, u.byte v = (s.storeTile j p x).1.byte v))
    ∧ (s.drainingTile t.val slot.toNat = none → exec (.slotDrainComplete t slot .clean) s = .next s)
    ∧ (s.hasJob n = true → x.st = .copying → j.copyWaits i = false →
        (∀ y ∈ j.copySpans x, unitReadOk y.1 y.2 = true ∧ s.knownBad y.1 y.2 = none) → s.tileWriteOk j x = true →
        s.trafficHeld (cupolaIsland j.t) (j.copySpans x) = false → s.storesHeld (cupolaIsland j.t) (j.tileSpans x) = false →
        ∃ u, exec (.tileCopy n ⟨i, .clean⟩) s = .next u ∧ (u.job n).tile i = { x with st := .done }
          ∧ ∀ m, x.rowsIn = [m] → j.fmtOut.isMx = false →
              let (o, w) := j.outSpan x.col0 x.col1
              plain (j.outRow m + o) w → ∀ l, l < w →
                u.byte (j.outRow m + o + l) = s.byte (j.outRow (m - j.desc.getD 26 0) + o + l))

/-- A matrix descriptor whose tile jobs are complete completes with its record; an attention job once its query tiles are finalised, a
backward one with its visit bitmap written (R88, R118, R238, R257). -/
def Claims.DescriptorsComplete : Prop :=
  ∀ (s : State) (n : Nat),
    let j := s.job n
    let ended (u : State) : Prop := u.hasJob n = false
      ∧ (u.q .matrix j.t j.c).done = (s.q .matrix j.t j.c).done ++ [{ words := j.record, after := none }]
      ∧ (u.q .matrix j.t j.c).running = (s.q .matrix j.t j.c).running.filter (· != n)
    s.hasJob n = true →
    ((∀ x ∈ j.tiles, x.st = .done) →
      (j.att = none → ∃ u, exec (.descriptorComplete n) s = .next u ∧ ended u)
      ∧ (∀ a, j.att = some a → j.n = 0 → ∃ u, exec (.descriptorComplete n) s = .next u ∧ ended u)
      ∧ (∀ a, j.att = some a → j.n ≠ 0 → a.fwd = true →
          (j.m ≤ a.finalised * j.rows → ∃ u, exec (.descriptorComplete n) s = .next u ∧ ended u)
          ∧ (a.finalised * j.rows < j.m → exec (.descriptorComplete n) s = .next s))
      ∧ (∀ a, j.att = some a → j.n ≠ 0 → a.fwd = false →
          let m := visitMap j a
          let b := daddr a.words 26
          s.atnStop j [] [(b, m.length)] .clean = none →
          ∃ u, exec (.descriptorComplete n) s = .next u ∧ ended u
            ∧ (j.stageArea.2 = 0 → j.spillArea.2 = 0 → ∀ l v, m[l]? = some v → (∀ t2, regionOf (b + l) ≠ .ctxStore t2) →
                u.byte (b + l) = v)))
    ∧ ((∃ x ∈ j.tiles, x.st ≠ .done) → exec (.descriptorComplete n) s = .next s)

/-- SCORE_TILE_DRAIN makes a folded score tile's slot FREE. In a forward job it takes its rows' running maximum and sum on, stores the
row of P on the stage, and multiplies the output row by alpha where the query tile has one; in a backward job it stores the row of P
or dS. It waits for the job's earlier value products. ATTENTION_FINALISE stores a query tile's output rows, O divided by l, with their
statistics, the empty encoding for a row without a live pair, and frees the output slot (R238 to R240, R250, R252 to R256). -/
def Obligations.AttentionDrainsAndFinalises : Prop :=
  ∀ (s : State) (n i kt : Nat) (a : Att),
    let j := s.job n
    let x := j.tile i
    let p := s.tileSlot j x
    let rs := MtxJob.drainReads a x
    let ws := j.drainWrites a x
    let isScore (y : Tile) : Prop := ∃ k, y.role = .score k
    let r0 := a.finalised * j.rows
    let rows := (List.range (min j.m (r0 + j.rows) - r0)).map (r0 + ·)
    let mine := j.tiles.filter fun y => y.row0 == r0
    let mayWrite (l : List (Nat × Nat)) : Prop := (∀ y ∈ l, s.pathWriteOk j.sampled j.t j.c y.1 y.2 = true)
      ∧ s.storesHeld (cupolaIsland j.t) l = false
    let row (m : Nat) : RowOut := softRow a (a.stat m) ((List.range j.cols).map fun l => s.zOf j a x m (kt * j.cols + l))
    let stored (u : State) (b : Nat) (bs : List Byte) : Prop := ∀ l v, bs[l]? = some v →
      (∀ t2, regionOf (b + l) ≠ .ctxStore t2) → u.byte (b + l) = v
    let out (m l : Nat) : Nat := slotAddr j.t (s.outSlot j) + ((m - x.row0) * j.cols + l) * 4
    s.hasJob n = true → j.att = some a →
    (x.role = .score kt → x.st = .draining → (∀ y ∈ j.tiles.take i, y.st = .done ∨ isScore y) →
      (∀ y ∈ rs, unitReadOk y.1 y.2 = true ∧ s.knownBad y.1 y.2 = none) → s.trafficHeld (cupolaIsland j.t) rs = false →
      mayWrite ws →
      ∃ u, exec (.scoreTileDrain n i .clean) s = .next u ∧ u.slotSt j.t p = .free ∧ ((u.job n).tile i).st = .done
        ∧ (∀ m, a.fwd = true → x.rowsIn.head? = some m → ∃ b, (u.job n).att = some b ∧ b.stat m = (row m).stat)
        ∧ (∀ m, a.fwd = true → x.rowsIn = [m] → x.place = 0 →
            stored u (j.stageAddr a (x.visit % 2) (m - x.row0) 0) ((row m).p.flatMap (bytesOf (a.fmtP.bits / 8))))
        ∧ (∀ m v, a.fwd = true → x.rowsIn = [m] → x.place ≠ 0 → (row m).alpha = some v →
            (let b := j.stageAddr a (x.visit % 2) (m - x.row0) 0
             let w := ((row m).p.flatMap (bytesOf (a.fmtP.bits / 8))).length
             ∀ l, l < j.n → (b + w ≤ out m l ∨ out m l + 4 ≤ b) ∧ ∀ q t2, q < 4 → regionOf (out m l + q) ≠ .ctxStore t2) →
            ∀ l, l < j.n → u.word (out m l) = (fpMul ffFp32 (ffFp32.decode (s.word (out m l))) v).code % 2 ^ 32)
        ∧ (∀ m, a.fwd = false → a.pass = 1 → x.rowsIn = [m] →
            stored u (a.backWrite x m).1 (x.colsIn.flatMap fun l =>
              bytesOf (a.fmtP.bits / 8) (a.fmtP.encode (s.recompElem j a x m l)).code))
        ∧ ∀ m, a.pass = 2 → x.rowsIn = [m] →
            stored u (a.backWrite x m).1 (x.colsIn.flatMap fun l =>
              bytesOf (a.fmtO.bits / 8) (a.fmtO.encode (s.gradElem j a x m l)).code))
    ∧ (x.role = .score kt → (∃ y ∈ j.tiles.take i, y.st ≠ .done ∧ ¬ isScore y) →
        exec (.scoreTileDrain n i .clean) s = .next s)
    ∧ (a.fwd = true → j.n ≠ 0 → r0 < j.m → (∀ y ∈ mine, y.st = .done) → mayWrite (a.finalWrites j.n rows) →
        ∃ u, exec (.attentionFinalise ⟨n, .clean⟩) s = .next u
          ∧ (∃ b, (u.job n).att = some b ∧ b.finalised = a.finalised + 1)
          ∧ (mine ≠ [] → u.slotSt j.t (s.physSlot j.c j.t j.slotBase) = .free)
          ∧ (∀ r, rows.getLast? = some r → daddr a.words 16 + 8 * r + 8 ≤ 0x018000000000 →
              let st := a.stat r
              let v := u.word (daddr a.words 16 + 8 * r)
              let l := u.word (daddr a.words 16 + 8 * r + 4)
              (st.l = 0 → v = 0xFF800000 ∧ l = 0) ∧ (0 < st.l → st.l < 0x7F800000 → v = st.m % 2 ^ 32 ∧ l = st.l))
          ∧ ∀ r, rows = [r] → 0 < (a.stat r).l → (a.stat r).l < 0x7F800000 →
              let o := daddr a.words 18 + r * a.ldo
              let bs := (List.range j.n).flatMap fun l => bytesOf (a.fmtO.bits / 8)
                (a.fmtO.encode (f32 (fpDiv ffFp32
                  (ffFp32.decode (s.word (slotAddr j.t (s.outSlot j) + 4 * l))) (ffFp32.decode (a.stat r).l)))).code
              o + bs.length ≤ daddr a.words 16 + 8 * r ∨ daddr a.words 16 + 8 * r + 8 ≤ o → stored u o bs)

/-! ### The sleeve engine (R150 to R167) -/

/-- A pass of the sleeve engine writes its outputs, each position's values in the output format, and nothing else, and counts its
cycles; after the last pass the job completes with its record, or waits for its hand-off, which writes the tail of the matrix queue
where it lies within the ring and notes tail_ignored where it does not, and then completes. A pass whose traffic waits stores nothing
(R20, R150, R158, R164, R166). -/
def Obligations.SleevePassesAndHandoff : Prop :=
  ∀ (s : State) (t : Tower) (aged : Option Nat) (n : Nat),
    let j := s.slvJob n
    let granted := tget s.slv.cur t.val = some n ∨ tget s.slv.cur t.val = none ∧ s.slvNext t.val aged = some n
    let mayRun := (∀ y ∈ j.readSpans, unitReadOk y.1 y.2 = true ∧ s.knownBad y.1 y.2 = none)
      ∧ (j.inMantle ≠ 0 → ∀ y ∈ j.inSpans, mantleSpanOk y.1 y.2 = true)
      ∧ (∀ y ∈ j.writeSpans, s.ctxWriteOk j.sampled j.c y.1 y.2 = true ∧ (j.outMantle ≠ 0 → mantleSpanOk y.1 y.2 = true))
    let held := s.trafficHeld (cupolaIsland j.t) j.readSpans || s.storesHeld (cupolaIsland j.t) j.writeSpans
    let done (u : State) (r : List Nat) : Prop := (u.q .sleeve j.t j.c).done
        = (s.q .sleeve j.t j.c).done ++ [{ words := r, after := none }]
      ∧ (u.q .sleeve j.t j.c).running = (s.q .sleeve j.t j.c).running.filter (· != n)
      ∧ (u.slv.jobs.any fun x => x.1 == n) = false
    let v := dfld j.words 27 15 0
    (granted → mayRun → held = false →
      ∃ u, exec (.sleevePassComplete t aged .clean) s = .next u
        ∧ (∀ b, u.byte b = ((s.slvGrant t.val aged).slvPassOutputs n).byte b)
        ∧ (j.outMantle = 0 → j.fmtOut.delayed = false → j.fmtOut.bits % 8 = 0 →
            (∀ b, (∀ y ∈ j.writeSpans, b < y.1 ∨ y.1 + y.2 ≤ b) → (∀ t2, regionOf b ≠ .ctxStore t2) → u.byte b = s.byte b)
            ∧ ∀ m, slvRows j.words j.pass = [m] →
                let cs := (List.range (slvCout j.words)).map fun c => (j.fmtOut.encode (s.slvValue j m c)).code
                ∀ l b, (packCodes j.fmtOut.bits cs)[l]? = some b → (∀ t2, regionOf ((j.outSpan m).1 + l) ≠ .ctxStore t2) →
                  u.byte ((j.outSpan m).1 + l) = b)
        ∧ (j.pass + 1 < slvPasses j.words → (u.slvJob n).pass = j.pass + 1 ∧ tget u.slv.cur t.val = some n)
        ∧ (slvPasses j.words ≤ j.pass + 1 → (j.tailEn = true → (u.slvJob n).tailDue = true)
            ∧ (j.tailEn = false → ∃ (k : SlvJob) (stall : Nat), k.words = j.words ∧ k.index = j.index ∧ k.pass = j.pass + 1
                ∧ k.busy = min (j.busy + slvPassCycles j.words) (2 ^ 32 - 1) ∧ done u (k.record false false stall))))
    ∧ (granted → mayRun → held = true → ∃ u, exec (.sleevePassComplete t aged .clean) s = .next u
        ∧ u = { s with slv := { s.slv with cur := u.slv.cur, lastCtx := u.slv.lastCtx } } ∧ tget u.slv.cur t.val = some n)
    ∧ (tget s.slv.cur t.val = none → s.slvNext t.val aged = none → exec (.sleevePassComplete t aged .clean) s = .next s)
    ∧ ((s.slv.jobs.any fun x => x.1 == n) = true → j.tailDue = true → j.t < 8 → j.c < 16 →
        (v < s.qSize .matrix j.t j.c →
          ∃ u stall, exec (.sleeveTailHandoff n) s = .next u ∧ u.qTail .matrix j.t j.c = v
            ∧ done u (j.record true false stall))
        ∧ (s.qSize .matrix j.t j.c ≤ v →
            ∃ u stall, exec (.sleeveTailHandoff n) s = .next u ∧ u.qTail .matrix j.t j.c = s.qTail .matrix j.t j.c
              ∧ u.bit .slvQErr j.t j.c slvQErr_tailIgnored = true ∧ done u (j.record false true stall)))

/-! ### Movers (R336 to R340) -/

/-- MOVER_ISSUE issues the descriptor at the head of the mover queue, its context's settings sampled, with its parts to start, those without
rows done, or rejects it with the status of the first check that fails; MOVER_TRANSFER_COMPLETE ends a transfer whose parts have all ended with its record, OK or
TRANSFER_PARTIAL, and its status word (R87, R337 to R339). -/
def Claims.MoverTransfersStartAndEnd : Prop :=
  ∀ (s : State) (t : Tower) (c : CtxId) (n : Nat),
    let w := s.descWords .mover t.val c.val
    let a := s.descAddr .mover t.val c.val
    let j := s.mvJob n
    let status : Status := if j.firstFailed.isSome then .transferPartial else .ok
    let sp := daddr j.words 11
    let ended (p : MvPart) : Prop := p.st = .done ∨ p.st = .failed ∨ p.st = .abandoned
    (s.qCanIssue .mover t.val c.val = true → (dfld w 0 16 16 = 1 → s.qIdle .mover t.val c.val = true) →
      descRegionOk .mover t.val a = true → s.trafficHeld (drumIsland t.val) [(a, 64)] = false → s.knownBad a 64 = none →
      (firstFail (s.mvChecks t.val w) = none →
        ∃ u, exec (.moverIssue t c) s = .next u
          ∧ u.qHead .mover t.val c.val = (s.qHead .mover t.val c.val + 1) % s.qSize .mover t.val c.val
          ∧ (u.q .mover t.val c.val).running = (s.q .mover t.val c.val).running ++ [s.ram.nextJob]
          ∧ (u.mvJob s.ram.nextJob).words = w ∧ (u.mvJob s.ram.nextJob).c = c.val
          ∧ (u.mvJob s.ram.nextJob).sampled = s.sample c.val
          ∧ (u.mvJob s.ram.nextJob).parts.length = mvParts w
          ∧ ∀ i, i < mvParts w → ((u.mvJob s.ram.nextJob).part i).st = if mvCount w i = 0 then .done else .waiting)
      ∧ ∀ st, firstFail (s.mvChecks t.val w) = some st →
          ∃ u, exec (.moverIssue t c) s = .next u
            ∧ u.qHead .mover t.val c.val = (s.qHead .mover t.val c.val + 1) % s.qSize .mover t.val c.val
            ∧ (u.q .mover t.val c.val).done = (s.q .mover t.val c.val).done
                ++ [{ words := [dfld w 1 15 0 + st.code * 2 ^ 16, 0, 0, 0, 0, 0, s.qHead .mover t.val c.val, 0], after := none }]
            ∧ u.bit .memMvErr t.val c.val mtxQErr_rejected = true ∧ u.ram = s.ram)
    ∧ (s.qCanIssue .mover t.val c.val = false → exec (.moverIssue t c) s = .next s)
    ∧ (s.hasMv n = true → (∀ p ∈ j.parts, ended p) →
        ∃ u, exec (.moverTransferComplete n) s = .next u ∧ u.hasMv n = false
          ∧ (u.q .mover j.t j.c).done = (s.q .mover j.t j.c).done
              ++ [{ words := j.record, after := if sp = 0 then none else some (sp, dfld j.words 1 15 0 * 2 ^ 16 + status.code, j.sampled) }]
          ∧ (j.firstFailed.isSome = true → u.bit .memMvErr j.t j.c memMvErr_partial = true) ∧ ∀ b, u.byte b = s.byte b)
    ∧ (s.hasMv n = true → (∃ p ∈ j.parts, ¬ended p) → exec (.moverTransferComplete n) s = .next s)

/-- MOVER_PART_START starts the first part that waits when a mover of the tower is free and no normal transfer comes first, or that of the
oldest normal transfer which has waited 4,096 cycles;
MOVER_PART_COMPLETE stores the rows of a part, a copied row byte for byte and a filled one with its pattern; MOVER_PART_FAIL fails a
part on an uncorrectable error and abandons the parts not started (R319, R336, R338, R340, R467). -/
def Claims.MoverParts : Prop :=
  ∀ (s : State) (n i a m : Nat),
    let j := s.mvJob n
    let w := j.words
    let p := j.part i
    let r := mvLo w i
    let old := s.hasMv m = true ∧ (s.mvJob m).t = j.t ∧ (s.mvJob m).normal = true ∧ (s.mvJob m).hasWaiting = true
    let plain (m : Nat) : Prop := ∀ l t2, l < m → regionOf (mvDstAddr w r + l) ≠ .ctxStore t2
    s.hasMv n = true →
    (j.parts.findIdx? (fun p => p.st == .waiting) = some i → s.partFault j i = none →
      (s.moversBusy j.t < 4 → (j.normal = true ∨ ∀ x ∈ s.ram.jobs, ¬(x.2.t = j.t ∧ x.2.normal = true ∧ x.2.hasWaiting = true)) →
        ∃ u, exec (.moverPartStart ⟨n, none⟩) s = .next u ∧ ((u.mvJob n).part i).st ≠ .waiting
          ∧ (s.srcHere w = true → s.dstHere w = true → u = s.setPart n i { p with st := .running })
          ∧ (s.srcHere w = false → dfld w 0 11 10 = 1 → 0 < mvCount w i * mvSrcRow w → p.rpos = 0 → p.tag = none → p.host = false →
              ((u.mvJob n).part i).st = .running ∧ ((u.mvJob n).part i).tag = some s.fab.nextTag
              ∧ u.fab.nextTag = (s.fab.nextTag + 1) % 65536))
      ∧ (j.normal = false → (∃ x ∈ s.ram.jobs, x.2.t = j.t ∧ x.2.normal = true ∧ x.2.hasWaiting = true) →
          exec (.moverPartStart ⟨n, none⟩) s = .next s)
      ∧ (4 ≤ s.moversBusy j.t → exec (.moverPartStart ⟨n, none⟩) s = .next s))
    ∧ (old → exec (.moverPartStart ⟨n, some m⟩) s = exec (.moverPartStart ⟨m, none⟩) s)
    ∧ (¬old → exec (.moverPartStart ⟨n, some m⟩) s = exec (.moverPartStart ⟨n, none⟩) s)
    ∧ (p.st = .running → p.tag = none → p.host = false → s.readsLeft j i = false → s.writesLeft j i = false →
        s.partFault j i = none → (∀ x ∈ s.partSrc j i, s.knownBad x.1 x.2 = none) →
        s.trafficHeld (drumIsland j.t) (s.partSrc j i) = false → s.storesHeld (drumIsland j.t) (s.partDst j i) = false →
        ∃ u, exec (.moverPartComplete n i .clean) s = .next u ∧ ((u.mvJob n).part i).st = .done
          ∧ (∀ m, m ≠ i → (u.mvJob n).part m = j.part m) ∧ (u.mvJob n).stored = s.step.bounds
          ∧ (s.dstHere w = true → mvCount w i = 1 →
              (dfld w 0 2 0 = 0 → s.srcHere w = true → plain (w.getD 3 0) →
                ∀ l, l < w.getD 3 0 → u.byte (mvDstAddr w r + l) = s.byte (mvSrcAddr w r + l))
              ∧ (dfld w 0 2 0 = 1 → plain (w.getD 3 0) →
                ∀ l, l < w.getD 3 0 → u.byte (mvDstAddr w r + l)
                  = BitVec.ofNat 8 (w.getD 13 0 / 2 ^ (8 * ((mvDstAddr w r + l) % 4))))))
    ∧ (p.st = .running → (∃ x ∈ s.partSrc j i, x.1 ≤ a ∧ a < x.1 + x.2) → a < 0x018000000000 ∨ inDrum a = true →
        ∃ u, exec (.moverPartFail n i a) s = .next u ∧ ((u.mvJob n).part i).st = .failed
          ∧ (u.mvJob n).firstFailed = some (j.firstFailed.getD i) ∧ badLine a ∈ u.ram.bad
          ∧ (∀ m, m ≠ i → ((u.mvJob n).part m).st = if m < j.parts.length ∧ (j.part m).st = .waiting then .abandoned
              else (j.part m).st)
          ∧ ∀ c : CtxId, u.ctxState c.val = s.ctxState c.val)
    ∧ (p.st ≠ .running → exec (.moverPartFail n i a) s = .next s)

/-! ### Exact reduction (R349 to R382) -/

/-- CONTRIBUTION_ACCEPT adds the value, converted to an integer under its bucket's scale, to its element's 64-bit sum, whose segment
starts at zero in a new step, and counts it; a contribution that would open a bucket too many waits, and BUCKET_OPEN takes the first
that waits once it may (R79, R356, R361, R364). -/
def Claims.ContributionsAreAdded : Prop :=
  ∀ (s : State) (src : RedSource) (k : Contribution) (g : Grp),
    let key := grpKey k.group k.epoch
    let x := s.bucket g k.bucket
    let o := shardOf x g k.elem
    let i := (k.elem - shardLo x g o) / 4096
    let c := segCtl x g o i
    let a := sumAddr x k.elem
    let s1 := (s.startRun key k.bucket x).touchSeg x g o i
    let lim : Int := if g.narrow then 2 ^ 15 - 1 else 2 ^ 31 - 1
    let q := (convInt (-lim) lim ((ffFp32.decode k.value).scale (-k.sAct))).val
    let plain (b n : Nat) : Prop := ∀ l t2, l < n → regionOf (b + l) ≠ .ctxStore t2
    s.nextContribution src = some k → s.contribFault src .clean = none → s.grpFor k.group k.epoch = some g →
    g.aborted = false →
    s.contribWaits src k g = false →
    (s.mayOpen key k.bucket = true → s.red.faults = [] → k.elem < x.elements → s1.knownBad a 8 = none → s1.knownBad c 16 = none →
      s1.segFlag c 1 = false → s1.segFlag c 3 = false → s1.word (c + 4) + 1 < segLen x g o i * g.per → plain a 8 → plain c 16 →
      ∃ u, exec (.contributionAccept src .clean) s = .next u
        ∧ u.sumAt a = untwos 64 (twos 64 (s1.sumAt a + q)) ∧ u.word (c + 4) = s1.word (c + 4) + 1
        ∧ (∀ b, b < a ∨ a + 8 ≤ b → b < c ∨ c + 16 ≤ b → (∀ t2, regionOf b ≠ .ctxStore t2) → u.byte b = s1.byte b)
        ∧ u.fab = s.fab)
    ∧ (s.mayOpen key k.bucket = false → s.red.waiting.contains src = false →
        ∃ u, exec (.contributionAccept src .clean) s = .next u ∧ u = { s with red := { s.red with waiting := s.red.waiting ++ [src] } })
    ∧ (s.mayOpen key k.bucket = true → s.red.waiting = [src] →
        exec .bucketOpen s = exec (.contributionAccept src .clean) { s with red := { s.red with waiting := [] } })
    ∧ (s.mayOpen key k.bucket = false → s.red.waiting = [src] → exec .bucketOpen s = .next s)

/-- A partial for the present step and layout epoch adds its elements to the work area's sums; a message for the next step is held, its
receive slots kept, where this device stands at local arrival and staged that epoch; any other aborts its group with EPOCH_MISMATCH. A summary joins its
bucket's summaries, and an abort notice is noted once (R366, R367, R370, R375, R376, R380). -/
def Claims.ReductionMessages : Prop :=
  ∀ (s : State) (p : Packet) (port : Nat),
    let h := redHdrOf p.payload
    let key := grpKey h.group h.epoch
    let g := s.grp key
    let x := s.bucket g h.bucket
    let c := segCtl x g h.shard h.segment
    let lo := segLo x g h.shard h.segment
    let n := wireBytes h.wire64
    let spans := segSpans x g h.shard h.segment
    let t := portTower port
    let s0 := { s with fab := { s.fab with rxLocal := s.fab.rxLocal.erase (port, p) } }
    let s1 := ((s0.returnSlots port p).startRun key h.bucket x).touchSeg x g h.shard h.segment
    let plain (b n : Nat) : Prop := ∀ l t2, l < n → regionOf (b + l) ≠ .ctxStore t2
    let row (c : Instr) : Prop := (h.kind = 0 ∧ c = .partialReceive p .clean) ∨ (h.kind = 1 ∧ c = .summaryReceive p)
    s.received p .reduce = some port → port < 6 → s.red.faults = [] →
    (h.kind = 0 → g.aborted = false → s.redTake h = .accept → s.redKnown h = true → h.poisoned = false →
      s.trafficHeld (drumIsland x.home) spans = false → (∀ y ∈ spans, s1.knownBad y.1 y.2 = none) →
      s1.segFlag c 0 = false → s1.segFlag c 1 = false → s1.segFlag c 3 = false →
      s1.word (c + 4) ≠ segLen x g h.shard h.segment * g.per → plain (sumAddr x lo) (8 * h.length) → plain c 16 →
      lo + h.length ≤ x.elements →
      ∃ u, exec (.partialReceive p .clean) s = .next u
        ∧ (∀ j, j < h.length → u.sumAt (sumAddr x (lo + j))
            = untwos 64 (twos 64 (s1.sumAt (sumAddr x (lo + j))
                + untwos (8 * n) (leOf (((p.payload.drop 32).drop (n * j)).take n)))))
        ∧ u.segFlag c 0 = true ∧ u.fab.rxLocal = s.fab.rxLocal.erase (port, p))
    ∧ (∀ c, row c → g.aborted = false → s.redTake h = .hold →
        ∃ u, exec c s = .next u ∧ u.red.held = s.red.held ++ [(port, p)]
          ∧ u.fab = { s.fab with rxLocal := s.fab.rxLocal.erase (port, p) }
          ∧ u.fld .redHeld t 0 redHeld_held = min (s.fld .redHeld t 0 redHeld_held + 1) (2 ^ redHeld_held.width - 1)
          ∧ ∀ b, u.byte b = s.byte b)
    ∧ (∀ c, row c → g.aborted = false → s.redTake h = .mismatch →
        ∃ u, exec c s = .next u ∧ u.bit .redErr t 0 redErr_epochMismatch = true ∧ u.red.held = s.red.held)
    ∧ (h.kind = 1 → g.aborted = false → s.redTake h = .accept → s.redKnown h = true →
        (∀ y ∈ (s.run key h.bucket).sums, y.shard ≠ h.shard) →
        ∃ u more, exec (.summaryReceive p) s = .next u
          ∧ (u.run key h.bucket).sums = (s.run key h.bucket).sums
              ++ { shard := h.shard, clipped := h.clipped, poisoned := h.poisoned, max := h.max } :: more)
    ∧ (h.kind = 2 → g.valid = true → g.epoch = h.epoch →
        s.red.notices.contains (h.group, h.epoch, h.status == Status.epochMismatch.code) = false →
        ∃ u, exec (.abortNoticeReceive p) s = .next u ∧ u.bit .redErr t 0 redErr_abortSeen = true
          ∧ u.red.notices = (h.group, h.epoch, h.status == Status.epochMismatch.code) :: s.red.notices)

/-- A bucket whose shard is converted, whose segments are forwarded and whose summaries are all in completes with one record in its
group's ring, and votes to skip the boundary where it is partial, or clipped in a group that skips on clips; until then, or with a full
ring, nothing happens. A record that an abort made and the full ring did not take is written once it does (R372 to R374, R379, R380). -/
def Claims.BucketsComplete : Prop :=
  ∀ (s : State) (gi : Byte) (e b : Half) (g : Grp),
    let key := grpKey gi.toNat e.toNat
    let x := s.bucket g b.toNat
    let r := s.run key b.toNat
    let bad := r.sums.any (·.poisoned)
    let a := g.cqBase + 64 * g.cqTail
    let done := r.agreed = true ∧ r.ownSent = true ∧ r.forwarded = otherSegs x g ∧ s.redUnsent gi.toNat b.toNat = false
    let ready := r.started = true ∧ r.complete = false ∧ b.toNat < g.nBuckets
    let ring := s.ringTakes g = true ∧ tget s.red.rings key = []
    let ws := s.bucketRecord key b.toNat (if bad then .reducePartial else .ok)
    let plain := (∀ l t2, l < 64 → regionOf (a + l) ≠ .ctxStore t2) ∧ (a + 64 ≤ s.grpAddr key + 44 ∨ s.grpAddr key + 46 ≤ a)
    s.grpFor gi.toNat e.toNat = some g →
    (g.aborted = false → ready → done → ring →
      ∃ u, exec (.bucketComplete gi e b none) s = .next u ∧ (u.run key b.toNat).complete = true
        ∧ u.step.vote = (s.step.vote || bad || r.clipped && g.clipSkip)
        ∧ (plain → ∀ i, i < 16 → u.word (a + 4 * i) = ws.getD i 0 % 2 ^ 32))
    ∧ (g.aborted = false → ¬ready ∨ ¬done ∨ ¬ring → exec (.bucketComplete gi e b none) s = .next s)
    ∧ (∀ w, g.aborted = true → tget s.red.rings key = [w] → w.length = 16 → s.ringTakes g = true →
        ∃ u, exec (.bucketComplete gi e b none) s = .next u ∧ tget u.red.rings key = []
          ∧ (plain → ∀ i, i < 16 → u.word (a + 4 * i) = w.getD i 0 % 2 ^ 32))
    ∧ (g.aborted = true → (tget s.red.rings key = [] ∨ s.ringTakes g = false) →
        exec (.bucketComplete gi e b none) s = .next s)

/-! ### Links (R386 to R417) -/

/-- A direction whose lanes all meet the margin trains with lanes 0 to N − 1 and lane N as its ready gusset lane, and IDENT goes out
once both directions have trained; one with no healthy lane takes the port DOWN, and 1,000,000 refclk ticks later a new attempt
starts (R388, R389). -/
def Claims.LinkTraining : Prop :=
  ∀ (s : State) (p : PortCode) (tx : Bool) (margins : List Nat) (a : DWord),
    let n := portLanes p.val
    let d := s.dir p.val tx
    (s.portState p.val = 1 → d.map = [] → d.rot = .idle → d.train = none →
      ((∀ k, k ≤ n → s.minMargin p.val ≤ margins.getD k 0 ∧ s.laneFailed p.val tx k = false) →
        ∃ u, exec (.linkTrainingComplete p tx margins) s = .next u ∧ (u.dir p.val tx).map = List.range n
          ∧ u.spare p.val tx = n ∧ u.spareReady p.val tx = true ∧ u.portState p.val = 1
          ∧ (u.port p.val).sent = (if (s.dir p.val (!tx)).map = [] then [] else
              [LinkMsg.ident Config.serial (s.fld .ctlSeamStat 0 0 ctlSeamStat_index) p.val s.fabAddr s.fabValid])
              ++ (s.port p.val).sent)
      ∧ ((∀ k, k ≤ n → margins.getD k 0 < s.minMargin p.val) →
          ∃ u, exec (.linkTrainingComplete p tx margins) s = .next u ∧ u.portState p.val = 0
            ∧ (u.port p.val).failTick = some s.refclk))
    ∧ (s.portState p.val ≠ 1 → exec (.linkTrainingComplete p tx margins) s = .next s)
    ∧ ((s.port p.val).failTick = some a → s.portState p.val = 0 →
        (1000000 ≤ (s.refclk - a).toNat →
          ∃ u, exec (.linkTrainingRetry p) s = .next u ∧ u.portState p.val = 1 ∧ (u.dir p.val true).map = []
            ∧ (u.dir p.val false).map = [] ∧ (u.port p.val).failTick = none)
        ∧ ((s.refclk - a).toNat < 1000000 → exec (.linkTrainingRetry p) s = .next s))

/-- The gusset rotation: a direction copies the next lane once the interval has passed; ROT_READY is answered with a switch 80
codewords ahead; at the codeword the gusset lane takes that lane's place and the lane trains as the new spare; its margin makes it the
ready gusset lane or a failed lane, at half width with a left-over lane as the spare (R390, R392, R394). -/
def Claims.GussetRotation : Prop :=
  ∀ (s : State) (p : PortCode) (tx : Bool) (k cw margin now : Nat), s.linked p.val = true →
    let d := s.dir p.val tx
    let g := s.spare p.val tx
    let sent (u : State) (l : List LinkMsg) : Prop := (u.port p.val).sent = l ++ (s.port p.val).sent
    let every := s.fld .plynRotCfg (portTower p.val) 0 plynRotCfg_interval
    let lane (u : State) (tx : Bool) : Prop := (u.dir p.val tx).rot = .idle ∧ (u.dir p.val tx).train = none
      ∧ (s.minMargin p.val ≤ margin → u.spare p.val tx = k ∧ u.spareReady p.val tx = true)
      ∧ (margin < s.minMargin p.val → u.laneFailed p.val tx k = true
          ∧ (s.half p.val tx = false → u.spare p.val tx = 0x1F ∧ u.spareReady p.val tx = false)
          ∧ (s.half p.val tx = true →
              u.spare p.val tx = spareOf (u.leftOver p.val tx) ∧ u.spareReady p.val tx = !(u.leftOver p.val tx).isEmpty))
    k ≤ 16 →
    (s.spareReady p.val tx = true → s.half p.val tx = false → s.bit .plynPortCfg (portTower p.val) 0 plynPortCfg_rotEn = true →
      d.rot = .idle → d.swap = none → d.shrink = none → every ≠ 0 → every ≤ (s.refclk - d.rotTick).toNat → s.nextLane p.val tx g = some k →
      ∃ u, exec (.gussetRotationStart p tx) s = .next u ∧ (u.dir p.val tx).rot = .copying k
        ∧ (u.dir p.val tx).map = d.map ∧ sent u (if tx then [] else [.rotReady k]))
    ∧ ((s.dir p.val true).rot = .copying k →
        ∃ u, exec (.rotReady p k now) s = .next u ∧ (u.dir p.val true).rot = .switching k (now + 80)
          ∧ sent u [.rotSwitch k (now + 80)])
    ∧ ((s.dir p.val false).rot = .copying k → (s.dir p.val false).faults.contains k = false →
        ∃ u, exec (.rotSwitch p k cw) s = .next u ∧ (u.dir p.val false).rot = .switching k cw ∧ sent u [])
    ∧ (d.rot = .switching k cw → d.swap = none → d.shrink = none →
        ∃ u, exec (.switchCodewordReached p tx) s = .next u ∧ (u.dir p.val tx).map = (d.map.map fun x => if x = k then g else x)
          ∧ (u.dir p.val tx).rot = .training k ∧ u.spare p.val tx = k ∧ u.spareReady p.val tx = false)
    ∧ ((s.dir p.val false).rot = .training k →
        ∃ u, exec (.laneRetrainComplete p margin) s = .next u ∧ lane u false ∧ sent u [.rotDone k margin])
    ∧ ((s.dir p.val true).rot = .training k →
        ∃ u, exec (.rotDone p k margin) s = .next u ∧ lane u true ∧ sent u [])

/-- A lane fault is reported and answered: LANE_DOWN goes out; the transmitter names a codeword 80 ahead, from which the ready gusset
lane carries the lane's traffic and the lane trains, or, with no such lane, from which half the lanes are kept; too few healthy lanes
quarantine the port with LANE_EXHAUSTED. Both ends switch at the codeword (R392, R394, R395). -/
def Claims.LaneFaults : Prop :=
  ∀ (s : State) (p : PortCode) (tx : Bool) (k now cw : Nat) (lanes : List Nat), s.linked p.val = true → k ≤ portLanes p.val →
    let n := portLanes p.val
    let d := s.dir p.val true
    let r := s.dir p.val false
    let keep := ((s.healthy p.val true).filter (· ≠ k)).take (n / 2)
    let raised (u : State) (n : Nat) : Prop := (tget s.irq.srcs n).st = .idle →
      (tget u.irq.srcs n).st = .pending ∧ (tget u.irq.srcs n).arg.toNat % 2 ^ 48 = 2 ^ p.val
    let err (u : State) (f : Fld) : Prop := u.bit .plynErr (portTower p.val) 0 f = true
    let quiet (d : LaneDir) : Prop := d.rot = .idle ∧ d.train = none ∧ d.swap = none ∧ d.shrink = none
    (s.laneFailed p.val false k = false →
      ∃ u, exec (.laneFault p k) s = .next u ∧ (u.dir p.val false).faults = r.faults ++ [k] ∧ err u plynErr_laneFault
        ∧ raised u 144 ∧ (u.port p.val).sent = .laneDown false k :: (s.port p.val).sent)
    ∧ (s.laneFailed p.val true k = false → quiet d → k ∈ d.map →
        (s.spareReady p.val true = true → k ≠ s.spare p.val true →
          ∃ u, exec (.laneDown p k now) s = .next u ∧ u.dir p.val true = { d with swap := some (k, now + 80) }
            ∧ (u.port p.val).sent = .rotSwitch k (now + 80) :: (s.port p.val).sent)
        ∧ (s.spareReady p.val true = false → keep.length = n / 2 →
            ∃ u, exec (.laneDown p k now) s = .next u ∧ u.dir p.val true = { d with shrink := some (keep, now + 80) }
              ∧ u.laneFailed p.val true k = true
              ∧ (u.port p.val).sent = .halfWidth keep (now + 80) :: (s.port p.val).sent)
        ∧ (s.spareReady p.val true = false → keep.length < n / 2 →
            ∃ u, exec (.laneDown p k now) s = .next u ∧ u.portState p.val = 4
              ∧ u.fld .plynPortStat (portTower p.val) 0 plynPortStat_cause = 2))
    ∧ (k ∈ r.faults → quiet r → k ∈ r.map → s.spareReady p.val false = true → k ≠ s.spare p.val false →
        ∃ u, exec (.rotSwitch p k cw) s = .next u ∧ u.dir p.val false = { r with faults := r.faults.erase k, swap := some (k, cw) })
    ∧ (k ∈ r.faults → k ∉ lanes → lanes.length = n / 2 → (∀ l ∈ lanes, l ≤ n) →
        ∃ u, exec (.halfWidth p ⟨lanes, cw⟩) s = .next u ∧ (u.dir p.val false).shrink = some (lanes, cw)
          ∧ (u.dir p.val false).map = r.map ∧ (u.dir p.val false).faults = r.faults.filter lanes.contains
          ∧ u.laneFailed p.val false k = true)
    ∧ ((s.dir p.val tx).swap = some (k, cw) → (s.dir p.val tx).shrink = none →
        ∃ u, exec (.switchCodewordReached p tx) s = .next u
          ∧ (u.dir p.val tx).map = ((s.dir p.val tx).map.map fun x => if x = k then s.spare p.val tx else x)
          ∧ (u.dir p.val tx).train = some k ∧ (u.dir p.val tx).swap = none ∧ u.spare p.val tx = k
          ∧ u.spareReady p.val tx = false)
    ∧ ((s.dir p.val tx).shrink = some (lanes, cw) → s.half p.val tx = false →
        ∃ u, exec (.switchCodewordReached p tx) s = .next u ∧ (u.dir p.val tx).map = lanes ∧ (u.dir p.val tx).shrink = none
          ∧ u.half p.val tx = true ∧ err u plynErr_halfWidth ∧ raised u 145)

/-- A partner's quarantine quarantines the port; IDENT notes the partner, makes a port that has just trained TRAINED, makes one that
passes on an enabled axis of two or more UP, and quarantines one whose partner or address is wrong; a violation window ends (R387,
R389, R397, R408, R409, R416, R417). -/
def Claims.QuarantineAndIdent : Prop :=
  ∀ (s : State) (p : PortCode) (serial : DWord) (index code : Nat) (addr : Half) (valid : Bool) (a : DWord),
    let t := portTower p.val
    let ax := portAxis p.val
    let st := s.portState p.val
    let trained := (s.dir p.val true).map ≠ [] ∧ (s.dir p.val false).map ≠ []
    let quarantined (u : State) (cause : Nat) : Prop := u.portState p.val = 4
      ∧ u.fld .plynPortStat t 0 plynPortStat_cause = cause ∧ u.bit .plynErr t 0 plynErr_quarantined = true
      ∧ (u.port p.val).replay = [] ∧ (u.port p.val).txq = []
      ∧ ((tget s.irq.srcs 146).st = .idle → (tget u.irq.srcs 146).st = .pending)
    let noted (u : State) : Prop := u.reg .plynNbrSerialLo t 0 = serial.truncate 32
      ∧ u.fld .plynNbrInfo t 0 plynNbrInfo_portCode = code % 8 ∧ u.fld .plynNbrInfo t 0 plynNbrInfo_fabAddr = addr.toNat
    let known := valid = true ∧ s.fabValid = true ∧ 2 ≤ s.axisSize ax
    let right := addr.toNat = s.neighbour ax (p.val % 2 == 0)
    (st = 1 ∨ st = 2 ∨ st = 3 → ∃ u, exec (.quarantine p) s = .next u ∧ quarantined u 5)
    ∧ (st = 0 ∨ st = 4 → exec (.quarantine p) s = .next s ∧ exec (.ident p serial index code addr valid) s = .next s)
    ∧ (st = 1 ∨ st = 2 ∨ st = 3 → trained →
        (code ≠ portOther p.val → ∃ u, exec (.ident p serial index code addr valid) s = .next u ∧ noted u ∧ quarantined u 3)
        ∧ (code = portOther p.val → ¬known →
            ∃ u, exec (.ident p serial index code addr valid) s = .next u ∧ noted u ∧ (u.port p.val).identified = true
              ∧ u.portState p.val = if st = 1 then 2 else st)
        ∧ (code = portOther p.val → known → ¬right →
            ∃ u, exec (.ident p serial index code addr valid) s = .next u ∧ noted u ∧ quarantined u 4)
        ∧ (code = portOther p.val → known → right →
            ∃ u, exec (.ident p serial index code addr valid) s = .next u ∧ noted u ∧ (u.port p.val).identified = true
              ∧ u.portState p.val
                = if st = 3 ∨ s.bit .plynPortCfg t 0 plynPortCfg_enable = true then 3 else 2))
    ∧ ((s.port p.val).violStart = some a →
        (s.fld .plynViolCfg t 0 plynViolCfg_violWindow * 1000 ≤ (s.refclk - a).toNat →
          ∃ u, exec (.violationWindowEnd p) s = .next u ∧ (u.port p.val).violStart = none
            ∧ u.fld .plynViolLog t 0 plynViolLog_inWindow = 0
            ∧ u.fld .plynViolLog t 0 plynViolLog_total = s.fld .plynViolLog t 0 plynViolLog_total)
        ∧ ((s.refclk - a).toNat < s.fld .plynViolCfg t 0 plynViolCfg_violWindow * 1000 →
            exec (.violationWindowEnd p) s = .next s))

/-- FLIT_RECEIVE counts a flit whose CRC fails and asks for a replay from the expected one; takes an expected data flit with a legal
header and a free receive slot, delivering a one-flit packet for this device, or passing a longer packet's first flit on before the
rest is in; and logs a violation otherwise, asking for a replay. REPLAY_REQUEST sends every flit from the one named again (R398 to
R400, R407, R420). -/
def Obligations.FlitsAndReplay : Prop :=
  ∀ (s : State) (p : PortCode) (ws : List Word) (seq i o sub : Nat) (det : Bool) (h : Packet), s.linked p.val = true →
    let x := s.port p.val
    let y := s.port o
    let t := portTower p.val
    let clean := flitCrcOk ws = true ∧ flitFld ws 0 31 29 = 0 ∧ flitFld ws 1 31 12 = 0 ∧ flitFld ws 1 3 0 = 15
      ∧ x.behind (flitFld ws 0 25 13) ≤ 4096
    let data := flitFld ws 0 28 26 = 0 ∧ flitFld ws 0 12 0 = x.expect
    let violated (u : State) (code seq : Nat) : Prop := u.fld .plynViolLog t 0 plynViolLog_lastCode = code
      ∧ u.fld .plynViolLog t 0 plynViolLog_total
        = min (s.fld .plynViolLog t 0 plynViolLog_total + 1) (2 ^ plynViolLog_total.width - 1)
      ∧ u.bit .plynErr t 0 plynErr_violation = true ∧ (u.port p.val).requests = seq :: x.requests
    let k : Packet := { h with payload := (flitBytes ws 6 28).take h.carried }
    let fits := x.rx = none ∧ headerOk ws = true ∧ headerOf ws = some h ∧ tget x.held h.vc + 1 ≤ vcSlots h.vc
    (flitCrcOk ws = false →
      ∃ u, exec (.flitReceive p ws) s = .next u ∧ (u.port p.val).discarding = true
        ∧ (u.port p.val).requests = x.expect :: x.requests ∧ (u.port p.val).expect = x.expect ∧ u.fab.rxLocal = s.fab.rxLocal
        ∧ u.fld .plynCrcCnt t 0 plynCrcCnt_count
          = min (s.fld .plynCrcCnt t 0 plynCrcCnt_count + 1) (2 ^ plynCrcCnt_count.width - 1))
    ∧ (clean → data → s.portState p.val = 3 → fits →
        (h.carried ≤ 112 → s.route t (some p.val) h = .deliver →
          ∃ u, exec (.flitReceive p ws) s = .next u ∧ u.fab.rxLocal = s.fab.rxLocal ++ [(p.val, k)]
            ∧ (u.port p.val).expect = (x.expect + 1) % 8192 ∧ (u.port p.val).discarding = false)
        ∧ (112 < h.carried → s.route t (some p.val) h = .send o sub det → o ≠ p.val → o < 6 → y.txq = [] →
            y.replay.length < 4096 → tget y.used (3 * h.cls + sub) < vcSlots (3 * h.cls + sub) →
            ∃ u f, exec (.flitReceive p ws) s = .next u ∧ (u.port o).replay = y.replay ++ [f]
              ∧ f.pkt = { k with sub := sub, detour := det } ∧ f.idx = 0 ∧ f.seq = y.nextSeq
              ∧ (u.port o).nextSeq = (y.nextSeq + 1) % 8192
              ∧ tget (u.port o).used (3 * h.cls + sub) = tget y.used (3 * h.cls + sub) + 1))
    ∧ (clean → data → s.portState p.val = 3 → x.rx = none → headerOk ws = false →
        ∃ u, exec (.flitReceive p ws) s = .next u ∧ violated u 5 (flitFld ws 0 12 0))
    ∧ (clean → data → s.portState p.val ≠ 3 →
        ∃ u, exec (.flitReceive p ws) s = .next u ∧ violated u 8 (flitFld ws 0 12 0))
    ∧ (flitCrcOk ws = true → 4 ≤ flitFld ws 0 28 26 →
        ∃ u, exec (.flitReceive p ws) s = .next u ∧ violated u 1 (flitFld ws 0 12 0))
    ∧ (x.replay.findIdx? (fun f => f.seq == seq % 8192) = some i → (∀ f ∈ x.replay, f.replays < 15) →
        ∃ u, exec (.replayRequest p seq) s = .next u
          ∧ (u.port p.val).replay
            = x.replay.take i ++ (x.replay.drop i).map (fun f => { f with replays := f.replays + 1 })
          ∧ u.fld .plynReplayCnt t 0 plynReplayCnt_count
            = min (s.fld .plynReplayCnt t 0 plynReplayCnt_count + 1) (2 ^ plynReplayCnt_count.width - 1))
    ∧ (x.replay.findIdx? (fun f => f.seq == seq % 8192) = none →
        ∃ u, exec (.replayRequest p seq) s = .next u ∧ violated u 4 ((x.expect + 8191) % 8192))

/-! ### Packets received (R31, R404 to R406) -/

/-- A WRITE to memory this device takes is performed and answered by WRITE_ACK, a READ is answered by READ_DATA with the bytes read;
an address it does not take, or a mirror entry that other than snapshot or refill traffic writes, is answered by a NACK with ADDRESS_FAULT
and has no other effect; traffic that is held waits (R20, R31, R52, R322, R345, R347, R404). -/
def Claims.RemoteReadsAndWrites : Prop :=
  ∀ (s : State) (p : Packet) (snap : Bool) (port e : Nat) (m : Mirror) (ecc : Ecc),
    let n := p.payload.length
    let i := drumIsland (atTower port)
    let ack := replyTo p s.fabAddr .writeAck []
    let fault := nackFor p s.fabAddr .addressFault
    (s.received p .write = some port →
      (unitWriteOk p.addr n = true → s.mirrorAt p.addr = none → s.mirrorHit p.addr n = false → NoContextStore p.addr n →
        (s.storesHeld i [(p.addr, n)] = false →
          ∃ u, exec (.writePacketReceive ⟨p, snap⟩) s = .next u ∧ Wrote p.addr p.payload s u ∧ Answered port p ack s u)
        ∧ (s.storesHeld i [(p.addr, n)] = true → exec (.writePacketReceive ⟨p, snap⟩) s = .next s))
      ∧ (unitWriteOk p.addr n = true → s.mirrorAt p.addr = some (e, m) → p.addr + n ≤ m.base + m.size * 4096 →
          NoContextStore p.addr n → s.mayFill e m p snap = true → e < 64 →
          (s.trafficHeld i [(p.addr, n)] = false →
            ∃ u, exec (.writePacketReceive ⟨p, snap⟩) s = .next u ∧ Wrote p.addr p.payload s u ∧ Answered port p ack s u
              ∧ (u.mirrorEnt e).valid = false ∧ (u.mirrorEnt e).filling = true)
          ∧ (s.trafficHeld i [(p.addr, n)] = true → exec (.writePacketReceive ⟨p, snap⟩) s = .next s))
      ∧ (s.mayFill e m p snap = true → snap = true ∧ p.cls = 4)
      ∧ (unitWriteOk p.addr n = false ∨ (s.mirrorAt p.addr = some (e, m) ∧ s.mayFill e m p snap = false)
          ∨ (s.mirrorAt p.addr = none ∧ s.mirrorHit p.addr n = true) →
          ∃ u, exec (.writePacketReceive ⟨p, snap⟩) s = .next u ∧ (∀ b, u.byte b = s.byte b) ∧ Answered port p fault s u))
    ∧ (s.received p .read = some port →
        (mvReadOk p.addr p.length = true → s.trafficHeld i [(p.addr, p.length)] = true →
          exec (.readPacketReceive p ecc) s = .next s)
        ∧ (mvReadOk p.addr p.length = true → s.trafficHeld i [(p.addr, p.length)] = false →
          s.readError p.addr p.length ecc = none → 0 < p.length →
          ∃ u, exec (.readPacketReceive p ecc) s = .next u ∧ (∀ b, u.byte b = s.byte b)
            ∧ Answered port p (replyTo p s.fabAddr .readData (s.bytes p.addr p.length)) s u)
        ∧ (mvReadOk p.addr p.length = false →
            ∃ u, exec (.readPacketReceive p ecc) s = .next u ∧ (∀ b, u.byte b = s.byte b) ∧ Answered port p fault s u))

/-- An answer ends the request it is for: data and acknowledgments move their mover part on, a NACK or a time-out with PATH_LOST fails
it, or fails the entry of the snapshot; an answer to no request is discarded and counted (R346, R404, R405, R406). -/
def Claims.AnswersEndTheirRequests : Prop :=
  ∀ (s : State) (p : Packet) (port n i : Nat) (r : Req) (x : Snap),
    let j := s.mvJob n
    let q := j.part i
    let dropped (u : State) : Prop := u.fab.rxLocal = s.fab.rxLocal.erase (port, p)
    let late (u : State) : Prop := dropped u ∧ CountedOne .plynUnroutable (atTower port) 0 plynUnroutable_count s u
      ∧ u.ram = s.ram
    let running := s.hasMv n = true ∧ q.st = .running
    let lost (u : State) : Prop := ((u.mvJob n).part i).st = .failed ∧ ∀ b, ¬(∃ w ∈ s.partDst j i, w.1 ≤ b ∧ b < w.1 + w.2) →
      (∀ t2, regionOf b ≠ .ctxStore t2) → u.byte b = s.byte b
    let snapLost (u : State) (e : Nat) : Prop := u.bit .memSnapStat 0 0 memSnapStat_failed = true ∧ Raised 133 x.step.toNat s u
      ∧ ∃ y, u.ram.snap = some y ∧ ∀ a ∈ y.runs, a.entry = e → a.own = false → a.failed = true
    (s.received p .readData = some port →
      (tget s.fab.reqs p.tag = none → ∃ u, exec (.readData p) s = .next u ∧ late u)
      ∧ (tget s.fab.reqs p.tag = some r → r.kind = .read → r.dst = p.src → r.what = .part n i → running → s.srcHere j.words = false →
          s.dstHere j.words = true → mvCount j.words i * mvSrcRow j.words ≤ q.rpos + p.payload.length →
          ∃ u, exec (.readData p) s = .next u ∧ dropped u ∧ tget u.fab.reqs p.tag = none
            ∧ ((u.mvJob n).part i).tag = none ∧ ((u.mvJob n).part i).rpos = q.rpos + p.payload.length
            ∧ ((u.mvJob n).part i).buf = q.buf ++ [(q.rpos, p.payload)]))
    ∧ (s.received p .writeAck = some port →
        (tget s.fab.reqs p.tag = none → ∃ u, exec (.writeAck p) s = .next u ∧ late u)
        ∧ (tget s.fab.reqs p.tag = some r → r.kind = .write → r.dst = p.src → r.what = .part n i → running →
            s.readsLeft j i = false → mvCount j.words i * mvDstRow j.words ≤ q.wpos + r.len →
            ∃ u, exec (.writeAck p) s = .next u ∧ dropped u ∧ tget u.fab.reqs p.tag = none
              ∧ ((u.mvJob n).part i).tag = none ∧ ((u.mvJob n).part i).wpos = q.wpos + r.len
              ∧ (u.mvJob n).stored = s.step.bounds))
    ∧ (s.received p .nack = some port →
        (tget s.fab.reqs p.tag = none → ∃ u, exec (.nack p) s = .next u ∧ late u)
        ∧ (tget s.fab.reqs p.tag = some r → leOf (p.payload.take 2) ≠ Status.addressFault.code →
            (r.what = .part n i → running → ∃ u, exec (.nack p) s = .next u ∧ dropped u ∧ tget u.fab.reqs p.tag = none ∧ lost u)
            ∧ ∀ e, r.what = .snap e → s.ram.snap = some x → (∃ a ∈ x.runs, a.entry = e ∧ a.own = false ∧ a.failed = false) →
                ∃ u, exec (.nack p) s = .next u ∧ snapLost u e))
    ∧ ∀ tag : Half, tget s.fab.reqs tag.toNat = some r → r.kind = .read ∨ r.kind = .write →
        ((s.reg .plynReqTimeout 0 0).toNat ≤ (s.refclk - r.tick).toNat →
          (r.what = .part n i → running → ∃ u, exec (.requestTimeout tag) s = .next u ∧ tget u.fab.reqs tag.toNat = none ∧ lost u)
          ∧ (r.what = .other → ∃ u, exec (.requestTimeout tag) s = .next u ∧ tget u.fab.reqs tag.toNat = none ∧ u.ram = s.ram))
        ∧ ((s.refclk - r.tick).toNat < (s.reg .plynReqTimeout 0 0).toNat → exec (.requestTimeout tag) s = .next s)

/-- SNAP_CLOSE makes an entry valid with the step it carries; the sender closes a stream whose pages are all performed, at home at once
and at the neighbour by a packet, and the snapshot ends with its last stream; a refill that ended is reported (R343, R344, R346, R490 to
R492). -/
def Claims.SnapshotsAndRefillsClose : Prop :=
  ∀ (s : State) (p : Packet) (port src how : Nat) (e : Fin 64) (x : Snap) (r : PageRun),
    let m := s.mirrorEnt e.val
    let closed (u : State) (n : Word) : Prop := (u.mirrorEnt e.val).valid = true ∧ (u.mirrorEnt e.val).filling = false
      ∧ (u.mirrorEnt e.val).step = n ∧ (u.mirrorEnt e.val).base = m.base ∧ (u.mirrorEnt e.val).size = m.size
      ∧ u.reg .ctlMirrorStep 0 e.val = n
    let can (q : PageRun) : Bool := q.entry == e.val && !q.failed && !q.closed && !q.unread && q.tags.isEmpty
    (s.received p .snapClose = some port → leOf (p.payload.take 1) % 64 = e.val →
      (m.size ≠ 0 → s.mayFill e.val m p true = true →
        ∃ u, exec (.snapClose p) s = .next u ∧ closed u (BitVec.ofNat 32 (leOf (p.payload.drop 4)))
          ∧ u.fab.rxLocal = s.fab.rxLocal.erase (port, p)
          ∧ (s.ram.refillIn = some (e.val, p.src, 0) → u.ram.refillIn = some (e.val, p.src, 1)))
      ∧ (m.size = 0 ∨ s.mayFill e.val m p true = false → ∃ u, exec (.snapClose p) s = .next u ∧ u.ram = s.ram ∧ u.regs = s.regs))
    ∧ (s.ram.snap = some x →
        (x.runs.find? can = some r →
          ∃ u, exec (.snapCloseSend e) s = .next u
            ∧ (r.own = true → closed u x.step)
            ∧ (r.own = false → ∃ q, tget u.fab.reqs s.fab.nextTag = some q ∧ q.what = .snap e.val ∧ q.kind = .snapClose ∧ q.dst = r.dst)
            ∧ ((∀ q ∈ x.runs, q = r ∨ q.closed = true ∨ q.failed = true) → s.ram.snapNext = none →
                u.ram.snap = none ∧ u.bit .memSnapStat 0 0 memSnapStat_busy = false))
        ∧ (x.runs.find? can = none → exec (.snapCloseSend e) s = .next s))
    ∧ (s.ram.refillIn = some (e.val, src, how) →
        (how ≠ 0 →
          ∃ u, exec .refillComplete s = .next u ∧ u.ram = { s.ram with refillIn := none }
            ∧ u.bit .ctlRefillStat 0 0 ctlRefillStat_busy = false
            ∧ u.bit .ctlRefillStat 0 0 ctlRefillStat_failed = (s.bit .ctlRefillStat 0 0 ctlRefillStat_failed || how == 2)
            ∧ u.bit .ctlRefillStat 0 0 ctlRefillStat_superseded = (s.bit .ctlRefillStat 0 0 ctlRefillStat_superseded || how == 3)
            ∧ Raised 134 (e.val + if how = 1 then 0 else 256) s u)
        ∧ (how = 0 → exec .refillComplete s = .next s))

/-- Messages between Lumdom instances: the group's size and a new interval come from the parent and go on to the children; the last
member count of the children makes the own count go up; a refill request starts a stream of a valid entry or is refused; one of the step
group waits while there is no group. A message goes out as a MGMT packet of class 0 (R404, R481, R482, R490, R492). -/
def Claims.LumdomMessages : Prop :=
  ∀ (s : State) (p : Packet) (port n e b : Nat), s.received p .mgmt = some port →
    let from_ := s.isRoot = false ∧ BitVec.ofNat 16 p.src = s.step.parent
    let child := s.step.children.contains (BitVec.ofNat 16 p.src) = true
    let down (u : State) (m : Mgmt) : Prop := u.fab.mgmtOut = (s.step.children.map fun c => (c.toNat, m)).reverse ++ s.fab.mgmtOut
    let src := if e < 32 then e + 32 else e - 32
    let dropped (u : State) : Prop := ∃ l, u.fab.rxLocal = s.fab.rxLocal.erase (port, p) ++ l
    let sent (u : State) (dst : Nat) (m : Mgmt) : Prop := u.fab.mgmtOut = (dst, m) :: s.fab.mgmtOut
      ∧ ∀ q sub det, s.route 0 none (s.newPacket .mgmt 0 dst 0 m.bytes.length m.bytes) = .send q sub det →
          u.sending q { s.newPacket .mgmt 0 dst 0 m.bytes.length m.bytes with sub := sub, detour := det }
    (s.groupState = 0 → exec (.mgmt p (.members n)) s = .next s ∧ exec (.mgmt p (.groupSize n)) s = .next s)
    ∧ (s.groupState ≠ 0 → from_ →
        ∃ u, exec (.mgmt p (.groupSize n)) s = .next u ∧ dropped u ∧ u.step = { s.step with size := n } ∧ down u (.groupSize n))
    ∧ (s.groupState ≠ 0 → child → s.step.countsDue = 1 → s.isRoot = false →
        ∃ u, exec (.mgmt p (.members n)) s = .next u ∧ dropped u ∧ u.step.countsDue = 0
          ∧ sent u s.step.parent.toNat (.members (s.step.counted + n + 1)))
    ∧ (s.groupState ≠ 0 → child → s.step.countsDue = 1 → s.isRoot = true →
        ∃ u, exec (.mgmt p (.members n)) s = .next u ∧ u.step.size = s.step.counted + n + 1
          ∧ down u (.groupSize (s.step.counted + n + 1)))
    ∧ (from_ → ∃ u, exec (.mgmt p (.interval n)) s = .next u ∧ dropped u ∧ u.step.openSet.snap.interval = n
          ∧ u.step.openSet.snap.computed = true ∧ u.step.active = s.step.active ∧ down u (.interval n))
    ∧ (e ≤ 63 → (s.mirrorEnt src).valid = true → (s.mirrorEnt src).size ≤ n →
        ∃ u o, exec (.mgmt p (.refill e b n)) s = .next u ∧ dropped u
          ∧ u.ram = { s.ram with refillOut := s.otherRefills p.src ++ [o] } ∧ o.src = src ∧ o.dstBase = b
          ∧ o.step = (s.mirrorEnt src).step ∧ o.run.entry = e ∧ o.run.dst = p.src ∧ o.run.base = (s.mirrorEnt src).base
          ∧ o.run.pages = (s.mirrorEnt src).size ∧ o.run.next = 0)
    ∧ (e ≤ 63 → (s.mirrorEnt src).valid = false →
        ∃ u, exec (.mgmt p (.refill e b n)) s = .next u ∧ dropped u ∧ u.ram = s.ram
          ∧ sent u p.src (.refillFailed e))
    ∧ (∃ u, exec (.mgmt p (.mirrorEntry e b n)) s = .next u ∧ dropped u ∧ (tget u.ram.nbrMirror e).base = b
          ∧ (tget u.ram.nbrMirror e).size = n ∧ ∀ k, k ≠ e → tget u.ram.nbrMirror k = tget s.ram.nbrMirror k)

/-! ### The seam chain (R413 to R415) -/

/-- A module takes the index its first valid frame implies, or index 0 at the head of the chain; it sends its frame every 4,096 refclk
ticks; a frame that implies another index, a bad frame and four lost frames are reported (R413, R414, R415). -/
def Obligations.SeamChain : Prop :=
  ∀ (s : State) (w0 w1 : Word), s.belfryUp = true →
    let i := w0.toNat / 2 ^ 8 % 4096
    let good := w0.toNat % 256 = 0xD5 ∧ seamCrc w0 w1 = w1.toNat / 2 ^ 16
    let stat (u : State) (f : Fld) : Nat := u.fld .ctlSeamStat 0 0 f
    (good → s.hasIndex = false → i ≠ 4095 →
      ∃ u, exec (.seamFrameReceive w0 w1) s = .next u ∧ u.hasIndex = true ∧ stat u ctlSeamStat_index = i + 1
        ∧ stat u ctlSeamStat_head = stat s ctlSeamStat_head ∧ u.fab.seam.lastFrame = s.refclk)
    ∧ (good → s.hasIndex = false → i = 4095 →
        ∃ u, exec (.seamFrameReceive w0 w1) s = .next u ∧ u.hasIndex = false ∧ stat u ctlSeamStat_indexOverflow = 1)
    ∧ (good → s.hasIndex = true → stat s ctlSeamStat_index ≠ i + 1 →
        ∃ u, exec (.seamFrameReceive w0 w1) s = .next u ∧ stat u ctlSeamStat_mismatch = 1
          ∧ stat u ctlSeamStat_index = stat s ctlSeamStat_index ∧ Raised 5 (i + 1) s u)
    ∧ (¬good → ∃ u, exec (.seamFrameReceive w0 w1) s = .next u ∧ CountedOne .ctlSeamStat 0 0 ctlSeamStat_badFrames s u
        ∧ stat u ctlSeamStat_index = stat s ctlSeamStat_index ∧ u.hasIndex = s.hasIndex)
    ∧ (s.hasIndex = false →
        ∃ u, exec .seamHeadDetect s = .next u ∧ u.hasIndex = true ∧ stat u ctlSeamStat_index = 0 ∧ stat u ctlSeamStat_head = 1)
    ∧ (s.hasIndex = true → exec .seamHeadDetect s = .next s)
    ∧ (s.hasIndex = true → s.testMode = false → 4096 ≤ (s.refclk - s.fab.seam.sentTick).toNat →
        ∃ u f, exec .seamFrameSend s = .next u
          ∧ u = { s with fab := { s.fab with seam := { s.fab.seam with
                    sentTick := s.refclk, sent := s.fab.seam.sent + 1, frames := f :: s.fab.seam.frames } } }
          ∧ f.1.toNat % 256 = 0xD5 ∧ f.1.toNat / 2 ^ 8 % 4096 = stat s ctlSeamStat_index ∧ f.1.toNat < 2 ^ 20
          ∧ f.2.toNat % 2 ^ 16 = 0 ∧ f.2.toNat / 2 ^ 16 = seamCrc f.1 f.2)
    ∧ (s.hasIndex = false ∨ s.testMode = true → exec .seamFrameSend s = .next s)
    ∧ (s.hasIndex = true → s.fab.seam.lostSeen = false → 16384 ≤ (s.refclk - s.fab.seam.lastFrame).toNat →
        ∃ u, exec .seamLost s = .next u ∧ stat u ctlSeamStat_lost = 1 ∧ Raised 6 0 s u
          ∧ stat u ctlSeamStat_index = stat s ctlSeamStat_index)
    ∧ ((s.refclk - s.fab.seam.lastFrame).toNat < 16384 → exec .seamLost s = .next s)

/-! ### The host port (R422 to R440) -/

/-- A frame that fails its FCS, is longer than 9,216 bytes or carries other tags is counted; an ARP request, an echo request and a
datagram for the device have their effect; pauses are sent at the thresholds, and a received one holds its priority until a resume. The
link comes up with its loop and island, and its loss is noted (R422, R423, R424, R430). -/
def Obligations.FramesPausesAndLink : Prop :=
  ∀ (s : State) (f : Frame) (src dst bs : List Byte) (sp : Nat) (q : Fin 8) (pause : Bool),
    let good := f.fcsOk = true ∧ f.length ≤ 9216 ∧ s.tagsOk f.tags = true
    let port := s.fld .hostUdpPort 0 0 hostUdpPort_port
    let en := s.bit .hostPfcCfg 0 0 hostPfcCfg_pfcEn = true
    let is4 (b : IpBody) : Prop := f.dst = ownMac ∧ f.body = .ipv4 src dst true false false b ∧ s.host.ipv4 = some dst
    (s.linkUp = true →
      (¬good → ∃ u, exec (.ethernetFrameReceive f none) s = .next u ∧ CountedOne .hostRxBad 0 0 hostRxBad_count s u ∧ u.host = s.host)
      ∧ (good → f.dst = ownMac ∨ f.dst = broadcast → f.body = .arpRequest dst → s.host.ipv4 = some dst →
          ∃ u, exec (.ethernetFrameReceive f none) s = .next u ∧ SendsOne (.arpReply dst) s u)
      ∧ (good → is4 (.udp sp port true false bs) → port ≠ 4791 →
          ∃ u, exec (.ethernetFrameReceive f none) s = .next u
            ∧ u = { s with host := { s.host with rx := s.host.rx ++ [{ ip := mapped src, port := sp, bytes := bs }] } })
      ∧ (good → is4 (.udp sp port false false bs) →
          ∃ u, exec (.ethernetFrameReceive f none) s = .next u ∧ CountedOne .hostRxBad 0 0 hostRxBad_count s u ∧ u.host = s.host)
      ∧ (good → is4 (.echoRequest bs) →
          ∃ u, exec (.ethernetFrameReceive f none) s = .next u ∧ SendsOne (.echoReply (mapped src) bs) s u)
      ∧ (good → f.body = .other → s.carries q.val = true → en → s.host.pausing.testBit q.val ≠ pause →
          ∃ u, exec (.ethernetFrameReceive f (some (q, pause))) s = .next u ∧ SendsOne (.pfc q.val pause) s u
            ∧ ∀ k, u.host.pausing.testBit k = if k = q.val then pause else s.host.pausing.testBit k)
      ∧ (s.carries q.val = true → en →
          ∃ u, exec (.pfcPauseReceive q true) s = .next u ∧ u.host.tx = s.host.tx
            ∧ ∀ k, u.host.paused.testBit k = if k = q.val then true else s.host.paused.testBit k)
      ∧ (s.carries q.val = true → ¬en → exec (.pfcPauseReceive q true) s = .next s)
      ∧ (∃ u, exec (.pfcPauseReceive q false) s = .next u
          ∧ (∀ k, u.host.paused.testBit k = if k = q.val then false else s.host.paused.testBit k)
          ∧ u.host.stalled = s.host.stalled.filter (fun o => s.reaches o && u.isPaused o)
          ∧ u.host.tx = ((s.host.stalled.filter fun o => s.reaches o && !u.isPaused o).map s.framed).reverse ++ s.host.tx)
      ∧ (s.carries q.val = false →
          ∃ u, exec (.pfcPauseReceive q true) s = .next u ∧ u = { s with host := { s.host with stray := s.host.stray + 1 } }))
    ∧ (s.linkUp = false → exec (.ethernetFrameReceive f (some (q, pause))) s = .next s ∧ exec (.pfcPauseReceive q pause) s = .next s)
    ∧ (s.pwr.st = .running → s.bit .ctlIslandReady 0 0 ctlIslandReady_hostSerdesReady = true → s.locked 26 = true →
        ∃ u, exec .hostLinkUp s = .next u ∧ u.linkUp = true ∧ OnlyReg .hostLinkStat 0 0 s u)
    ∧ (s.locked 26 = false → exec .hostLinkUp s = .next s)
    ∧ (s.linkUp = true →
        ∃ u, exec .linkLost s = .next u ∧ u.linkUp = false ∧ u.bit .hostErr 0 0 hostErr_linkLost = true ∧ u.host = s.host)
    ∧ (s.linkUp = false → exec .linkLost s = .next s)

/-- A host's WRITE and READ in PSN order go through the window that allows them, and are acknowledged or answered with the bytes; a
duplicate WRITE is acknowledged only; a skipped PSN, a request no window allows and an uncorrectable error get their NAK, the last two
with an error of the pair. A packet marked CE makes a notification go out first; one whose ICRC fails, or for another queue pair
number, has no effect; one whose traffic is held waits (R20, R52, R319, R322, R345, R425 to R429). -/
def Claims.RoceRequests : Prop :=
  ∀ (s : State) (q : Fin 4096) (h : RoceHdr) (psn : BitVec 24) (va : DWord) (rkey len : Word) (data : List Byte) (ecc : Ecc)
    (w bad : Nat) (nak : Option (Fin 4)),
    let x := s.qp q.val
    let a := va.toNat
    let wr := exec (.rdmaWriteReceive h.toRoceDest psn va rkey data h.ce) s
    let rd := exec (.rdmaReadReceive h.toRoceDest psn va rkey len h.ce ecc) s
    let all (h : RoceHdr) : List Instr := [.rdmaWriteReceive h.toRoceDest psn va rkey data h.ce, .rdmaReadReceive h.toRoceDest psn va rkey len h.ce ecc,
      .roceAckReceive h psn nak, .rdmaReadResponseReceive h psn data, .cnpReceive h]
    let n := psnCount x.mtu data.length
    let failed (u : State) (cause : Nat) : Prop := (u.qp q.val).st = .error ∧ (u.qp q.val).cause = cause
      ∧ (u.qp q.val).sent = [] ∧ (u.qp q.val).waiting = [] ∧ Raised 160 q.val s u
      ∧ u.bit .hostErr 0 0 hostErr_qpError = true
    let held := s.storesHeld hostIsland [(a, data.length)]
    let rheld := s.trafficHeld hostIsland [(a, len.toNat)]
    ((h.icrcOk = false ∨ h.qpn.toNat < 0x1000 ∨ 0x2000 ≤ h.qpn.toNat ∨ s.linkUp = false) → ∀ i ∈ all h, exec i s = .next s)
    ∧ (h.icrcOk = true → h.qpn.toNat = 0x1000 + q.val → s.linkUp = true → x.responds = true → h.ce = false →
      ((s.windowFor rkey a data.length 1).isSome = true → held = true → wr = .next s)
      ∧ ((s.windowFor rkey a len.toNat 0).isSome = true → rheld = true → rd = .next s)
      ∧ (held = false → rheld = false → (s.neighbourOf x.ip).isSome = true →
        (x.cnpTick = none →
          ∃ v, SendsOne (.cnp q.val) s v ∧ v.qp q.val = { x with cnpTick := some s.refclk }
            ∧ (all { h with ce := true }).map (fun i => exec i s) = (all h).map fun i => exec i v)
        ∧ (psnPlace psn.toNat x.rqPsn = .expected →
          (s.windowFor rkey a data.length 1 = some w → NoContextStore a data.length →
            ∃ u, wr = .next u ∧ Wrote a data s u ∧ SendsOne (.ack q.val ((psn.toNat + n - 1) % 2 ^ 24)) s u
              ∧ u.qp q.val = { x with rqPsn := (psn.toNat + n) % 2 ^ 24 })
          ∧ (s.windowFor rkey a data.length 1 = none →
              ∃ u, wr = .next u ∧ SendsOne (.nak q.val psn.toNat 2) s u ∧ failed u 4))
        ∧ (psnPlace psn.toNat x.rqPsn = .duplicate →
            ∃ u, wr = .next u ∧ SendsOne (.ack q.val ((x.rqPsn + 2 ^ 24 - 1) % 2 ^ 24)) s u ∧ u.mem = s.mem ∧ u.qp q.val = x)
        ∧ (psnPlace psn.toNat x.rqPsn = .ahead →
            ∃ u, wr = .next u ∧ rd = .next u ∧ SendsOne (.nak q.val x.rqPsn 0) s u ∧ u.mem = s.mem ∧ u.qp q.val = x)
        ∧ (psnPlace psn.toNat x.rqPsn ≠ .ahead → s.windowFor rkey a len.toNat 0 = some w →
            (s.readError a len.toNat ecc = none → a + len.toNat ≤ 0x018000000000 → 0 < len.toNat →
              ∃ u, rd = .next u ∧ SendsOne (.readResp q.val psn.toNat (s.bytes a len.toNat)) s u ∧ ∀ b, u.byte b = s.byte b)
            ∧ (s.readError a len.toNat ecc = some bad → bad < 0x018000000000 ∨ inDrum bad = true →
                ∃ u, rd = .next u ∧ SendsOne (.nak q.val psn.toNat 3) s u ∧ failed u 5 ∧ badLine bad ∈ u.ram.bad)))
      ∧ (held = false → (s.neighbourOf x.ip).isSome = false → ∃ u, wr = .next u ∧ failed u 6 ∧ u.host.tx = s.host.tx))

/-- What the host answers to the device's own messages: an ACK performs the WRITEs it covers, a READ's response brings its bytes, a NAK
for an invalid request or an access error and a used-up retry count end the pair, anything else, and the pair's ack time-out, has the messages sent again, unless the
neighbour entry is gone, which ends the pair too. A congestion
notification halves the rate, which recovers in steps (R425, R426, R429). -/
def Claims.RoceAnswers : Prop :=
  ∀ (s : State) (q : Fin 4096) (h : RoceHdr) (psn : BitVec 24) (data : List Byte) (m : RMsg) (rest : List RMsg) (a : DWord),
    let x := s.qp q.val
    let j := s.mvJob m.job
    let p := j.part m.part
    let failed (u : State) (cause : Nat) : Prop := (u.qp q.val).st = .error ∧ (u.qp q.val).cause = cause
      ∧ (u.qp q.val).sent = [] ∧ (u.qp q.val).waiting = [] ∧ Raised 160 q.val s u
    let again (u : State) : Prop := u.qp q.val = { x with tries := x.tries + 1, ackTick := s.refclk }
      ∧ (s.isPaused (.cnp q.val) = false → u.host.tx = (x.sent.map fun m => s.framed (.rdma q.val m)).reverse ++ s.host.tx)
    let known := (s.neighbourOf x.ip).isSome
    let waited := (s.refclk - x.ackTick).toNat
    let running := s.hasMv m.job = true ∧ p.st = .running
    let others (u : State) : Prop := ∀ k, k ≠ q.val → u.qp k = s.qp k
      ∧ { u.qp q.val with rate := x.rate, rateBits := x.rateBits, calmTick := x.calmTick, cutTick := x.cutTick } = x
    let halved (u : State) : Prop :=
      (2 * 2 ^ x.rateBits ≤ x.rate → (u.qp q.val).rate * (2 * 2 ^ x.rateBits) = x.rate * 2 ^ (u.qp q.val).rateBits)
        ∧ (x.rate < 2 * 2 ^ x.rateBits → (u.qp q.val).rate = 2 ^ (u.qp q.val).rateBits)
    h.icrcOk = true → h.qpn.toNat = 0x1000 + q.val → h.ce = false →
    (s.linkUp = true → x.st = .rts → x.sent = m :: rest →
      (rest = [] → x.waiting = [] → m.read = false → m.within x.mtu m.psn psn.toNat = true →
        (psn.toNat + 2 ^ 24 - m.psn) % 2 ^ 24 < 2 ^ 23 → running → s.readsLeft j m.part = false →
        mvCount j.words m.part * mvDstRow j.words ≤ p.wpos + m.len →
        ∃ u, exec (.roceAckReceive h psn none) s = .next u ∧ u.qp q.val = { x with sent := [], tries := 0, ackTick := s.refclk }
          ∧ ((u.mvJob m.job).part m.part).wpos = p.wpos + m.len)
      ∧ (∃ u, exec (.roceAckReceive h psn (some 1)) s = .next u ∧ failed u 2)
      ∧ (∃ u, exec (.roceAckReceive h psn (some 2)) s = .next u ∧ failed u 1)
      ∧ (psn.toNat = m.psn → x.tries < x.retry → known = true →
          (∃ u, exec (.roceAckReceive h psn (some 0)) s = .next u ∧ again u)
          ∧ ∃ u, exec (.roceAckReceive h psn (some 3)) s = .next u ∧ again u)
      ∧ (m.read = true → x.waiting = [] → m.psn = psn.toNat → m.len = data.length → running → s.srcHere j.words = false →
          s.dstHere j.words = true → mvCount j.words m.part * mvSrcRow j.words ≤ p.rpos + data.length →
          ∃ u, exec (.rdmaReadResponseReceive h psn data) s = .next u ∧ u.qp q.val = { x with sent := rest, tries := 0, ackTick := s.refclk }
            ∧ ((u.mvJob m.job).part m.part).rpos = p.rpos + data.length
            ∧ ((u.mvJob m.job).part m.part).buf = p.buf ++ [(p.rpos, data)]))
    ∧ (x.st = .rts → x.sent ≠ [] → x.ackTimeout ≠ 0 → 4096 * 2 ^ x.ackTimeout / 10 ≤ waited →
        (x.tries < x.retry → known = true → ∃ u, exec (.roceRetryTimeout q) s = .next u ∧ again u)
        ∧ (x.tries < x.retry → known = false → ∃ u, exec (.roceRetryTimeout q) s = .next u ∧ failed u 6)
        ∧ (x.retry ≤ x.tries → ∃ u, exec (.roceRetryTimeout q) s = .next u ∧ failed u 3))
    ∧ (x.st ≠ .rts ∨ x.ackTimeout = 0 ∨ waited < 4096 * 2 ^ x.ackTimeout / 10 → exec (.roceRetryTimeout q) s = .next s)
    ∧ (x.st ≠ .rts → exec (.rdmaReadResponseReceive h psn data) s = .next s)
    ∧ (s.linkUp = true → x.responds = true →
        (x.cutTick = none →
          ∃ u, exec (.cnpReceive h) s = .next u ∧ halved u ∧ (u.qp q.val).cutTick = some s.refclk ∧ others u)
        ∧ (x.cutTick = some a →
            ∃ u, exec (.cnpReceive h) s = .next u ∧ others u ∧ (u.qp q.val).calmTick = s.refclk
              ∧ (if 5000 ≤ (s.refclk - a).toNat then halved u
                 else (u.qp q.val).rate = x.rate ∧ (u.qp q.val).rateBits = x.rateBits)))
    ∧ (x.responds = true → x.rate < 256 * 2 ^ x.rateBits → 5500 ≤ (s.refclk - x.calmTick).toNat →
        ∃ u, exec (.rateRecovery q) s = .next u
          ∧ (u.qp q.val).calmTick = s.refclk ∧ others u
          ∧ (u.qp q.val).rate * 2 ^ x.rateBits
              = min (256 * 2 ^ x.rateBits) (x.rate + 16 * 2 ^ x.rateBits) * 2 ^ (u.qp q.val).rateBits)
    ∧ ((s.refclk - x.calmTick).toNat < 5500 → exec (.rateRecovery q) s = .next s)

/-- The oldest datagram received, where it fails a check, is counted, logged and answered with ERROR; else a doorbell's slots and an
inline command are accepted once in sequence, a repeated inline command gets its stored reply, an acknowledgment frees event records, and
an echo is answered. Event records go out in order and again after the retry time (R431 to R440). -/
def Obligations.BelpelDatagrams : Prop :=
  ∀ (s : State) (d : Datagram) (rest : List Datagram) (r : List Byte) (dest : List Byte × Nat) (k : EvtRec),
    let b := d.bytes
    let mb := dgWord b 1 % 64
    let seq := BitVec.ofNat 32 (dgWord b 2)
    let m := s.mbox mb
    let v := s.badReason d
    let is (n : Nat) : Prop := v = 0 ∧ dgWord b 0 / 2 ^ 24 = n
    let taken (u : State) : Prop := u.host.rx = rest
    let sent (u : State) (to_ : List Byte × Nat) (type echo : Nat) (body : List Byte) : Prop :=
      SendsOne (.belpel (s.fld .hostUdpPort 0 0 hostUdpPort_port)
          { ip := to_.1, port := to_.2, bytes := belpelBytes type 0 s.host.txSeq.toNat echo body }) s u
        ∧ u.host.txSeq = if (s.neighbourOf to_.1).isSome then s.host.txSeq + 1 else s.host.txSeq
    let stale (u : State) : Prop := taken u ∧ CountedOne .hostBelpelStale 0 0 hostBelpelStale_count s u ∧ u.host.mboxes = s.host.mboxes
    let n := (dgWord b 4 + m.slots - m.tail) % m.slots
    let fresh := s.host.events.filter fun e => e.sentTick.isNone
    let due := s.host.events.filter s.retryDue
    let events (u : State) (l : List EvtRec) : Prop := sent u dest 4 0 ((l.take 32).flatMap EvtRec.bytes)
      ∧ ∀ e ∈ u.host.events, e.sentTick = some s.refclk ∨ e ∈ s.host.events
    (s.host.rx = d :: rest →
      (∀ c ∈ [Instr.doorbell d, .inlineCmd d, .eventAck d, .echoReq d], v ≠ 0 →
        ∃ u, exec c s = .next u ∧ taken u ∧ CountedOne .hostBelpelBad 0 0 hostBelpelBad_count s u
          ∧ u.reg .hostBelpelLog 0 0 = BitVec.ofNat 32 (v + mb * 2 ^ 8) ∧ u.bit .hostErr 0 0 hostErr_belpelBad = true
          ∧ u.reg .hostBelpelSrc 0 0 = BitVec.ofNat 32 (addrValue d.ip)
          ∧ sent u (d.ip, d.port) 6 (dgWord b 2)
              ([Status.malformed.code + v * 2 ^ 16, (u.reg .hostBelpelBad 0 0).toNat, 0, 0].flatMap (bytesOf 4)
                ++ (List.range 16).map fun i => b.getD i 0))
      ∧ (is 1 → accepts m.bellSeq seq = true →
          ∃ u, exec (.doorbell d) s = .next u ∧ taken u ∧ u.host.accepted = s.host.accepted + n
            ∧ u.mbox mb = { m with
                tail := dgWord b 4, bellSeq := some seq
                queue := m.queue ++ (List.range n).map fun i =>
                  (s.host.accepted + i, MbItem.slot ((m.tail + i) % m.slots) seq (d.ip, d.port)) })
      ∧ (is 1 → accepts m.bellSeq seq = false → ∃ u, exec (.doorbell d) s = .next u ∧ stale u)
      ∧ (is 2 → accepts m.inSeq seq = true →
          ∃ u, exec (.inlineCmd d) s = .next u ∧ taken u ∧ u.host.accepted = s.host.accepted + 1
            ∧ u.mbox mb = { m with
                inSeq := some seq, inReply := none
                queue := m.queue ++ [(s.host.accepted, .inline seq (d.ip, d.port) (b.drop 16))] })
      ∧ (is 2 → m.inSeq = some seq → m.inReply = some r →
          ∃ u, exec (.inlineCmd d) s = .next u ∧ taken u ∧ sent u (d.ip, d.port) 3 seq.toNat r ∧ u.host.mboxes = s.host.mboxes)
      ∧ (is 2 → accepts m.inSeq seq = false → m.inSeq ≠ some seq → ∃ u, exec (.inlineCmd d) s = .next u ∧ stale u)
      ∧ (is 5 → ∃ u, exec (.eventAck d) s = .next u ∧ taken u
          ∧ (let freed := fun e : EvtRec => e.seq == BitVec.ofNat 32 (dgWord b 4) || earlier e.seq (BitVec.ofNat 32 (dgWord b 4))
            u.host.events = s.host.events.filter (fun e => !freed e)
            ∧ (s.host.events.filter freed = [k] → s.srcFld k.source irqSrcCfg_target = 4 → (tget s.irq.srcs k.source).st = .active →
                (tget s.irq.srcs k.source).cond = none → (tget u.irq.srcs k.source).st = .idle)))
      ∧ (is 7 → ∃ u, exec (.echoReq d) s = .next u ∧ taken u ∧ sent u (d.ip, d.port) 8 (dgWord b 2) (b.drop 16))
      ∧ (is 7 → exec (.doorbell d) s = .next s))
    ∧ (s.host.endpoint = some dest → s.linkUp = true → (s.neighbourOf dest.1).isSome = true →
        (fresh ≠ [] → ∃ u, exec .eventDatagramSend s = .next u ∧ events u fresh)
        ∧ (due ≠ [] → ∃ u, exec .eventRetry s = .next u ∧ events u due))
    ∧ (s.host.endpoint = none ∨ s.linkUp = false ∨ (s.host.endpoint = some dest ∧ s.neighbourOf dest.1 = none) →
        exec .eventDatagramSend s = .next s ∧ exec .eventRetry s = .next s)

/-! ### Mailbox commands (R439 to R453) -/

/-- A command is taken from the mailbox served next and answered in its slot, reply word 3 last; a waiting one executes once its
condition is met, or ends at its deadline with TIMED_OUT and no other effect. A command of the form marked "0" that comes on another
mailbox is NOT_PERMITTED, and one that cannot be taken waits (R443, R445, R446, R450). -/
def Obligations.CommandsAreTakenAndAnswered : Prop :=
  ∀ (s t : State) (mb i n : Nat) (seq : Word) (src : List Byte × Nat) (rest : List (Nat × MbItem)) (c : MbCmd) (w : MbWait)
    (body : List Byte) (h : CmdHdr) (b : Byte),
    let m := s.mbox mb
    let a := m.base + 1024 * i
    let bs := s.bytes a 1024
    let popped : State := { s.setMbox mb { m with queue := rest } with
      host := { (s.setMbox mb { m with queue := rest }).host with lastMbox := mb } }
    let tag := cmdWord bs 1 % 2 ^ 16
    let reply (st : Status) (op : Nat) (ticks : Nat) : List Byte := replyBytes op tag st.code ticks i (if st = .ok then body else [])
    let wrote (u : State) (l : List Byte) : Prop := NoContextStore a l.length → ∀ k, k < l.length → u.byte (a + k) = l.getD k 0
    let noted (u : State) (h : CmdHdr) (op : Nat) (st : Status) (body : List Byte) : State := { u with host := { u.host with
      replies := { mb := h.mb.val, opcode := op, tag := h.tag.toNat, status := st, body := body } :: u.host.replies } }
    (s.pwr.st = .running → s.host.waiting.any s.mayResume = false → s.nextMbox s.mbReady = some mb →
      m.queue = (n, .slot i seq src) :: rest → m.replies = false → s.trafficHeld belfryIsland [(a, 1024)] = false →
      s.knownBad a 1024 = none →
      (parseCmd bs = none →
        ∃ u, exec (.mailboxCommandTake .clean) s = .next u ∧ (u.mbox mb).queue = rest ∧ u.host.lastMbox = mb
          ∧ wrote u (reply .badCommand (cmdWord bs 0 % 2 ^ 16) 0))
      ∧ (parseCmd bs = some c → popped.runCmd (cmdHdr (Fin.ofNat 64 mb) bs) c = .ok body t →
          popped.storesHeld belfryIsland (popped.cmdSpans c) = false → (t.mbox (mb % 64)).base = m.base → (t.mbox (mb % 64)).replies = false →
          ∃ u, exec (.mailboxCommandTake .clean) s = .next u ∧ wrote u (reply .ok c.op (t.ticksSince s.refclk))
            ∧ u.host.replies = { mb := mb % 64, opcode := c.op, tag := tag, status := .ok, body := body } :: t.host.replies))
    ∧ (s.host.waiting.any s.mayResume = true ∨ s.nextMbox s.mbReady = none → exec (.mailboxCommandTake .clean) s = .next s)
    ∧ (s.host.waiting.find? s.mayResume = some w → w.item = none → (s.unwait w).resumeRes w = .ok body t →
        (s.unwait w).storesHeld belfryIsland ((s.unwait w).cmdSpans w.cmd) = false →
        exec .mailboxCommandResume s = .next (noted t w.hdr w.cmd.op .ok body))
    ∧ (s.host.waiting.find? s.mayResume = none → exec .mailboxCommandResume s = .next s)
    ∧ (s.host.waiting.find? s.mbLate = some w → w.item = none →
        exec .mailboxCommandTimeout s = .next (noted (s.unwait w) w.hdr w.cmd.op .timedOut []))
    ∧ (s.host.waiting.find? s.mbLate = none → exec .mailboxCommandTimeout s = .next s)
    ∧ (s.directReady h.mb.val (.memLocalSet b) = true → h.mb.val ≠ 0 →
        exec (.memLocalSet h b) s = .next (s.replied h (.memLocalSet b) .notPermitted []))
    ∧ (s.mayTake = false ∨ (s.mbox h.mb.val).isOpen = false ∨ s.mbHeld h.mb.val = true ∨ (s.mbox h.mb.val).queue ≠ [] →
        exec (.memLocalSet h b) s = .next s ∧ exec (.devInfo h) s = .next s)

/-- The device commands: a mailbox opens with its ring and closes once nothing of it waits; device information, registers and telemetry
are read; sources are masked for the host; spread-spectrum settings go to the open copy; DEV_RESET resets after its reply (R439, R440,
R452, R453, R504, R520, R526, R531). -/
def Obligations.DeviceCommands : Prop :=
  ∀ (s : State) (h : CmdHdr) (m k b1 b2 : Byte) (n n2 : Half) (a : DWord) (rs : List (RegId × Nat × Nat)),
    let one := (s.mbox m.toNat).isOpen
    let mine := 1 ≤ m.toNat ∧ m.toNat ≤ 63
    let legalOpen := b1.toNat ≤ 1 ∧ 1 ≤ n.toNat ∧ n.toNat ≤ 256 ∧ a.toNat < 2 ^ 48 ∧ a.toNat % 1024 = 0
      ∧ inQueueMem a.toNat = true ∧ inOneRegion a.toNat (n.toNat * 1024) = true
    (Taken h (.mboxOpen m b1 n a) s → mine → legalOpen →
      (one = false → exec (.mboxOpen h m b1 n a) s = .next ((s.setMbox m.toNat { (default : Mbox) with
          isOpen := true, base := a.toNat, slots := n.toNat, replies := b1 == 1 }).replied h (.mboxOpen m b1 n a) .ok []))
      ∧ (one = true → exec (.mboxOpen h m b1 n a) s = .next (s.replied h (.mboxOpen m b1 n a) .wrongState [])))
    ∧ (Taken h (.mboxClose m) s → mine →
        (one = false → exec (.mboxClose h m) s = .next (s.replied h (.mboxClose m) .wrongState []))
        ∧ (one = true → s.mbHeld m.toNat = false →
            exec (.mboxClose h m) s = .next ((s.setMbox m.toNat default).replied h (.mboxClose m) .ok []))
        ∧ (one = true → s.mbHeld m.toNat = true → ∃ u, exec (.mboxClose h m) s = .next u ∧ Waits h (.mboxClose m) s u))
    ∧ (Taken h .devInfo s → exec (.devInfo h) s = .next (s.replied h .devInfo .ok
        (bytesOf 8 Config.serial.toNat ++ bytesOf 2 (s.fld .ctlSeamStat 0 0 ctlSeamStat_index) ++ bytesOf 2 s.fabAddr
          ++ bytesOf 4 s.pwr.version ++ bytesOf 4 s.pwr.svn ++ bytesOf 4 (s.reg .ctlIslandReady 0 0).toNat)))
    ∧ (Taken h (.devReset k) s →
        (k = 0 → ∃ u, exec (.devReset h k) s = .next u ∧ Replied h (.devReset k) .ok [] s u ∧ u.pwr.st = .held ∧ u.pwr.cause = 2
          ∧ u.thr = State.reset.thr ∧ u.host.mboxes = [] ∧ u.reg .ctlIslandReady 0 0 = 0 ∧ u.pending = s.pending)
        ∧ (k ≠ 0 → exec (.devReset h k) s = .next (s.replied h (.devReset k) .badArgument [])))
    ∧ (Taken h (.regRead n a) s → 1 ≤ n.toNat → n.toNat ≤ 64 → a.toNat < 2 ^ 48 → a.toNat % 4 = 0 → regionOf a.toNat = .regSpace →
        regionOf (a.toNat + 4 * n.toNat - 1) = .regSpace →
        let at_ := (List.range n.toNat).map fun i => regAt (a.toNat + 4 * i)
        (at_ = rs.map some →
          ∃ u, exec (.regRead h n a) s = .next u ∧ u = (s.readRegs rs).2.replied h (.regRead n a) .ok (s.readRegs rs).1)
        ∧ (none ∈ at_ → exec (.regRead h n a) s = .next (s.replied h (.regRead n a) .addressFault [])))
    ∧ (Taken h (.eventMask n n2 b1) s → 1 ≤ n2.toNat → n2.toNat ≤ 1024 → b1.toNat ≤ 1 →
        (n.toNat + n2.toNat ≤ 1024 →
          ∃ u, exec (.eventMask h n n2 b1) s = .next u ∧ Replied h (.eventMask n n2 b1) .ok [] s u
            ∧ ∀ i, i < 1024 → u.srcFld i irqSrcCfg_hostMask
              = (if n.toNat ≤ i ∧ i < n.toNat + n2.toNat ∧ srcListed i = true then b1.toNat else s.srcFld i irqSrcCfg_hostMask)
              ∧ u.srcFld i irqSrcCfg_target = s.srcFld i irqSrcCfg_target)
        ∧ (1024 < n.toNat + n2.toNat → exec (.eventMask h n n2 b1) s = .next (s.replied h (.eventMask n n2 b1) .lengthRange [])))
    ∧ (Taken h .telemetryRead s → exec (.telemetryRead h) s = .next (s.replied h .telemetryRead .ok
        ((List.range 64).flatMap fun i => bytesOf 4 (s.pwr.telemetry.getD i 0).toNat)))
    ∧ (Taken h (.sscSet b1 b2) s → b1.toNat ≤ 20 → 30 ≤ b2.toNat → b2.toNat ≤ 63 →
        exec (.sscSet h b1 b2) s = .next (({ s with step := { s.step with openSet := { s.step.openSet with
          sscDepth := b1.toNat, sscRate := b2.toNat } } }).replied h (.sscSet b1 b2) .ok []))

/-- The context commands: a context is created ACTIVE with the lowest free slots and its thread range, and torn down; its queues get
rings and zero heads and tails; threads are spawned; its schedule and the lantern slice are set in the open copies; its fault record is
read (R173, R183, R456, R459, R461, R463, R473, R476, R570). -/
def Obligations.ContextCommands : Prop :=
  ∀ (s : State) (h : CmdHdr) (c8 k8 t8 b1 : Byte) (n1 n2 : Half) (count : Word) (a b : DWord) (l : List DWord) (r : FaultRec)
    (k : QKind),
    let c := c8.toNat
    let t := t8.toNat
    let slots (t : Nat) : List Nat := (s.freeSlots t).take b1.toNat
    let ring (k : QKind) := ringOk k t a.toNat (n1.toNat * descBytes k) = true ∧ ringOk k t b.toNat (n2.toNat * 32) = true
    let idx := freeIndices s t (count.toNat + s.liveThreads t c) (s.thrBase t c) count.toNat
    let reserved (t : Nat) : List Nat := s.pickCores c t b1.toNat (l.getD t 0).toNat
    (Taken h (.ctxCreate c8 k8 b1 n1 n2) s → c ≤ 15 → k8.toNat ≤ 1 → b1.toNat ≤ 32 → n1.toNat + n2.toNat ≤ 4096 → n1.toNat < 4096 →
      (∀ t, t < 8 → b1.toNat ≤ (s.freeSlots t).length) → s.ctxState c = 0 → s.anyThread c = false →
      (∀ t d, t < 8 → d < 16 → d ≠ c → rangesMeet (64 * n1.toNat) (64 * n2.toNat) (s.thrBase t d) (s.thrCount t d) = false) →
      ∃ u, exec (.ctxCreate h c8 k8 b1 n1 n2) s = .next u
        ∧ Replied h (.ctxCreate c8 k8 b1 n1 n2) .ok
            ((List.range 8).flatMap fun t => bytesOf 4 ((slots t).foldl (fun m p => m + 2 ^ p) 0)) s u
        ∧ u.ctxState c = 1 ∧ u.member c = false
        ∧ ∀ t, t < 8 → u.thrBase t c = 64 * n1.toNat ∧ u.thrCount t c = 64 * n2.toNat
          ∧ ∀ p, p < 32 → (tget u.ctx.slotMask c).testBit (32 * t + p) = (slots t).contains p)
    ∧ (Taken h (.ctxDestroy c8) s → c ≤ 15 →
        (s.ctxState c = 0 → exec (.ctxDestroy h c8) s = .next (s.replied h (.ctxDestroy c8) .notFound []))
        ∧ (s.ctxState c = 1 → s.member c = false →
            ∃ u, exec (.ctxDestroy h c8) s = .next u ∧ u.ctxState c = 2 ∧ tget u.ctx.destroying c = true
              ∧ u.host.waiting = s.host.waiting ++ [{ hdr := h, cmd := .ctxDestroy c8, item := none, taken := s.refclk }])
        ∧ (s.ctxState c = 3 →
            ∃ u, exec (.ctxDestroy h c8) s = .next u ∧ Replied h (.ctxDestroy c8) .ok [] s u ∧ u.ctxState c = 0
              ∧ tget u.ctx.slotMask c = 0 ∧ tget u.ctx.faults c = none))
    ∧ (Taken h (.ctxQueueSet c8 k8 t8 n1 n2 a b) s → t ≤ 7 → a.toNat < 2 ^ 48 → b.toNat < 2 ^ 48 → c ≤ 15 → n1.toNat ≠ 0 →
        s.ctxState c ≠ 0 →
        (kindOf k8.toNat = some k → n2.toNat ≠ 0 → a.toNat % 128 = 0 → b.toNat % 32 = 0 → ring k → s.qHasWork k t c = false →
          ∃ u, exec (.ctxQueueSet h c8 k8 t8 n1 n2 a b) s = .next u ∧ Replied h (.ctxQueueSet c8 k8 t8 n1 n2 a b) .ok [] s u
            ∧ u.qHead k t c = 0 ∧ u.qTail k t c = 0 ∧ u.cqHead k t c = 0 ∧ u.cqTail k t c = 0 ∧ u.qSize k t c = n1.toNat
            ∧ u.cqSize k t c = n2.toNat ∧ u.qBase k t c = a.toNat ∧ u.cqBase k t c = b.toNat)
        ∧ (kindOf k8.toNat = some k → n2.toNat ≠ 0 → a.toNat % 128 = 0 → b.toNat % 32 = 0 → ring k → s.qHasWork k t c = true →
            exec (.ctxQueueSet h c8 k8 t8 n1 n2 a b) s = .next (s.replied h (.ctxQueueSet c8 k8 t8 n1 n2 a b) .wrongState []))
        ∧ (k8.toNat = 6 → a.toNat % 16 = 0 → regionOf a.toNat = .queueMem t → inOneRegion a.toNat (n1.toNat * 16) = true →
            s.poolHead t c = s.poolTail t c → s.starved t c = [] →
            ∃ u, exec (.ctxQueueSet h c8 k8 t8 n1 n2 a b) s = .next u ∧ Replied h (.ctxQueueSet c8 k8 t8 n1 n2 a b) .ok [] s u
              ∧ u.poolHead t c = 0 ∧ u.poolTail t c = 0))
    ∧ (Taken h (.ctxSpawn c8 t8 count a b) s → t ≤ 7 → a.toNat < 2 ^ 48 → a.toNat % 8 = 0 → c ≤ 15 → s.ctxState c = 1 →
        (count.toNat + s.liveThreads t c ≤ s.thrCount t c →
          ∃ u, exec (.ctxSpawn h c8 t8 count a b) s = .next u ∧ Replied h (.ctxSpawn c8 t8 count a b) .ok [] s u
            ∧ u.thr.ready = s.thr.ready ++ idx.map (thrKey t)
            ∧ ∀ o j, idx[o]? = some j → (u.trec (thrKey t j)).st = .ready ∧ (u.trec (thrKey t j)).ctx = c
              ∧ (u.trec (thrKey t j)).sc.pc = a.toNat ∧ tget (u.trec (thrKey t j)).sc.s 0 = BitVec.ofNat 64 o
              ∧ tget (u.trec (thrKey t j)).sc.s 1 = b)
        ∧ (s.thrCount t c < count.toNat + s.liveThreads t c →
            exec (.ctxSpawn h c8 t8 count a b) s = .next (s.replied h (.ctxSpawn c8 t8 count a b) .lengthRange [])))
    ∧ (Taken h (.ctxSchedSet c8 k8 b1 l) s → c < 15 → k8.toNat ≤ 7 → b1.toNat ≤ 64 → s.ctxState c ≠ 0 →
        ((∀ t, t < 8 → (reserved t).length = b1.toNat) →
          ∃ u, exec (.ctxSchedSet h c8 k8 b1 l) s = .next u ∧ Replied h (.ctxSchedSet c8 k8 b1 l) .ok [] s u ∧ OpenOnly s u
            ∧ (tget u.step.openSet.sched c).prio = k8.toNat
            ∧ ∀ t i, t < 8 → i < 64 → (tget u.step.openSet.sched c).reserved.testBit (64 * t + i) = (reserved t).contains i
              ∧ (tget u.step.openSet.sched c).allowed.testBit (64 * t + i) = (l.getD t 0).toNat.testBit i)
        ∧ ((∃ t, t < 8 ∧ (reserved t).length < b1.toNat) →
            exec (.ctxSchedSet h c8 k8 b1 l) s = .next (s.replied h (.ctxSchedSet c8 k8 b1 l) .wrongState [])))
    ∧ (Taken h (.lanternSet k8 t8 a b) s → 1 ≤ k8.toNat → k8.toNat ≤ 64 → t8.toNat ≤ 16 → a.toNat < 2 ^ 48 →
        a.toNat + b.toNat < 2 ^ 48 → (∀ t i, t < 8 → i ∈ s.otherReserved 15 t → i < 64 - k8.toNat) →
        ∃ u, exec (.lanternSet h k8 t8 a b) s = .next u ∧ Replied h (.lanternSet k8 t8 a b) .ok [] s u ∧ OpenOnly s u
          ∧ u.step.openSet.lantern = { cores := k8.toNat, windows := t8.toNat, base := a.toNat, size := b.toNat })
    ∧ (Taken h (.ctxFaultRead c8) s → c ≤ 15 →
        (s.ctxState c = 3 → tget s.ctx.faults c = some r →
          exec (.ctxFaultRead h c8) s = .next (s.replied h (.ctxFaultRead c8) .ok (r.words.flatMap (bytesOf 4))))
        ∧ (s.ctxState c = 1 → exec (.ctxFaultRead h c8) s = .next (s.replied h (.ctxFaultRead c8) .wrongState [])))
    ∧ (Taken h (.kvTimeoutSet c8 k8 count) s → count ≠ 0 → c ≤ 15 → s.ctxState c ≠ 0 →
        ∃ u, exec (.kvTimeoutSet h c8 k8 count) s = .next u ∧ Replied h (.kvTimeoutSet c8 k8 count) .ok [] s u
          ∧ ∀ t d, t < 8 → d < 16 → u.reg .atnPageTimeout t d
            = if d = c ∧ k8.toNat.testBit t = true then count else s.reg .atnPageTimeout t d)

/-- The step group's commands and those of bias tables and the codec: a group is created on its first step with the open settings active,
and dissolved; the open epoch and bank table take their values; the phase table is read; bias tables load unless a job uses them (R32,
R46, R50, R53, R55, R249, R307, R460, R475). -/
def Obligations.StepGroupCommands : Prop :=
  ∀ (s : State) (h : CmdHdr) (b1 b2 : Byte) (members flags parent epoch n : Half) (w : Word) (d : DWord) (kids : List Half)
    (es : List Word),
    let a := d.toNat
    let words (i : Nat) : List Nat := ((es.map (·.toNat)).drop (8 * i)).take 8
    let bank (i : Nat) : BankPair := pairOfWords (words i)
    let create := MbCmd.stepGroupCreate b1 b2 members flags parent epoch w d kids
    (Taken h create s →
      (members.toNat < 2 ^ 15 → flags.toNat ≤ 1 → b2.toNat ≤ 8 → s.groupState = 0 → s.red.held = [] → (∀ x ∈ s.ram.jobs, x.2.c < 16) →
        (∀ c, c < 15 → members.toNat.testBit c = true → s.ctxState c ≠ 0) →
        ∃ u, exec (.stepGroupCreate h b1 b2 members flags parent epoch w d kids) s = .next u ∧ Replied h create .ok [] s u
          ∧ u.groupState = 1 ∧ u.stepNo = w ∧ u.isRoot = (flags.toNat == 1)
          ∧ (∀ c, c < 15 → u.member c = members.toNat.testBit c) ∧ u.step.active = { s.step.openSet with epoch := epoch }
          ∧ u.step.groupTag = b1 ∧ u.step.parent = parent ∧ u.step.children = kids ∧ u.step.arrives = []
          ∧ u.reg .ctlSrSeedLo 0 0 = d.truncate 32 ∧ u.reg .ctlSrSeedHi 0 0 = d.extractLsb' 32 32
          ∧ ∀ p, p ∈ s.step.openSet.pairs → tget u.step.contentA p = w - 1 ∧ tget u.step.contentB p = w - 1)
      ∧ (members.toNat < 2 ^ 15 → flags.toNat ≤ 1 → b2.toNat ≤ 8 → s.groupState ≠ 0 →
          exec (.stepGroupCreate h b1 b2 members flags parent epoch w d kids) s = .next (s.replied h create .wrongState [])))
    ∧ (Taken h .stepGroupDissolve s →
        (s.groupState ≠ 0 →
          ∃ u, exec (.stepGroupDissolve h) s = .next u ∧ Replied h .stepGroupDissolve .ok [] s u ∧ u.groupState = 0
            ∧ u.step.children = [] ∧ u.step.arrives = [] ∧ ∀ c, c < 15 → u.member c = false)
        ∧ (s.groupState = 0 → exec (.stepGroupDissolve h) s = .next (s.replied h .stepGroupDissolve .notFound [])))
    ∧ (Taken h (.epochSet epoch) s →
        (epoch.toNat = s.activeEpoch ∨ epoch.toNat = (s.activeEpoch + 1) % 2 ^ 16 →
          exec (.epochSet h epoch) s = .next (({ s with step := { s.step with openSet := { s.step.openSet with
            epoch := epoch } } }).replied h (.epochSet epoch) .ok []))
        ∧ (epoch.toNat ≠ s.activeEpoch → epoch.toNat ≠ (s.activeEpoch + 1) % 2 ^ 16 →
            ∃ u, exec (.epochSet h epoch) s = .next u ∧ Replied h (.epochSet epoch) .badArgument [] s u ∧ u.step = s.step
              ∧ u.bit .ctlStepErr 0 0 ctlStepErr_epochWriteRejected = true))
    ∧ (Taken h (.bankTableSet b1 b2 es) s → 1 ≤ b2.toNat → b1.toNat + b2.toNat ≤ 16 →
        (∀ i, i < b2.toNat → pairReserved (words i) = false ∧ ((bank i).size = 0 ∨
          (inHbm (bank i).baseA ((bank i).size * 4096) = true ∧ inHbm (bank i).baseB ((bank i).size * 4096) = true))) →
        (let new := (List.range b2.toNat).foldl (fun l i => tput l (b1.toNat + i) (bank i)) s.step.openSet.banks
         overlaps (new.flatMap fun x => [(x.2.baseA, x.2.size * 4096), (x.2.baseB, x.2.size * 4096)]) = false) →
        ∃ u, exec (.bankTableSet h b1 b2 es) s = .next u ∧ Replied h (.bankTableSet b1 b2 es) .ok [] s u ∧ OpenOnly s u
          ∧ ∀ p, tget u.step.openSet.banks p
            = if b1.toNat ≤ p ∧ p < b1.toNat + b2.toNat then bank (p - b1.toNat) else tget s.step.openSet.banks p)
    ∧ (Taken h (.stepTimeoutSet w) s →
        ∃ u, exec (.stepTimeoutSet h w) s = .next u ∧ Replied h (.stepTimeoutSet w) .ok [] s u ∧ u.reg .ctlStepTimeout 0 0 = w
          ∧ ∀ r t i, regKey r t i ≠ regKey .ctlStepTimeout 0 0 → u.reg r t i = s.reg r t i)
    ∧ (Taken h (.phaseTableRead b1 b2) s → 1 ≤ b2.toNat → b2.toNat ≤ 3 →
        (b1.toNat + b2.toNat ≤ s.step.table.length →
          exec (.phaseTableRead h b1 b2) s = .next (s.replied h (.phaseTableRead b1 b2) .ok
            (((s.step.table.drop b1.toNat).take b2.toNat).flatMap fun e => e.words.flatMap (bytesOf 4))))
        ∧ (s.step.table.length < b1.toNat + b2.toNat →
            exec (.phaseTableRead h b1 b2) s = .next (s.replied h (.phaseTableRead b1 b2) .lengthRange [])))
    ∧ (Taken h (.biasLoad b1 b2 n d) s → b1.toNat ≤ 63 → 1 ≤ n.toNat → n.toNat ≤ 4096 → a < 2 ^ 48 → inDeviceMem a = true →
        inOneRegion a (2 * n.toNat) = true →
        (s.biasInUse b1.toNat = true → ∃ u, exec (.biasLoad h b1 b2 n d) s = .next u ∧ Waits h (.biasLoad b1 b2 n d) s u)
        ∧ (s.biasInUse b1.toNat = false → s.knownBad a (2 * n.toNat) = none →
            ∃ u, exec (.biasLoad h b1 b2 n d) s = .next u ∧ Replied h (.biasLoad b1 b2 n d) .ok [] s u
              ∧ ∀ t k, t < 8 → k < n.toNat → b2.toNat.testBit t = true →
                (tget u.atn.bias ((t * 64 + b1.toNat) * 4096 + k)).toNat = s.num (a + 2 * k) 2
                ∧ (u.reg (if b1.toNat < 32 then .atnBiasValidLo else .atnBiasValidHi) t 0).getLsbD (b1.toNat % 32) = true))
    ∧ (Taken h (.codecMaint 1) s →
        ∃ u, exec (.codecMaintOn h) s = .next u ∧ Replied h (.codecMaint 1) .ok [] s u ∧ OnlyReg .cdcMode 0 0 s { s with regs := u.regs }
          ∧ u.bit .cdcMode 0 0 cdcMode_maintPending = !s.bit .cdcMode 0 0 cdcMode_maint)
    ∧ (Taken h (.codecMaint 0) s →
        ∃ u, exec (.codecMaintOff h) s = .next u ∧ Replied h (.codecMaint 0) .ok [] s u ∧ OnlyReg .cdcMode 0 0 s { s with regs := u.regs }
          ∧ u.bit .cdcMode 0 0 cdcMode_maintPending = s.bit .cdcMode 0 0 cdcMode_maint)

/-- The memory commands: the local share and the calibration settings of every drum, the statistics entries, the mirror table, the
snapshot list and schedule, the repair list, failure counts and refills (R314, R317, R320, R322, R335, R342, R343, R480, R483, R490,
R491, R524). -/
def Obligations.MemoryCommands : Prop :=
  ∀ (s : State) (h : CmdHdr) (b1 b2 : Byte) (n n2 src : Half) (w w2 : Word) (d d2 : DWord) (es : List Word) (rows : List DWord),
    let table (u : State) (t : Nat) : Prop :=
      drumBase t + 0xF000000 ≤ u.mstBase t ∧ u.mstBase t + 1024 ≤ drumBase t + 0x10000000
    let entry (u : State) (t : Nat) : Nat := u.mstBase t + 64 * b1.toNat
    let words (i : Nat) : List Nat := ((es.map (·.toNat)).drop (8 * i)).take 8
    let base (i : Nat) : Nat := pageBase ((words i).getD 0 0) ((words i).getD 1 0)
    let size (i : Nat) : Nat := (words i).getD 2 0
    let total (i : Nat) : Nat := (List.range 8).foldl (fun x t => if s.mstBase t = 0 then x
      else if i = 8 then max x (s.word (entry s t + 4 * i)) else x + s.word (entry s t + 4 * i)) 0
    let counts : List Byte := (List.range' 5 11).flatMap fun i => bytesOf 4 (min (total i) (2 ^ 32 - 1))
    (Taken h (.memLocalSet b1) s → b1.toNat ≤ 64 →
      (s.localCfgFree = true → ∃ u, exec (.memLocalSet h b1) s = .next u ∧ Replied h (.memLocalSet b1) .ok [] s u
        ∧ ∀ t, t < 8 → u.localGib t = b1.toNat)
      ∧ (s.localCfgFree = false → exec (.memLocalSet h b1) s = .next (s.replied h (.memLocalSet b1) .wrongState [])))
    ∧ (Taken h (.memCalSet n b1 b2) s → b1.toNat ≤ 15 →
        ∃ u, exec (.memCalSet h n b1 b2) s = .next u ∧ Replied h (.memCalSet n b1 b2) .ok [] s u
          ∧ ∀ t, t < 8 → u.fld .memCalCfg t 0 memCalCfg_calInterval = n.toNat
            ∧ u.fld .memCalCfg t 0 memCalCfg_calMinMargin = b1.toNat ∧ u.fld .memScrubCfg t 0 memScrubCfg_scrubHours = b2.toNat)
    ∧ (Taken h (.memStatsSet b1 b2 d d2) s → b1.toNat ≤ 15 → b2.toNat ≤ 1 → d.toNat < d2.toNat → d2.toNat < 2 ^ 48 →
        d.toNat < 2 ^ 48 → (∀ t, t < 8 → s.mstBase t = 0 ∨ table s t) →
        ∃ u, exec (.memStatsSet h b1 b2 d d2) s = .next u ∧ Replied h (.memStatsSet b1 b2 d d2) .ok [] s u
          ∧ ∀ t, t < 8 → table u t ∧ (s.mstBase t ≠ 0 → u.mstBase t = s.mstBase t) ∧ u.num (entry u t) 8 = d.toNat
            ∧ u.num (entry u t + 8) 8 = d2.toNat ∧ u.word (entry u t + 16) = b2.toNat)
    ∧ (Taken h (.memStatsRead b1 b2) s → b1.toNat ≤ 15 →
        (b2 = 0 → exec (.memStatsRead h b1 b2) s = .next (s.replied h (.memStatsRead b1 b2) .ok counts))
        ∧ (b2 ≠ 0 → (∀ t, t < 8 → s.mstBase t = 0 ∨ table s t) →
            ∃ u, exec (.memStatsRead h b1 b2) s = .next u ∧ Replied h (.memStatsRead b1 b2) .ok counts s u
              ∧ ∀ t i, t < 8 → s.mstBase t ≠ 0 → 5 ≤ i → i < 16 → u.word (entry s t + 4 * i) = 0))
    ∧ (Taken h (.mirrorTableSet b1 b2 es) s → 1 ≤ b2.toNat → b1.toNat + b2.toNat ≤ 64 →
        (∀ i, i < b2.toNat → (words i).getD 0 0 % 4096 = 0 ∧ (words i).getD 1 0 < 2 ^ 16 ∧ (words i).getD 3 0 < 2 ^ 16
          ∧ (words i).getD 4 0 < 4 ∧ (words i).getD 6 0 = 0 ∧ (words i).getD 7 0 = 0
          ∧ (s.mirrorEnt (b1.toNat + i)).filling = false ∧ (size i = 0 ∨ inHbm (base i) (size i * 4096) = true)) →
        overlaps (((List.range b2.toNat).map fun i => (base i, size i * 4096))
          ++ ((List.range 64).filter fun e => e < b1.toNat || b1.toNat + b2.toNat ≤ e).map fun e =>
            ((s.mirrorEnt e).base, (s.mirrorEnt e).size * 4096)) = false →
        ∃ u, exec (.mirrorTableSet h b1 b2 es) s = .next u ∧ Replied h (.mirrorTableSet b1 b2 es) .ok [] s u
          ∧ (∀ i, i < b2.toNat → (u.mirrorEnt (b1.toNat + i)).base = base i ∧ (u.mirrorEnt (b1.toNat + i)).size = size i
              ∧ (u.mirrorEnt (b1.toNat + i)).src = (words i).getD 3 0)
          ∧ ∀ e, e < b1.toNat ∨ b1.toNat + b2.toNat ≤ e → u.mirrorEnt e = s.mirrorEnt e)
    ∧ (Taken h (.snapshotListSet b1 es) s → b1.toNat ≤ 64 → exec (.snapshotListSet h b1 es) s
        = .next (({ s with ram := { s.ram with snapList := es } }).replied h (.snapshotListSet b1 es) .ok []))
    ∧ (Taken h (.snapshotScheduleSet b1 n w) s → b1.toNat ≤ 2 → 2 ≤ n.toNat → n.toNat ≤ 240 →
        exec (.snapshotScheduleSet h b1 n w) s = .next (({ s with step := { s.step with openSet := { s.step.openSet with
          snap := { mode := b1.toNat, interval := n.toNat, cost := w, computed := false } } } }).replied h
            (.snapshotScheduleSet b1 n w) .ok []))
    ∧ (Taken h (.repairListGet n n2) s → 1 ≤ n2.toNat → n2.toNat ≤ 120 →
        (n.toNat + n2.toNat ≤ s.ram.repair.length → exec (.repairListGet h n n2) s = .next (s.replied h (.repairListGet n n2) .ok
          (((s.ram.repair.drop n.toNat).take n2.toNat).flatMap fun r => bytesOf 8 r.toNat)))
        ∧ (s.ram.repair.length < n.toNat + n2.toNat →
            exec (.repairListGet h n n2) s = .next (s.replied h (.repairListGet n n2) .lengthRange [])))
    ∧ (Taken h (.repairListPut n rows) s → n.toNat ≤ 120 →
        (s.pwr.training = false → ∃ u, exec (.repairListPut h n rows) s = .next u ∧ Replied h (.repairListPut n rows) .ok [] s u
          ∧ u.ram = { s.ram with supplied := rows } ∧ u.pwr.training = true ∧ ∀ i, 9 ≤ i → i ≤ 16 → u.locked i = true)
        ∧ (s.pwr.training = true → exec (.repairListPut h n rows) s = .next (s.replied h (.repairListPut n rows) .wrongState [])))
    ∧ (Taken h (.failureReport w w2) s →
        ∃ u, exec (.failureReport h w w2) s = .next u ∧ Replied h (.failureReport w w2) .ok [] s u ∧ u.step.failures = w
          ∧ u.step.hours = w2 ∧ u.step.reported = true ∧ u.step.active = s.step.active)
    ∧ (Taken h (.mirrorRefill b1 src) s → b1.toNat ≤ 63 → src.toNat = s.neighbour 2 (decide (32 ≤ b1.toNat)) →
        ((s.mirrorEnt b1.toNat).size ≠ 0 → s.ram.refillIn = none → s.snapFills b1.toNat = false →
          ∃ u, exec (.mirrorRefill h b1 src) s = .next u ∧ Replied h (.mirrorRefill b1 src) .ok [] s u
            ∧ u.ram = { s.ram with refillIn := some (b1.toNat, src.toNat, 0) }
            ∧ u.fld .ctlRefillStat 0 0 ctlRefillStat_entry = b1.toNat ∧ u.bit .ctlRefillStat 0 0 ctlRefillStat_busy = true
            ∧ u.fab.mgmtOut = (src.toNat, .refill b1.toNat (s.mirrorEnt b1.toNat).base (s.mirrorEnt b1.toNat).size) :: s.fab.mgmtOut)
        ∧ ((s.mirrorEnt b1.toNat).size = 0 →
            exec (.mirrorRefill h b1 src) s = .next (s.replied h (.mirrorRefill b1 src) .notFound [])))

/-- The reduction and fabric commands: a group's entry and its buckets' entries are written, and the open scale; ports are read, addressed,
routed, retrained, quarantined and configured (R349 to R354, R388, R390, R409, R412, R416 to R419). -/
def Obligations.FabricCommands : Prop :=
  ∀ (s : State) (h : CmdHdr) (b1 b2 b3 b4 b5 : Byte) (e n n2 : Half) (w w2 : Word) (d : DWord) (ws : List Word) (bs : List Byte) (g : Grp),
    let key := grpKey b1.toNat e.toNat
    let x (i : Nat) : Nat := (ws.getD i 0).toNat
    let new := grpOf ((List.range 16).map x)
    let old := s.grp key
    let a := d.toNat
    let setG := MbCmd.redGroupSet b1 e ws
    let setB := MbCmd.redBucketsSet b1 e w w2 d
    let src (i : Nat) : List Nat := (List.range 8).map fun j => s.word (a + 32 * i + 4 * j)
    let dst := g.bucketBase + 32 * w.toNat
    let p := b1.toNat
    let addr := MbCmd.fabAddrSet b1 b2 b3 b4 b5 e
    let table := routeTable b1.toNat
    (Taken h setG s → grpReserved x = false →
      (new.valid = true → grpBad x new = false ∧ inQueueMem new.cqBase = true ∧ inOneRegion new.cqBase (64 * new.cqSize) = true
        ∧ inDeviceMem new.bucketBase = true ∧ inOneRegion new.bucketBase (32 * new.nBuckets) = true) →
      (¬(old.valid = true ∧ old.epoch = s.activeEpoch) → s.groupState ≠ 2 →
        (s.grpPlaced = true → NoContextStore (s.grpAddr key) 64) →
        ∃ u, exec (.redGroupSet h b1 e ws) s = .next u ∧ Replied h setG .ok [] s u ∧ tget u.red.rings key = []
          ∧ (∀ i, i < 16 → i ≠ 0 → i ≠ 11 → i ≠ 12 → u.word (u.grpAddr key + 4 * i) = x i)
          ∧ u.word (u.grpAddr key) = x 0 / 2 ^ 16 * 2 ^ 16 + e.toNat
          ∧ u.word (u.grpAddr key + 44) = x 11 / 2 ^ 16 * 2 ^ 16
          ∧ u.word (u.grpAddr key + 48) = (if new.size * new.per > 32768 then 1 else 0)
          ∧ (s.grpPlaced = true → u.grpAddr key = s.grpAddr key))
      ∧ (¬(old.valid = true ∧ old.epoch = s.activeEpoch) → s.groupState = 2 →
          ∃ u, exec (.redGroupSet h b1 e ws) s = .next u ∧ Waits h setG s u)
      ∧ (old.valid = true → old.epoch = s.activeEpoch →
          exec (.redGroupSet h b1 e ws) s = .next (s.replied h setG .wrongState [])))
    ∧ (Taken h setB s → s.grpFor b1.toNat e.toNat = some g → w2 ≠ 0 → a < 2 ^ 48 → inDeviceMem a = true →
        w.toNat + w2.toNat ≤ g.nBuckets → inOneRegion a (32 * w2.toNat) = true → s.knownBad a (32 * w2.toNat) = none →
        (∀ i, i < w2.toNat → bucketReserved (src i) = false ∧ bucketBad (src i) = false ∧ workOk (src i) g.size = true) →
        (s.groupState = 0 ∨ e.toNat ≠ s.activeEpoch → NoContextStore dst (32 * w2.toNat) →
          ∃ u, exec (.redBucketsSet h b1 e w w2 d) s = .next u ∧ Replied h setB .ok [] s u
            ∧ ∀ i j, i < w2.toNat → j < 8 → u.word (dst + 32 * i + 4 * j)
              = if j = 6 then s.word (dst + 32 * i + 24) else s.word (a + 32 * i + 4 * j))
        ∧ (s.groupState ≠ 0 → e.toNat = s.activeEpoch → exec (.redBucketsSet h b1 e w w2 d) s = .next (s.replied h setB .wrongState [])))
    ∧ (Taken h (.redScaleSet b1 e n n2) s → s.grpFor b1.toNat e.toNat = some g → scaleOk n2.toNat = true →
        (n.toNat < g.nBuckets → NoContextStore (g.bucketBase + 32 * n.toNat) 32 →
          ∃ u, exec (.redScaleSet h b1 e n n2) s = .next u ∧ Replied h (.redScaleSet b1 e n n2) .ok [] s u
            ∧ u.num (g.bucketBase + 32 * n.toNat + 28) 2 = n2.toNat)
        ∧ (g.nBuckets ≤ n.toNat → exec (.redScaleSet h b1 e n n2) s = .next (s.replied h (.redScaleSet b1 e n n2) .notFound [])))
    ∧ (Taken h (.redGroupRead b1 e) s →
        ((s.grpFor b1.toNat e.toNat).isSome = true → exec (.redGroupRead h b1 e) s
          = .next (s.replied h (.redGroupRead b1 e) .ok (s.bytes (s.grpAddr key) 64)))
        ∧ (s.grpFor b1.toNat e.toNat = none → exec (.redGroupRead h b1 e) s = .next (s.replied h (.redGroupRead b1 e) .notFound [])))
    ∧ (Taken h .fabPortsRead s → exec (.fabPortsRead h) s = .next (s.replied h .fabPortsRead .ok
        ((List.range 6).flatMap fun p => let t := portTower p
          bytesOf 4 (s.reg .plynPortStat t 0).toNat ++ bytesOf 4 (s.reg .plynLaneMapTx t 0).toNat
            ++ bytesOf 4 (s.reg .plynLaneMapRx t 0).toNat ++ bytesOf 4 (s.reg .plynNbrInfo t 0).toNat
            ++ bytesOf 4 (s.reg .plynNbrSerialLo t 0).toNat ++ bytesOf 4 (s.reg .plynNbrSerialHi t 0).toNat)))
    ∧ (Taken h addr s → b4.toNat ≤ 63 → b5.toNat ≤ 63 → b1.toNat ≤ 8 → b2.toNat ≤ 64 → b3.toNat ≤ 128 →
        fabCoord e.toNat 0 < b1.toNat → fabCoord e.toNat 1 < b2.toNat → fabCoord e.toNat 2 < b3.toNat →
        ∃ u, exec (.fabAddrSet h b1 b2 b3 b4 b5 e) s = .next u ∧ Replied h addr .ok [] s u ∧ u.fabAddr = e.toNat ∧ u.fabValid = true
          ∧ u.axisSize 0 = b1.toNat ∧ u.axisSize 1 = b2.toNat ∧ u.axisSize 2 = b3.toNat
          ∧ ∀ q, q < 6 → u.bit .plynPortCfg (portTower q) 0 plynPortCfg_enable = b5.toNat.testBit q
            ∧ u.bit .plynPortCfg (portTower q) 0 plynPortCfg_dateline = b4.toNat.testBit q)
    ∧ (Taken h (.fabRouteSet b1 b2 n bs) s → b1.toNat ≤ 2 → n.toNat = bs.length → bs ≠ [] → (∀ v ∈ bs, v.toNat < 8) →
        (b2.toNat + n.toNat ≤ table.2 →
          ∃ u, exec (.fabRouteSet h b1 b2 n bs) s = .next u ∧ Replied h (.fabRouteSet b1 b2 n bs) .ok [] s u
            ∧ ∀ t c, t < 8 → c < table.2 → u.routeEntry t b1.toNat c
              = if b2.toNat ≤ c ∧ c < b2.toNat + n.toNat then (bs.getD (c - b2.toNat) 0).toNat else s.routeEntry t b1.toNat c)
        ∧ (table.2 < b2.toNat + n.toNat →
            exec (.fabRouteSet h b1 b2 n bs) s = .next (s.replied h (.fabRouteSet b1 b2 n bs) .lengthRange [])))
    ∧ (Taken h (.fabPortCtl b1 0) s → p ≤ 5 →
        (s.linked p = false → ∃ u, exec (.fabPortRetrain h b1) s = .next u ∧ Replied h (.fabPortCtl b1 0) .ok [] s u
          ∧ u.portState p = 1 ∧ (u.dir p true).map = [] ∧ (u.dir p false).map = [])
        ∧ (s.linked p = true → exec (.fabPortRetrain h b1) s = .next (s.replied h (.fabPortCtl b1 0) .wrongState [])))
    ∧ (Taken h (.fabPortCtl b1 1) s → p ≤ 5 → s.portState p ≠ 4 →
        ∃ u, exec (.fabPortQuarantine h b1) s = .next u ∧ Replied h (.fabPortCtl b1 1) .ok [] s u ∧ u.portState p = 4
          ∧ u.fld .plynPortStat (portTower p) 0 plynPortStat_cause = 7 ∧ (u.port p).txq = [] ∧ (u.port p).replay = [])
    ∧ (Taken h (.fabPortCtl b1 2) s → p ≤ 5 → ∃ u, exec (.fabRotEnSet h b1) s = .next u ∧ Replied h (.fabPortCtl b1 2) .ok [] s u
        ∧ u.bit .plynPortCfg (portTower p) 0 plynPortCfg_rotEn = true)
    ∧ (Taken h (.fabPortCtl b1 3) s → p ≤ 5 → ∃ u, exec (.fabRotEnClear h b1) s = .next u ∧ Replied h (.fabPortCtl b1 3) .ok [] s u
        ∧ u.bit .plynPortCfg (portTower p) 0 plynPortCfg_rotEn = false)
    ∧ (Taken h (.fabCfgSet w w2 n b1 b2) s → w.toNat ≤ 0xFFFFFF → w2 ≠ 0 → n ≠ 0 → b1 ≠ 0 → b2.toNat ≤ 15 →
        ∃ u, exec (.fabCfgSet h w w2 n b1 b2) s = .next u ∧ Replied h (.fabCfgSet w w2 n b1 b2) .ok [] s u
          ∧ ∀ q, q < 6 → u.fld .plynRotCfg (portTower q) 0 plynRotCfg_interval = w.toNat
            ∧ u.fld .plynRotCfg (portTower q) 0 plynRotCfg_minMargin = b2.toNat ∧ u.reg .plynReqTimeout (portTower q) 0 = w2
            ∧ u.fld .plynViolCfg (portTower q) 0 plynViolCfg_violWindow = n.toNat
            ∧ u.fld .plynViolCfg (portTower q) 0 plynViolCfg_violLimit = b1.toNat)

/-- The host, firmware and identity commands: addresses, port settings, neighbours, queue pairs, windows, the allow list and the event
endpoint take their values; an image that verifies is staged and activated by a reset of cause 3; reports and certificates go to a window
(R422, R424 to R427, R433, R437, R541 to R546, R568, R571). -/
def Obligations.HostCommands : Prop :=
  ∀ (s : State) (h : CmdHdr) (b1 b2 b3 b4 : Byte) (q n : Half) (w w2 w3 w4 : Word) (d d2 : DWord) (bs : List Byte),
    let a := d.toNat
    let host (t : HostPart) : State := { s with host := t }
    let piece (k size : Nat) : List Byte := (bs.drop (size * k)).take size
    let reaches (m : Nat) : Prop := ∃ k, k < 64 ∧ (tget s.host.windows k).perms ≠ 0 ∧ (tget s.host.windows k).base ≤ a
      ∧ a + m ≤ (tget s.host.windows k).base + (tget s.host.windows k).size * 4096 ∧ s.mirrorHit a m = false
    let head := s.reportHead bs
    let report := head ++ (List.range 384).map (Config.rsaSign head) ++ (List.range 16224).map (Config.slhSign head)
    let certs := certificate 1 ++ certificate 2
    let img := s.bytes a w.toNat
    let other := 1 - s.fld .secBootStat 0 0 secBootStat_slot
    let qp : Qp := { (default : Qp) with
      st := .rts, mtu := b1.toNat, tclass := b2.toNat, ackTimeout := b3.toNat, retry := b4.toNat, remoteQpn := w.toNat, ip := bs
      va := d.toNat, len := d2.toNat, rkey := w4.toNat, sqPsn := w2.toNat, rqPsn := w3.toNat, rate := 256, calmTick := s.refclk }
    let qpSet := MbCmd.qpSet q b1 b2 b3 b4 w w2 w3 w4 bs d d2
    let window : Window := { base := a, size := if b2 = 0 then 0 else w2.toNat, rkey := w.toNat, perms := b2.toNat }
    (Taken h (.hostAddrSet b1 b2 bs) s →
      (b1 = 0 → b2 = 0 → (∀ k, 4 ≤ k → bs.getD k 0 = 0) → ∃ u, exec (.hostAddrSet h b1 b2 bs) s = .next u
        ∧ Replied h (.hostAddrSet b1 b2 bs) .ok [] s u ∧ u.host.ipv4 = some (bs.take 4) ∧ u.host.ipv6 = s.host.ipv6
        ∧ u.bit .hostLinkStat 0 0 hostLinkStat_ipv4Set = true)
      ∧ (b1 = 1 → b2 ≠ 0 → ∃ u, exec (.hostAddrSet h b1 b2 bs) s = .next u ∧ Replied h (.hostAddrSet b1 b2 bs) .ok [] s u
          ∧ u.host.ipv6 = none ∧ u.host.ipv4 = s.host.ipv4 ∧ u.bit .hostLinkStat 0 0 hostLinkStat_ipv6Set = false))
    ∧ (Taken h (.hostPortSet q n b1 b2 b3) s → q ≠ 0 → q.toNat ≠ 4791 → n.toNat ≤ 4095 → b1.toNat ≤ 7 → b2.toNat ≤ 7 →
        b3.toNat ≤ 1 → b1 ≠ b2 →
        ∃ u, exec (.hostPortSet h q n b1 b2 b3) s = .next u ∧ Replied h (.hostPortSet q n b1 b2 b3) .ok [] s u
          ∧ u.fld .hostUdpPort 0 0 hostUdpPort_port = q.toNat ∧ u.fld .hostPfcCfg 0 0 hostPfcCfg_vlanId = n.toNat
          ∧ u.fld .hostPfcCfg 0 0 hostPfcCfg_rocePrio = b1.toNat ∧ u.fld .hostPfcCfg 0 0 hostPfcCfg_belpelPrio = b2.toNat
          ∧ u.fld .hostPfcCfg 0 0 hostPfcCfg_pfcEn = b3.toNat)
    ∧ (Taken h (.hostNeighSet b1 b2 bs) s → 1 ≤ b2.toNat → b1.toNat + b2.toNat ≤ 64 →
        (∀ k, k < b2.toNat → (piece k 24).getD 23 0 = 0) →
        ∃ u, exec (.hostNeighSet h b1 b2 bs) s = .next u ∧ Replied h (.hostNeighSet b1 b2 bs) .ok [] s u
          ∧ ∀ k, tget u.host.neigh k = if b1.toNat ≤ k ∧ k < b1.toNat + b2.toNat then
              { ip := (piece (k - b1.toNat) 24).take 16, mac := ((piece (k - b1.toNat) 24).drop 16).take 6
                valid := (piece (k - b1.toNat) 24).getD 22 0 != 0 }
            else tget s.host.neigh k)
    ∧ (Taken h qpSet s → b1.toNat ≤ 2 → b4.toNat ≤ 7 → w.toNat < 2 ^ 24 → w2.toNat < 2 ^ 24 → w3.toNat < 2 ^ 24 → d2 ≠ 0 → q.toNat ≤ 4095 →
        d.toNat < 2 ^ 48 → d.toNat + d2.toNat < 2 ^ 48 →
        ((s.qp q.toNat).st = .reset ∨ (s.qp q.toNat).st = .init →
          exec (.qpSet h q b1 b2 b3 b4 w w2 w3 w4 bs d d2) s = .next ((s.setQp q.toNat qp).replied h qpSet .ok []))
        ∧ ((s.qp q.toNat).st = .rts →
            exec (.qpSet h q b1 b2 b3 b4 w w2 w3 w4 bs d d2) s = .next (s.replied h qpSet .wrongState [])))
    ∧ (Taken h (.qpReset q) s → q.toNat ≤ 4095 →
        ∃ u, exec (.qpReset h q) s = .next u ∧ Replied h (.qpReset q) .ok [] s u ∧ u.qp q.toNat = default
          ∧ ∀ k, k ≠ q.toNat → u.qp k = s.qp k)
    ∧ (Taken h (.qpQuery q) s → q.toNat ≤ 4095 →
        exec (.qpQuery h q) s = .next (s.replied h (.qpQuery q) .ok (bytesOf 1 (s.qp q.toNat).st.code
          ++ bytesOf 1 (if (s.qp q.toNat).st = .error then (s.qp q.toNat).cause else 0) ++ [0, 0]
          ++ bytesOf 4 (s.qp q.toNat).sqPsn ++ bytesOf 4 (s.qp q.toNat).rqPsn)))
    ∧ (Taken h (.windowSet b1 b2 w d w2) s → b2.toNat ≤ 3 → b1.toNat ≤ 63 → a < 2 ^ 48 →
        (b2 = 0 ∨ (w2 ≠ 0 ∧ inDeviceMem a = true ∧ inOneRegion a (w2.toNat * 4096) = true) →
          exec (.windowSet h b1 b2 w d w2) s
            = .next (((host { s.host with windows := tput s.host.windows b1.toNat window }).extendMr 3
                ([b1, b2, 0, 0] ++ bytesOf 4 w.toNat ++ bytesOf 8 a ++ bytesOf 4 w2.toNat)).replied h (.windowSet b1 b2 w d w2) .ok []))
        ∧ (b2 ≠ 0 → inDeviceMem a = false → exec (.windowSet h b1 b2 w d w2) s
            = .next (s.replied h (.windowSet b1 b2 w d w2) .badArgument [])))
    ∧ (Taken h (.allowSet b1 bs) s → b1.toNat ≤ 4 → (∀ k, k < b1.toNat → (piece k 20).drop 18 = [0, 0]) →
        ∃ u, exec (.allowSet h b1 bs) s = .next u ∧ Replied h (.allowSet b1 bs) .ok [] s u
          ∧ u.host.allow = (List.range b1.toNat).map (fun k => ((piece k 20).take 16, leOf (((piece k 20).drop 16).take 2)))
          ∧ u.mr 3 = ((host { s.host with allow := u.host.allow }).extendMr 3
              (b1 :: 0 :: 0 :: 0 :: bs.take (20 * b1.toNat))).mr 3)
    ∧ (Taken h (.eventEndpointSet q bs) s →
        ∃ u, exec (.eventEndpointSet h q bs) s = .next u ∧ Replied h (.eventEndpointSet q bs) .ok [] s u
          ∧ u.host.endpoint = some (bs, q.toNat)
          ∧ (s.host.endpoint.isSome = true → u.host.tx = s.host.tx)
          ∧ (s.host.endpoint = none → s.linkUp = true → (s.neighbourOf bs).isSome = true → ∀ e ∈ u.host.events, e.sentTick.isSome = true))
    ∧ (Taken h (.fwStage w d) s → a < 2 ^ 48 → inHbm a 12 = true → w.toNat = imgHeader + s.word (a + 8) → w.toNat ≤ 0x1000000 →
        inHbm a w.toNat = true → s.knownBad a w.toNat = none → s.flashHere = true →
        (imgVerify s.pwr.floor s.pwr.revoked img = 0 →
          ∃ u, exec (.fwStage h w d) s = .next u ∧ Replied h (.fwStage w d) .ok [] s u
            ∧ u.bit .secBootStat 0 0 secBootStat_staged = true ∧ u.pwr = (s.flashPut (slotOffset other) img).pwr)
        ∧ (imgVerify s.pwr.floor s.pwr.revoked img = 7 → exec (.fwStage h w d) s = .next (s.replied h (.fwStage w d) .rollback []))
        ∧ (imgVerify s.pwr.floor s.pwr.revoked img ∉ [0, 7] →
            exec (.fwStage h w d) s = .next (s.replied h (.fwStage w d) .authFailed [])))
    ∧ (Taken h .fwActivate s →
        (s.bit .secBootStat 0 0 secBootStat_staged = true →
          ∃ u, exec (.fwActivate h) s = .next u ∧ Replied h .fwActivate .ok [] s u ∧ u.pwr.st = .held ∧ u.pwr.cause = 3
            ∧ u.pwr.flash = (s.writeRecord other false 0).pwr.flash)
        ∧ (s.bit .secBootStat 0 0 secBootStat_staged = false →
            exec (.fwActivate h) s = .next (s.replied h .fwActivate .wrongState [])))
    ∧ (Taken h (.attest bs w d) s → w ≠ 0 → a < 2 ^ 48 → reaches 1 →
        (reaches report.length → report.length ≤ w.toNat * 1024 →
          exec (.attest h bs w d) s = .next ((s.store a report).replied h (.attest bs w d) .ok (bytesOf 4 report.length)))
        ∧ (w.toNat * 1024 < report.length → exec (.attest h bs w d) s = .next (s.replied h (.attest bs w d) .lengthRange [])))
    ∧ (Taken h (.identityRead w d) s → w ≠ 0 → a < 2 ^ 48 → reaches 1 → reaches certs.length → certs.length ≤ w.toNat * 1024 →
        (s.pwr.released = false →
          exec (.identityRead h w d) s = .next ((s.store a certs).replied h (.identityRead w d) .ok (bytesOf 4 certs.length)))
        ∧ (s.pwr.released = true → exec (.identityRead h w d) s = .next (s.replied h (.identityRead w d) .wrongState [])))

/-! ### Clocks, power and reset (R508 to R531, R538 to R540, R550, R553) -/

/-- The loss of the selected crystal, or of a loop's lock, makes the locked and ramping loops coast, is counted and raises CLK_SRC_LOST with their
mask; a CLK_SEL write takes a stable crystal, and lets coasting loops relock, or is refused; a relocked loop follows the crystal in use
(R512, R513, R515 to R517). -/
def Claims.Clocks : Prop :=
  ∀ (s : State) (x : Bool) (i : Fin 27) (v : Word),
    let active := s.bit .clkSrcStat 0 0 clkSrcStat_activeSel
    let sel := v.getLsbD 0
    let runs (k : Nat) : Bool := s.locked k || (s.coasts k && s.pwr.ramping.testBit k)
    let mask := ((List.range 27).filter runs).foldl (fun a i => a + 2 ^ i) 0
    let coasting (u : State) (k : Nat) : Prop := u.locked k = false ∧ u.coasts k = true
      ∧ CountedOne .clkLoopStat 0 k clkLoopStat_lockLosses s u
    (s.pwr.st ≠ .off → active = x → (∃ k, k < 27 ∧ runs k = true) →
      ∃ u, exec (.crystalLost x) s = .next u ∧ u.crystalOk x = false ∧ (∀ k, k < 27 → runs k = true → coasting u k)
        ∧ u.bit .clkSrcStat 0 0 clkSrcStat_srcLost = true ∧ u.bit .clkSrcStat 0 0 clkSrcStat_coasting = true ∧ Raised 0 mask s u
        ∧ (runs 26 = true → u.bit .hostLinkStat 0 0 hostLinkStat_linkUp = false))
    ∧ (s.pwr.st ≠ .off → active ≠ x →
        ∃ u, exec (.crystalLost x) s = .next u ∧ u.crystalOk x = false ∧ u.crystalOk (!x) = s.crystalOk (!x)
        ∧ OnlyReg .clkSrcStat 0 0 s u)
    ∧ (s.locked i.val = true → ∃ u, exec (.loopLockLost i) s = .next u ∧ coasting u i.val ∧ Raised 0 (2 ^ i.val) s u
        ∧ ∀ k, k < 27 → k ≠ i.val → u.locked k = s.locked k ∧ u.coasts k = s.coasts k)
    ∧ (s.locked i.val = false → exec (.loopLockLost i) s = .next s)
    ∧ (s.crystalOk sel = true →
        ∃ u, exec (.clkSelWrite v) s = .next u ∧ u.fld .clkSel 0 0 clkSel_sel = sel.toNat
          ∧ u.bit .clkSrcStat 0 0 clkSrcStat_activeSel = sel
          ∧ ∀ k, k < 27 → u.locked k = s.locked k ∧ u.coasts k = s.coasts k
            ∧ (s.locked k = true ∨ s.coasts k = true → u.fld .clkLoopStat 0 k clkLoopStat_ref = sel.toNat)
            ∧ u.pwr.ramping.testBit k = (s.pwr.ramping.testBit k || s.coasts k))
    ∧ (s.crystalOk sel = false → ∃ u, exec (.clkSelWrite v) s = .next u ∧ u.bit .clkSrcStat 0 0 clkSrcStat_selRefused = true
        ∧ u.bit .clkSrcStat 0 0 clkSrcStat_activeSel = active ∧ OnlyReg .clkSrcStat 0 0 s u)
    ∧ (s.coasts i.val = true → s.pwr.ramping.testBit i.val = true →
        ∃ u, exec (.loopRelock i) s = .next u ∧ u.locked i.val = true ∧ u.coasts i.val = false
          ∧ u.fld .clkLoopStat 0 i.val clkLoopStat_ref = active.toNat ∧ u.mem = s.mem)
    ∧ (s.coasts i.val = false ∨ s.pwr.ramping.testBit i.val = false → exec (.loopRelock i) s = .next s)

/-- Power-up judges the crystals, XA before XB, and boots: with an image that verifies Lumdom runs, the islands come up, and where mailbox
0 opens context 15 exists and the ports train; with none that verifies the boot ROM halts; with the flash bus taken it waits. A crystal
judged stable later goes on, and the bus returns (R517, R521, R523, R524, R538 to R540, R553). -/
def Obligations.PowerUp : Prop :=
  ∀ (s : State) (b : BootInfo) (x opens : Bool) (writes : List (Nat × Byte)),
    let good (k : Nat) : Prop := imgVerify s.pwr.floor s.pwr.revoked (s.slotImage k) = 0
    let loops (u : State) : Prop := ∀ i, i ≤ 8 ∨ i = 17 ∨ i = 19 ∨ i = 26 → u.locked i = true
    let ready (u : State) (f : Fld) : Prop := u.fld .ctlIslandReady 0 0 f = 2 ^ f.width - 1
    let runs (u : State) (opens : Bool) : Prop := u.pwr.st = .running ∧ ready u ctlIslandReady_drumReady
      ∧ ready u ctlIslandReady_cupolaReady ∧ ready u ctlIslandReady_hostSerdesReady
      ∧ (opens = true → (u.mbox 0).isOpen = true ∧ u.ctxState 15 = 1 ∧ u.bit .irqLock 0 0 irqLock_lock = true
        ∧ u.pwr.confirmed = true ∧ ready u ctlIslandReady_codecReady ∧ ready u ctlIslandReady_portReady
        ∧ ∀ p, p < 6 → u.portState p = 1)
      ∧ (opens = false → u.pwr.watch = some u.refclk)
    let row (c : Instr) (y : Bool) (o : Bool) : Prop :=
      (∃ b : BootInfo, c = .powerGoodRise b ∧ s.pwr.st = .off ∧ s.pwr.overVolt = false ∧ (b.xa = true ∨ b.xb = true) ∧ y = !b.xa
        ∧ o = b.opens)
      ∨ (c = .crystalStable y o ∧ s.pwr.st = .judging)
    (∀ c y o, row c y o → s.pwr.ownLow = false →
      (good 0 → good 1 → ∃ u, exec c s = .next u ∧ runs u o ∧ loops u ∧ u.refclk = 0
        ∧ u.bit .clkSrcStat 0 0 clkSrcStat_activeSel = y ∧ u.crystalOk y = true)
      ∧ (¬good 0 → good 1 → s.governing = none → ∃ u, exec c s = .next u ∧ runs u o
          ∧ u.bit .secBootStat 0 0 secBootStat_fallback = true ∧ u.fld .secBootStat 0 0 secBootStat_slot = 1)
      ∧ (¬good 0 → ¬good 1 → ∃ u, exec c s = .next u ∧ u.pwr.st = .halted ∧ u.bit .secBootStat 0 0 secBootStat_halted = true
          ∧ u.alert = true))
    ∧ (∀ c y o, row c y o → s.pwr.ownLow = true → ∃ u, exec c s = .next u ∧ u.pwr.st = .flashWait ∧ u.pwr.released = true
        ∧ u.bit .tstTapStat 0 0 tstTapStat_flashExternal = true)
    ∧ (s.pwr.st = .off → s.pwr.overVolt = false → b.xa = false → b.xb = false →
        ∃ u, exec (.powerGoodRise b) s = .next u ∧ u.pwr.st = .judging ∧ u.crystalOk false = false ∧ u.crystalOk true = false
          ∧ u.bit .clkSrcStat 0 0 clkSrcStat_bothLost = true)
    ∧ (s.pwr.st ≠ .off ∨ s.pwr.overVolt = true → exec (.powerGoodRise b) s = .next s)
    ∧ (s.pwr.st = .running → ∃ u, exec (.crystalStable x opens) s = .next u ∧ u.crystalOk x = true ∧ OnlyReg .clkSrcStat 0 0 s u)
    ∧ (s.pwr.st = .off ∨ s.pwr.st = .held → exec (.crystalStable x opens) s = .next s)
    ∧ (∃ u, exec .flashOwnNFall s = .next u ∧ u = { s with pwr := { s.pwr with ownLow := true } })
    ∧ (s.pwr.ownLow = true → s.pwr.st = .running →
        ∃ u, exec .flashBusRelease s = .next u ∧ u.pwr = { s.pwr with released := true } ∧ OnlyReg .tstTapStat 0 0 s { s with regs := u.regs }
          ∧ u.bit .tstTapStat 0 0 tstTapStat_flashExternal = true)
    ∧ (s.pwr.ownLow = false → exec .flashBusRelease s = .next s ∧ exec (.flashOwnNRise writes b) s = .next s)
    ∧ (s.pwr.ownLow = true → s.pwr.st ≠ .flashWait →
        ∃ u, exec (.flashOwnNRise writes b) s = .next u ∧ u.pwr.ownLow = false ∧ u.pwr.released = false ∧ u.pwr.st = s.pwr.st
          ∧ u.bit .tstTapStat 0 0 tstTapStat_flashExternal = false
          ∧ (s.pwr.released = true → ∀ o v, writes = [(o, v)] → u.flashBytes o 1 = [v])
          ∧ (s.pwr.released = false → u.pwr.flash = s.pwr.flash))
    ∧ (s.pwr.ownLow = true → s.pwr.st = .flashWait → writes = [] ∨ s.pwr.released = false → good 0 → good 1 →
        ∃ u, exec (.flashOwnNRise writes b) s = .next u ∧ runs u b.opens)

/-- Loss of power loses all state but the fuses and the boot store. RST_N, a trip of the hottest sensor and the boot watchdog reset: every
island but the belfry is held, with the cause kept; after the hold, with RST_N high and no trip, the device starts again with its cause
in CLK_RESET_CAUSE (R320, R521, R522, R525 to R527, R530, R539, R550). -/
def Obligations.PowerLossAndReset : Prop :=
  ∀ (s : State) (b : BootInfo) (temp : Int) (a : DWord),
    let lost (u : State) : Prop := u.mem = [] ∧ u.thr = State.reset.thr ∧ u.mtx = State.reset.mtx ∧ u.fab = State.reset.fab
      ∧ u.host.mboxes = [] ∧ u.host.qps = [] ∧ u.pending = s.pending
    let held (u : State) (cause : Nat) : Prop := lost u ∧ u.pwr.st = .held ∧ u.pwr.cause = cause ∧ u.pwr.holdOver = false
      ∧ u.reg .ctlIslandReady 0 0 = 0 ∧ u.ram.repair = s.ram.repair ∧ u.pwr.flash = s.pwr.flash
      ∧ (∀ i, i < 27 → i ≠ 17 → i ≠ 19 → u.locked i = false)
    let off (u : State) : Prop := lost u ∧ u.pwr.st = .off ∧ u.regs = [] ∧ u.refclk = 0 ∧ u.ram.repair = [] ∧ u.pwr.flash = s.pwr.flash
      ∧ u.pwr.floor = s.pwr.floor ∧ u.pwr.revoked = s.pwr.revoked
    let good (k : Nat) : Prop := imgVerify s.pwr.floor s.pwr.revoked (s.slotImage k) = 0
    let restarts (u : State) : Prop := u.pwr.st = .running ∧ u.fld .clkResetCause 0 0 clkResetCause_cause = s.pwr.cause
      ∧ u.refclk = 0 ∧ ((u.mbox 0).isOpen = (b.opens || (s.mbox 0).isOpen))
    let canStart := s.pwr.ownLow = false ∧ good 0 ∧ good 1 ∧ (b.xa = true ∨ b.xb = true) ∧ s.pwr.cause < 8
    (s.pwr.st ≠ .off →
      (∃ u, exec .inputUndervoltage s = .next u ∧ off u ∧ u.pwr.overVolt = s.pwr.overVolt ∧ u.alert = true)
      ∧ (∃ u, exec .rstNAssert s = .next u ∧ held u 1 ∧ u.pwr.rstLow = true ∧ u.bit .tstTapStat 0 0 tstTapStat_testMode = false))
    ∧ (∃ u, exec .inputOvervoltage s = .next u ∧ off u ∧ u.pwr.overVolt = true)
    ∧ (∃ u, exec .inputOvervoltageClear s = .next u ∧ u = { s with pwr := { s.pwr with overVolt := false } })
    ∧ (s.pwr.st = .off → exec .inputUndervoltage s = .next s ∧ exec .rstNAssert s = .next s)
    ∧ (s.tripAt ≤ temp → s.pwr.st = .running → ∃ u, exec (.thermalTrip temp) s = .next u ∧ held u 4 ∧ u.pwr.tripHold = true)
    ∧ (temp < s.tripAt → exec (.thermalTrip temp) s = .next s)
    ∧ (s.pwr.watch = some a → s.pwr.st = .running →
        (100000000 ≤ (s.refclk - a).toNat → ∃ u, exec .bootWatchdog s = .next u ∧ held u 5)
        ∧ ((s.refclk - a).toNat < 100000000 → exec .bootWatchdog s = .next s))
    ∧ (s.pwr.st = .held → s.pwr.rstLow = false → s.pwr.tripHold = false → canStart →
        ∃ u, exec (.resetHoldExpire b) s = .next u ∧ restarts u)
    ∧ (s.pwr.st = .held → s.pwr.rstLow = true ∨ s.pwr.tripHold = true →
        exec (.resetHoldExpire b) s = .next { s with pwr := { s.pwr with holdOver := true } })
    ∧ (s.pwr.st = .held → s.pwr.holdOver = true → s.pwr.tripHold = false → canStart →
        ∃ u, exec (.rstNRelease b) s = .next u ∧ restarts u ∧ u.pwr.rstLow = false)
    ∧ (s.pwr.st ≠ .held → exec (.rstNRelease b) s = .next { s with pwr := { s.pwr with rstLow := false } })
    ∧ (s.pwr.st = .held → s.pwr.holdOver = true → s.pwr.rstLow = false → s.pwr.tripHold = true → temp < s.tripAt - 80 → canStart →
        ∃ u, exec (.tripRecovery temp b) s = .next u ∧ restarts u ∧ u.pwr.tripHold = false)
    ∧ (s.pwr.tripHold = false ∨ s.tripAt - 80 ≤ temp → exec (.tripRecovery temp b) s = .next s)

/-- A tower rises a throttle level as its sensor reaches the threshold and each 100 µs it stays there, and falls one after 1 ms of calm;
the level source 1 shows the throttled towers. Telemetry takes a sample; HBM training begins a second after mailbox 0 opened and reports
each controller group, but for one that was lost (R21, R313, R524, R529, R531). -/
def Claims.ThrottleTelemetryTraining : Prop :=
  ∀ (s : State) (t : Tower) (temp : Int) (a : DWord) (sensors : List Word) (failed : List Nat),
    let l := s.level t.val
    let mask (u : State) : Nat := ((List.range 8).filter fun i => u.level i != 0).foldl (fun a i => a + 2 ^ i) 0
    let changed (u : State) (v : Nat) : Prop := u.level t.val = v ∧ (∀ k, k < 8 → k ≠ t.val → u.level k = s.level k)
      ∧ (v ≠ l → (tget s.irq.srcs 1).st = .idle → mask u ≠ 0 → (tget u.irq.srcs 1).st = .pending
          ∧ (tget u.irq.srcs 1).cond = some (BitVec.ofNat 48 (mask u)))
    let hot := tget s.pwr.hot t.val
    (s.locked t.val = true →
      (s.throttleAt ≤ temp →
        ∃ u, exec (.throttleRise t temp) s = .next u ∧ changed u (min 3 (l + 1)) ∧ tget u.pwr.hot t.val = some s.refclk)
      ∧ (hot = some a → s.throttleAt ≤ temp → 10000 ≤ (s.refclk - a).toNat →
          ∃ u, exec (.throttleStepTimer t temp) s = .next u ∧ changed u (min 3 (l + 1)) ∧ tget u.pwr.hot t.val = some s.refclk)
      ∧ (temp < s.calmBelow → l ≠ 0 → 100000 ≤ (s.refclk - tget s.pwr.calm t.val).toNat →
          ∃ u, exec (.throttleFall t temp) s = .next u ∧ changed u (l - 1) ∧ tget u.pwr.hot t.val = none
            ∧ tget u.pwr.calm t.val = s.refclk))
    ∧ (s.locked t.val = false → exec (.throttleRise t temp) s = .next s ∧ exec (.throttleStepTimer t temp) s = .next s
        ∧ exec (.throttleFall t temp) s = .next s)
    ∧ (s.pwr.st = .running → 10000 ≤ (s.refclk - s.pwr.sampleTick).toNat →
        ∃ u, exec (.telemetrySample sensors) s = .next u ∧ u = { s with pwr := u.pwr } ∧ u.pwr.samples = s.pwr.samples + 1
          ∧ u.pwr.sampleTick = s.refclk ∧ u.pwr.telemetry.length = 64
          ∧ u.pwr.telemetry.getD 0 0 = BitVec.ofNat 32 s.pwr.samples ∧ u.pwr.telemetry.getD 1 0 = s.refclk.truncate 32
          ∧ (∀ i, 3 ≤ i → i < 35 → u.pwr.telemetry.getD i 0 = sensors.getD i 0)
          ∧ u.pwr.telemetry.getD 37 0 = BitVec.ofNat 32 (s.fld .clkThrottle 0 0 clkThrottle_levels)
          ∧ u.pwr.telemetry.getD 40 0 = BitVec.ofNat 32 (s.fld .clkResetCause 0 0 clkResetCause_cause))
    ∧ ((s.refclk - s.pwr.sampleTick).toNat < 10000 → exec (.telemetrySample sensors) s = .next s)
    ∧ (s.pwr.openTick = some a → s.pwr.training = false →
        (100000000 ≤ (s.refclk - a).toNat → ∃ u, exec .hbmTrainingStart s = .next u ∧ u.pwr.training = true
          ∧ ∀ i, 9 ≤ i → i ≤ 16 → u.locked i = true)
        ∧ ((s.refclk - a).toNat < 100000000 → exec .hbmTrainingStart s = .next s))
    ∧ (s.pwr.training = true → s.pwr.lost.contains (16 + t.val) = false →
        ((∀ k ∈ failed, k / 3 ≠ t.val) →
          ∃ u, exec (.hbmTrainingComplete t failed) s = .next u ∧ OnlyReg .ctlIslandReady 0 0 s u
            ∧ (u.fld .ctlIslandReady 0 0 ctlIslandReady_hbmGroupReady).testBit t.val = true)
        ∧ ((∃ k ∈ failed, k / 3 = t.val) →
            ∃ u, exec (.hbmTrainingComplete t failed) s = .next u ∧ u.regs = s.regs
              ∧ ∀ k, k ∈ u.pwr.failed ↔ k ∈ s.pwr.failed ∨ k ∈ failed ∧ k / 3 = t.val))
    ∧ (s.pwr.training = false ∨ s.pwr.lost.contains (16 + t.val) = true → exec (.hbmTrainingComplete t failed) s = .next s)

/-! ### The test access port (R555 to R557) -/

/-- An instruction of the test access port shows its code and captures its data register; one that takes the pins begins test mode, in
which the links are down; the boundary register takes new cells; a powered-off device does nothing (R555 to R557). -/
def Obligations.TestAccessPort : Prop :=
  ∀ (s : State) (cells pins : BitVec 257) (code : Byte),
    let ir (u : State) (n scan : Nat) : Prop := u.fld .tstTapStat 0 0 tstTapStat_lastIr = n ∧ u.pwr.scan = scan ∧ u.mem = s.mem
    let test (u : State) : Prop := u.testMode = true ∧ (∀ p, p < 6 → u.portState p = 0)
      ∧ u.bit .hostLinkStat 0 0 hostLinkStat_linkUp = false
    let kept (u : State) : Prop := u.testMode = s.testMode ∧ ∀ p, p < 6 → u.portState p = s.portState p
    (s.pwr.st ≠ .off →
      (∃ u, exec (.extest cells) s = .next u ∧ ir u 0x00 cells.toNat ∧ test u ∧ u.pwr.cells = cells)
      ∧ (∃ u, exec (.extestPulse cells) s = .next u ∧ ir u 0x06 cells.toNat ∧ test u ∧ u.pwr.cells = cells)
      ∧ (∃ u, exec (.extestTrain cells) s = .next u ∧ ir u 0x07 cells.toNat ∧ test u ∧ u.pwr.cells = cells)
      ∧ (∃ u, exec .clamp s = .next u ∧ ir u 0x04 0 ∧ test u ∧ u.pwr.cells = s.pwr.cells)
      ∧ (∃ u, exec .highz s = .next u ∧ ir u 0x05 0 ∧ test u ∧ u.pwr.cells = s.pwr.cells)
      ∧ (∃ u, exec .idcode s = .next u ∧ ir u 0x01 0x12408A4F ∧ kept u)
      ∧ (∃ u, exec (.samplePreload pins cells) s = .next u ∧ ir u 0x02 pins.toNat ∧ kept u ∧ u.pwr.cells = cells)
      ∧ (∃ u, exec .bootStat s = .next u ∧ ir u 0x10 (s.reg .secBootStat 0 0).toNat ∧ kept u)
      ∧ (tapListed code.toNat = false → ∃ u, exec (.bypass code) s = .next u ∧ ir u code.toNat 0 ∧ kept u)
      ∧ (∃ u, exec .testLogicReset s = .next u ∧ ir u 0x01 0x12408A4F ∧ kept u))
    ∧ (tapListed code.toNat = true → exec (.bypass code) s = .next s)
    ∧ (s.pwr.st = .off → exec (.extest cells) s = .next s ∧ exec .idcode s = .next s ∧ exec (.samplePreload pins cells) s = .next s
        ∧ exec .clamp s = .next s ∧ exec .bootStat s = .next s)

/-! ### The codec complex (R273 to R311) -/

/-- A codec descriptor that passes its checks joins the complex and leaves its ring, one that fails a check leaves it with a record; a
free engine takes up a job, and goes on with the stream state it holds only where the descriptor asks for it and the state is of its
ring and context; maintenance mode changes once every codec queue is empty (R276, R283, R285, R301, R307). -/
def Obligations.CodecDescriptors : Prop :=
  ∀ (s : State) (c : CtxId) (k : QKind) (e : CdcEng) (aged : Option Nat) (n : Nat) (st : Status) (l : List Word),
    let issue (x : CdcSrc) : Host.Outcome State Fault Refusal :=
      if k = .decode then exec (.decodeJobIssue x) s else exec (.encodeJobIssue x) s
    let w := s.descWords k 0 c.val
    let may : Prop := (k = .decode ∨ k = .encode) ∧ s.maint = false ∧ s.qCanIssue k 0 c.val = true
      ∧ (cdcWaitPrev k w = true → s.qIdle k 0 c.val = true)
      ∧ descRegionOk k 0 (s.descAddr k 0 c.val) = true
      ∧ s.trafficHeld codecIsland [(s.descAddr k 0 c.val, 128)] = false ∧ s.knownBad (s.descAddr k 0 c.val) 128 = none
    let left (u : State) : Prop := u.qHead k 0 c.val = (s.qHead k 0 c.val + 1) % s.qSize k 0 c.val
      ∧ u.qEosWait k 0 c.val = (cdcEos k w && s.member c.val)
    let fresh (j : CdcJob) (v : List Nat) (x : Nat) : Prop :=
      j.words = v ∧ j.c = x ∧ j.eng = cdcEngine k v ∧ j.granted = false ∧ j.next = 0
    let j := s.cdcJob n
    (may → s.cdcChecks k false w = .ok () →
      ∃ u, issue (.queue c) = .next u ∧ left u ∧ fresh (u.cdcJob s.cdc.nextJob) w c.val
        ∧ (u.cdcJob s.cdc.nextJob).sampled = s.sample c.val ∧ u.cdc.nextJob = s.cdc.nextJob + 1
        ∧ (u.q k 0 c.val).running = (s.q k 0 c.val).running ++ [s.cdc.nextJob] ∧ ∀ b, u.byte b = s.byte b)
    ∧ (may → s.cdcChecks k false w = .error (.reject st) →
        ∃ u, issue (.queue c) = .next u ∧ left u ∧ u.cdc = s.cdc ∧ u.bit (qRegs k).err 0 c.val mtxQErr_rejected = true
          ∧ (u.q k 0 c.val).running = (s.q k 0 c.val).running
          ∧ (u.q k 0 c.val).done = (s.q k 0 c.val).done
            ++ [{ words := [cdcTag w + st.code * 2 ^ 16, 0, 0, 0, 0, 0, 0, s.qHead k 0 c.val * 2 ^ 16], after := none }])
    ∧ (k = .decode ∨ k = .encode → s.maint = true ∨ s.qCanIssue k 0 c.val = false → issue (.queue c) = .next s)
    ∧ (k = .decode ∨ k = .encode → s.maint = true → s.cdcChecks k true (l.map (·.toNat)) = .ok () →
        ∃ u, issue (.lumdom l) = .next u ∧ u = { s with cdc := u.cdc } ∧ fresh (u.cdcJob s.cdc.nextJob) (l.map (·.toNat)) 16)
    ∧ (k = .decode ∨ k = .encode → s.maint = false → issue (.lumdom l) = .next s)
    ∧ (s.cdcRunning e.num = none → s.cdcPick e.num aged = some n → j.eng = e.num →
        ∃ u, exec (.codecEngineGrant e aged) s = .next u ∧ (u.cdcJob n).granted = true ∧ (u.cdcJob n).tick = s.refclk
          ∧ (u.cdcJob n).words = j.words ∧ (u.cdcJob n).c = j.c ∧ (u.cdcJob n).index = j.index
          ∧ (∀ m, m ≠ n → u.cdcJob m = s.cdcJob m) ∧ (∀ b, u.byte b = s.byte b) ∧ (∀ r t i, u.reg r t i = s.reg r t i)
          ∧ (e.num < 8 →
              (cdcCont .decode j.words = true → (s.decStream e.num).of = some (j.ring, j.c) → u.decStream e.num = s.decStream e.num)
              ∧ (cdcCont .decode j.words = false ∨ (s.decStream e.num).of ≠ some (j.ring, j.c) →
                  (u.decStream e.num).of = some (j.ring, j.c) ∧ (u.decStream e.num).skip = true ∧ (u.decStream e.num).store = []
                  ∧ (u.cdcJob n).dec.contLost = cdcCont .decode j.words))
          ∧ (8 ≤ e.num →
              (cdcCont .encode j.words = true → (s.encStream e.num).of = some (j.ring, j.c) → u.encStream e.num = s.encStream e.num)
              ∧ (cdcCont .encode j.words = false ∨ (s.encStream e.num).of ≠ some (j.ring, j.c) →
                  (u.encStream e.num).of = some (j.ring, j.c) ∧ (u.encStream e.num).count = 0 ∧ (u.encStream e.num).past = []
                  ∧ (u.cdcJob n).enc.contLost = cdcCont .encode j.words)))
    ∧ ((s.cdcRunning e.num).isSome = true ∨ s.cdcPick e.num aged = none → exec (.codecEngineGrant e aged) s = .next s)
    ∧ (s.bit .cdcMode 0 0 cdcMode_maintPending = true → s.cdcQuiet = true →
        ∃ u, exec .maintModeChange s = .next u ∧ u = { s with regs := u.regs } ∧ u.maint = !s.maint
          ∧ u.bit .cdcMode 0 0 cdcMode_maintPending = false)
    ∧ (s.bit .cdcMode 0 0 cdcMode_maintPending = false ∨ s.cdcQuiet = false → exec .maintModeChange s = .next s)

/-- A decode engine takes the record at cons: it notes the number, the gap and the errors, skips up to a random access point, holds the
record's picture as due, and advances cons past the record, or to 0 after a pad or at the ring's end; a record whose header is at fault
makes cons equal prod. After a discontinuity, the stream's end or a timeout the frames left are written. A picture whose turn has come is
written row by row, one that refers to a picture before the random access point is not decoded, and a job whose frames are all written
completes with its record (R279 to R287, R291, R295, R309, R310). -/
def Obligations.DecodeEngines : Prop :=
  ∀ (s : State) (e : Fin 8) (found : RecFound) (n : Nat) (p : Pic) (blocks : List PicBlock) (bad : Bool),
    let j := s.cdcJob n
    let w := j.words
    let x := s.decStream e.val
    let r := s.ringAt j.ring
    let a := r.base + r.cons
    let h := s.wordsAt a 8
    let runs : Prop := s.cdcRunning e.val = some n ∧ j.eng = e.val
    let access (rs ws : List (Nat × Nat)) : Prop := (∀ y ∈ rs, unitReadOk y.1 y.2 = true ∧ s.knownBad y.1 y.2 = none)
      ∧ (∀ y ∈ ws, j.writeOk s y.1 y.2 = true) ∧ s.trafficHeld codecIsland rs = false ∧ s.storesHeld codecIsland ws = false
    let takes : Prop := runs ∧ j.next < dFrames w ∧ x.due = none ∧ r.cons ≠ r.prod
    let flag (i : Nat) : Bool := (h.getD 1 0).testBit i
    let skipped : Bool := (x.skip || flag 3) && !flag 0 && !flag 1
    let look : Bool := !skipped && !flag 1 && h.getD 0 0 != 0
    let gap : Bool := x.seq.any fun q => h.getD 2 0 != (q + 1) % 2 ^ 32
    let hdrErrs : Nat := match found.hdr with
      | some y => if hdrSupported (dAv1 w) y = false ∨ hdrFits (dAv1 w) y = false ∨ y.w > dfld w 31 15 0 ∨ y.h > dfld w 31 31 16
          then 1 else 0
      | none => 0
    let held : Prop := ∃ y ∈ j.held, y.1 = j.next
    let decodes : Prop := ∀ b ∈ blocks, ∀ y ∈ b.preds, ∀ i, y.1 = some i → (x.began : Int) ≤ i
    let inTurn : Prop := ¬held ∧ flag 3 = false ∧ (flag 2 = true → look = true ∧ found.picture = true)
      ∧ (flag 1 = true ∨ h.getD 3 0 ≤ dFirst w + dReorder w + j.next * dFrameStride w)
    let errors : Nat := (if gap then 1 else 0) + (if look then hdrErrs + found.errs.length else 0)
    let size := ceilDiv (32 + h.getD 0 0) 64 * 64
    let counted (k : Nat) (u : State) : Prop :=
      u.fld .cdcStreamErrCnt 0 e.val cdcStreamErrCnt_errors
        = min (s.fld .cdcStreamErrCnt 0 e.val cdcStreamErrCnt_errors + k) (2 ^ cdcStreamErrCnt_errors.width - 1)
      ∧ (u.cdcJob n).dec.streamErr = (j.dec.streamErr || k != 0) ∧ (k ≠ 0 → j.dec.streamErr = false → Raised 176 (2 ^ e.val) s u)
    let consume : Host.Outcome State Fault Refusal := exec (.ringRecordConsume e found .clean) s
    let ranges (k : Nat) := [(daddr w 26, dStoreMib w * 2 ^ 20), (daddr w 24, 32)] ++ frameSpans w k
    let apart (l : List (Nat × Nat)) : Prop := l.Pairwise fun y z => y.1 + y.2 ≤ z.1 ∨ z.1 + z.2 ≤ y.1
    let taint := blockClasses x (bad && dfld w 0 28 28 == 1 && !dAv1 w) (ceilDiv p.w 16 * ceilDiv p.h 16) blocks
    let q := concealed p taint x.last
    (takes → recordBad r h = false → inTurn → 0 < dFrameStride w →
      access [(j.ring, 64), (a, size)] [(j.ring + 16, 4)] →
      ∃ u, consume = .next u ∧ counted errors u
        ∧ Wrote (j.ring + 16) (bytesOf 4 (if flag 1 ∨ r.cons + size ≥ r.size then 0 else r.cons + size)) s u
        ∧ (u.decStream e.val).seq = some (h.getD 2 0) ∧ (u.decStream e.val).skip = ((x.skip || flag 3) && !flag 0)
        ∧ (u.decStream e.val).due = (if look = true ∧ found.picture = true then some ⟨h.getD 3 0, flag 2, found.errs.length != 0⟩
            else none)
        ∧ (u.decStream e.val).store = (if look = true then x.store.filter fun p => !found.drops.contains p.num else x.store)
        ∧ (u.decStream e.val).began = (if flag 0 = true ∧ x.skip = true then x.count else x.began)
        ∧ (u.cdcJob n).tick = s.refclk ∧ (u.cdcJob n).next = j.next ∧ (u.cdcJob n).dec.consumed = j.dec.consumed + 1
        ∧ (u.cdcJob n).dec.skipped = j.dec.skipped + skipped.toNat ∧ (u.cdcJob n).dec.seqGap = (j.dec.seqGap || gap))
    ∧ (takes → recordBad r h = false → flag 3 = true ∨ (flag 2 = true ∧ ¬(look = true ∧ found.picture = true)) →
        access [(j.ring, 64), (a, size), (daddr w 24, 32)]
          ((j.ring + 16, 4) :: (List.range' j.next (dFrames w - j.next)).flatMap (frameSpans w)) →
        ∃ u, consume = .next u ∧ (u.cdcJob n).next = dFrames w
          ∧ ((∀ y ∈ j.held, y.1 ≠ j.next) → (u.cdcJob n).dec.shortStream = true))
    ∧ (takes → recordBad r h = true → access [(j.ring, 64), (a, 32)] [(j.ring + 16, 4)] →
        ∃ u, consume = .next u ∧ counted 1 u ∧ Wrote (j.ring + 16) (bytesOf 4 r.prod) s u
          ∧ (u.cdcJob n).dec.ringResync = true ∧ u.decStream e.val = x)
    ∧ (s.cdcRunning e.val = none ∨ (runs ∧ (dFrames w ≤ j.next ∨ x.due.isSome = true ∨ r.cons = r.prod)) → consume = .next s)
    ∧ (runs → w.getD 30 0 ≠ 0 → r.cons = r.prod → w.getD 30 0 ≤ (s.refclk - j.tick).toNat → x.due = none → j.next < dFrames w →
        access [(j.ring, 64), (daddr w 24, 32)] ((List.range' j.next (dFrames w - j.next)).flatMap (frameSpans w)) →
        ∃ u, exec (.ringRecordTimeout e) s = .next u ∧ (u.cdcJob n).dec.timedOut = true ∧ (u.cdcJob n).next = dFrames w)
    ∧ (runs → w.getD 30 0 = 0 ∨ r.cons ≠ r.prod ∨ (s.refclk - j.tick).toNat < w.getD 30 0 →
        exec (.ringRecordTimeout e) s = .next s)
    ∧ (∀ d, runs → x.due = some d → d.eos = false → decodes → wantedFrame w d.index = some j.next →
        dFrames w = j.next + 1 → ¬held → apart (ranges j.next) → (∀ y ∈ ranges j.next, NoContextStore y.1 y.2) →
        dChannels w ≤ dCStride w →
        access [(daddr w 26, dStoreMib w * 2 ^ 20), (daddr w 24, 32)]
          ((daddr w 26, dStoreMib w * 2 ^ 20) :: frameSpans w j.next) →
        ∃ u, exec (.pictureDecoded e p blocks bad .clean) s = .next u ∧ (u.cdcJob n).next = j.next + 1
          ∧ (u.decStream e.val).due = none ∧ (u.decStream e.val).last = some q ∧ (u.decStream e.val).count = x.count + 1
          ∧ ∀ y l, y < outH w → l < outW w * dCStride w * 2 →
              u.byte (daddr w 8 + j.next * dOutFrame w + y * dOutRow w + l) = (s.outRow w q y).getD l 0)
    ∧ (∀ d, runs → x.due = some d → d.eos = false → decodes → wantedFrame w d.index = none → ¬held →
        access [(daddr w 26, dStoreMib w * 2 ^ 20)] [(daddr w 26, dStoreMib w * 2 ^ 20)] →
        ∃ u, exec (.pictureDecoded e p blocks bad .clean) s = .next u ∧ (u.cdcJob n).next = j.next ∧ (u.cdcJob n).held = j.held
          ∧ (u.decStream e.val).due = none ∧ (u.decStream e.val).last = x.last ∧ (u.decStream e.val).count = x.count + 1
          ∧ (u.decStream e.val).store
            = ({ num := x.count, index := d.index, pic := q, taint := taint : Stored } :: x.store).take (dSlots w)
          ∧ ∀ b, b < daddr w 26 ∨ daddr w 26 + dStoreMib w * 2 ^ 20 ≤ b → u.byte b = s.byte b)
    ∧ (∀ d, runs → x.due = some d → d.eos = false → ¬decodes → ¬held →
        ∃ u, exec (.pictureDecoded e p blocks bad .clean) s = .next u ∧ u.decStream e.val = { x with due := none }
          ∧ (u.cdcJob n).next = j.next ∧ (u.cdcJob n).held = j.held ∧ ∀ b, u.byte b = s.byte b)
    ∧ (s.cdcRunning e.val = none → exec (.pictureDecoded e p blocks bad .clean) s = .next s)
    ∧ (runs → dFrames w ≤ j.next → x.due = none → j.c < 16 →
        ∃ u flags, exec (.decodeJobComplete e) s = .next u ∧ u.cdcJob n = default
          ∧ (u.q .decode 0 j.c).running = (s.q .decode 0 j.c).running.filter (· != n)
          ∧ (u.q .decode 0 j.c).done = (s.q .decode 0 j.c).done
            ++ [{ words := [cdcTag w, flags, j.next, j.dec.live % 2 ^ 32, j.dec.concealed % 2 ^ 32, j.dec.suspect % 2 ^ 32,
                    j.dec.consumed % 2 ^ 32, min j.dec.skipped 0xFFFF + j.index * 2 ^ 16], after := none }]
          ∧ ([flags.testBit 0, flags.testBit 1, flags.testBit 2, flags.testBit 3, flags.testBit 4, flags.testBit 5,
              flags.testBit 6, flags.testBit 7, flags.testBit 8]
            = [j.dec.streamErr, j.dec.hashMismatch, j.dec.sizeExceeded, j.dec.shortStream, j.dec.timedOut, j.dec.seqGap,
               j.dec.contLost, j.dec.unsupported, j.dec.ringResync])
          ∧ (cdcIrq .decode w = true → Raised (96 + j.c) (ctxTower j.c e.val) s u) ∧ ∀ b, u.byte b = s.byte b)
    ∧ (runs → j.next < dFrames w ∨ x.due.isSome = true → exec (.decodeJobComplete e) s = .next s)

/-- An encode engine codes the next slice, or the next picture in the latency classes 0 and 2, and writes its record into the ring with prod
after it; a slice without room is dropped and counted in class 1, and in the others the engine stalls until there is room; a job whose
frames are all coded and emitted completes with its record. A picture is an IDR picture where its class schedules one or
one is forced (R277, R279 to R281, R305, R306, R309, R310). -/
def Obligations.EncodeEngines : Prop :=
  ∀ (s : State) (e : Fin 2) (n : Nat) (slices : Bool),
    let j := s.cdcJob n
    let w := j.words
    let pl := s.encPlan j
    let x := pl.2.1
    let bytes := Config.coded x.past pl.1
    let r := s.ringAt j.ring
    let area := (daddr w 19, eStoreMib w * 2 ^ 20)
    let code : Host.Outcome State Fault Refusal := if slices then exec (.sliceCoded e .clean) s else exec (.pictureCoded e .clean) s
    let runs : Prop := s.cdcRunning (8 + e.val) = some n ∧ j.eng = 8 + e.val
    let ready : Prop := runs ∧ j.stalled = none ∧ j.next < cdcFrames .encode w ∧ (eClass w = 1 ↔ slices = true)
    let access (rs ws : List (Nat × Nat)) : Prop := (∀ y ∈ rs, unitReadOk y.1 y.2 = true ∧ s.knownBad y.1 y.2 = none)
      ∧ (∀ y ∈ ws, j.writeOk s y.1 y.2 = true) ∧ s.trafficHeld codecIsland rs = false ∧ s.storesHeld codecIsland ws = false
    let apart (l : List (Nat × Nat)) : Prop :=
      (l.Pairwise fun y z => y.1 + y.2 ≤ z.1 ∨ z.1 + z.2 ≤ y.1) ∧ ∀ y ∈ l, NoContextStore y.1 y.2
    let last := lastSlice w j.slice
    let moved (u : State) : Prop := (u.encStream (8 + e.val)).past = pl.1 :: x.past
      ∧ (u.cdcJob n).next = (if last = true then j.next + 1 else j.next)
      ∧ (u.cdcJob n).slice = (if last = true then 0 else j.slice + 1)
      ∧ (u.encStream (8 + e.val)).count = (if last = true then x.count + 1 else x.count)
    let written (u : State) (q : EncStream) (bs : List Byte) (pad : Bool) (off : Nat) (rap cls1 end_ drop : Bool) (index : Nat) : Prop :=
      let at_ := r.base + off
      let seq := if pad then (q.seq + 1) % 2 ^ 32 else q.seq
      u.word at_ = bs.length % 2 ^ 32 ∧ u.word (at_ + 8) = seq % 2 ^ 32 ∧ u.word (at_ + 12) = index % 2 ^ 32
      ∧ ([0, 1, 2, 3, 4, 5, 6].map fun i => (u.word (at_ + 4)).testBit i) = [rap, false, false, false, cls1, end_, drop]
      ∧ (∀ l, l < bs.length → u.byte (at_ + 32 + l) = bs.getD l 0)
      ∧ u.word (j.ring + 12) = (off + ceilDiv (32 + bs.length) 64 * 64) % r.size
      ∧ (u.encStream (8 + e.val)).seq = (seq + 1) % 2 ^ 32
    let put (bs : List Byte) (pad : Bool) (off : Nat) : List (Nat × Nat) :=
      (if pad then [(r.base + r.prod, 32)] else []) ++ [(r.base + off, 32 + bs.length)]
    let room (bs : List Byte) := r.place (ceilDiv (32 + bs.length) 64 * 64)
    let old := s.encStream (8 + e.val)
    (j.eng = 8 + e.val → j.slice = 0 → x.past = old.past ∧ x.afterDrop = old.afterDrop ∧ x.force = false
      ∧ (x.idr = true ↔ old.force = true ∨ old.count = 0 ∨ (eClass w ≠ 2 ∧ 0 < eIdrPeriod w ∧ eIdrPeriod w ≤ old.sinceIdr))
      ∧ (eRc w = 0 → x.qp = eQp w) ∧ pl.1.idr = x.idr ∧ pl.1.count = old.count)
    ∧ (j.eng = 8 + e.val → j.slice ≠ 0 → x = old)
    ∧ (∀ pad off, ready → room bytes = some (pad, off) → apart (area :: (j.ring, 64) :: put bytes pad off) → 0 < r.size →
      access (encReads j ++ [(j.ring, 64), area]) (area :: (put bytes pad off ++ [(j.ring + 12, 4)])) →
      ∃ u, code = .next u ∧ moved u
        ∧ written u x bytes pad off (x.idr && j.slice == 0) slices (slices && last) x.afterDrop (dfld w 7 31 0 + j.next)
        ∧ (u.cdcJob n).enc.emitted = min (pl.2.2.enc.emitted + bytes.length) (2 ^ 32 - 1) ∧ (u.cdcJob n).stalled = none)
    ∧ (ready → room bytes = none → access (encReads j ++ [(j.ring, 64), area]) [area] →
        ∃ u, code = .next u ∧ moved u ∧ (∀ b, b < area.1 ∨ area.1 + area.2 ≤ b → u.byte b = s.byte b)
          ∧ (slices = true → CountedOne .cdcDropCnt 0 e.val cdcDropCnt_dropped s u ∧ Raised 177 (2 ^ e.val) s u
              ∧ (u.cdcJob n).enc.sliceDropped = true ∧ (u.cdcJob n).enc.dropped = j.enc.dropped + 1
              ∧ (u.encStream (8 + e.val)).force = true ∧ (u.encStream (8 + e.val)).afterDrop = true)
          ∧ (slices = false → (u.cdcJob n).stalled = some { bytes := bytes, rap := x.idr && j.slice == 0, afterDrop := x.afterDrop }))
    ∧ (runs → j.stalled.isSome = true ∨ cdcFrames .encode w ≤ j.next → code = .next s)
    ∧ (∀ p pad off, runs → j.stalled = some p → room p.bytes = some (pad, off) → 0 < r.size →
        apart ((j.ring, 64) :: put p.bytes pad off) → access [(j.ring, 64)] (put p.bytes pad off ++ [(j.ring + 12, 4)]) →
        ∃ u, exec (.encodeOutputRoom e) s = .next u ∧ (u.cdcJob n).stalled = none
          ∧ written u (s.encStream (8 + e.val)) p.bytes pad off p.rap false false p.afterDrop (dfld w 7 31 0 + j.next - 1)
          ∧ (u.cdcJob n).next = j.next)
    ∧ (∀ p, runs → j.stalled = some p → room p.bytes = none → exec (.encodeOutputRoom e) s = .next s)
    ∧ (runs → cdcFrames .encode w ≤ j.next → j.stalled = none → j.c < 16 →
        ∃ u flags, exec (.encodeJobComplete e) s = .next u ∧ u.cdcJob n = default
          ∧ (u.q .encode 0 j.c).running = (s.q .encode 0 j.c).running.filter (· != n)
          ∧ (u.q .encode 0 j.c).done = (s.q .encode 0 j.c).done
            ++ [{ words := [cdcTag w, flags, j.next, j.enc.emitted, j.enc.dropped % 2 ^ 32,
                    j.enc.qpMin % 2 ^ 8 + j.enc.qpMax % 2 ^ 8 * 2 ^ 8, 0, j.index * 2 ^ 16], after := none }]
          ∧ [flags.testBit 0, flags.testBit 1, flags.testBit 2, flags.testBit 3]
            = [j.enc.sliceDropped, j.enc.roiInvalid, j.enc.contLost, j.enc.forcedIdr]
          ∧ (cdcIrq .encode w = true → Raised (96 + j.c) (ctxTower j.c (8 + e.val)) s u) ∧ ∀ b, u.byte b = s.byte b)
    ∧ (runs → j.next < cdcFrames .encode w ∨ j.stalled.isSome = true → exec (.encodeJobComplete e) s = .next s)

/-- The word of a vector-core instruction gives back its opcode and its fields; its opcode's bits [7:4] select its group and the slot
that executes it; a word whose opcode no group table lists spells no command, and a word of each group spells its row's command (R203,
R204, R206). -/
def Obligations.InstructionWords : Prop :=
  ∀ (op : Byte) (f : Fields) (t : Tower) (i : Nat) (tag : Word),
    let w : DWord := f.up ++ BitVec.ofBool f.mu ++ f.mask ++ f.c ++ f.b ++ f.a ++ f.d ++ op
    let slots : List Slot := [.g, .g, .a, .a, .b, .b, .c, .d, .e, .f, .h]
    let rows : List Nat := [15, 10, 14, 9, 4, 8, 15, 13, 4, 13, 12]
    let n := op.toNat
    opOf w = n ∧ fieldsOf w = f ∧ (opGroup n).map OpGroup.slot = slots[n / 16]?
    ∧ (decodeVec t i tag w = none ↔ rows.getD (n / 16) 0 ≤ n % 16)
    ∧ (op = 0x00 → decodeVec t i tag w = some (.sadd t i f)) ∧ (op = 0x19 → decodeVec t i tag w = some (.setvl t i f))
    ∧ (op = 0x20 → decodeVec t i tag w = some (.vfadd t i f)) ∧ (op = 0x38 → decodeVec t i tag w = some (.viredsum t i f))
    ∧ (op = 0x42 → decodeVec t i tag w = some (.vcvtmx t i f)) ∧ (op = 0x7B → decodeVec t i tag w = some (.vcompress t i f))
    ∧ (op = 0xA0 → decodeVec t i tag w = some (.wait t i f))

/-! ### The whole block -/

/-- The machine right after reset has no command waiting and memory in its canonical form. Registers hold the reset values their tables
state, every island not ready and every context NONE; the input is off; HBM, drum SRAM and accumulator memory read as free values (R8,
R522, R523). -/
def Obligations.ResetLeaves : Prop :=
  let s := State.reset
  s.pending = [] ∧ Memory.wf s.mem = true ∧ s.pwr.st = .off ∧ s.refclk = 0
  ∧ (∀ c, s.ctxState c = 0) ∧ s.reg .ctlIslandReady 0 0 = 0 ∧ s.stepNo = 0
  ∧ s.fld .ctlStepTimeout 0 0 ctlStepTimeout_ticks = 3000000000 ∧ s.fld .clkThermCfg 0 0 clkThermCfg_throttleC = 100
  ∧ s.fld .clkThermCfg 0 0 clkThermCfg_hystC = 5 ∧ s.fld .clkThermCfg 0 0 clkThermCfg_tripC = 110
  ∧ s.fld .hostUdpPort 0 0 hostUdpPort_port = 41700 ∧ s.fld .hostEvtRetry 0 0 hostEvtRetry_ticks = 100000
  ∧ (∀ n, s.bit .irqSrcCfg 0 n irqSrcCfg_mask = true ∧ s.bit .irqSrcCfg 0 n irqSrcCfg_hostMask = true)
  ∧ (∀ t, s.fld .plynReqTimeout t 0 plynReqTimeout_ticks = 1000000 ∧ s.fld .plynRotCfg t 0 plynRotCfg_interval = 100000
      ∧ s.fld .memCalCfg t 0 memCalCfg_calInterval = 1000 ∧ s.fld .memScrubCfg t 0 memScrubCfg_scrubHours = 8)
  ∧ (∀ t c, s.fld .atnPageTimeout t c atnPageTimeout_ticks = 1000000)
  ∧ (∀ k, s.trec k = default ∧ s.seat k = default) ∧ (∀ n, (tget s.irq.srcs n).st = .idle)
  ∧ ∀ a, regionOf a = .hbm ∨ (∃ t, regionOf a = .scratch t) ∨ (∃ t, regionOf a = .queueMem t) ∨ (∃ t, regionOf a = .acc t) →
      ∃ k, s.byte a = Config.freeByte k a

/-- A step with no command waiting is one refclk tick: without power nothing changes; otherwise the refclk counter advances and each phase
with an active agent counts the tick, and where no snapshot, refill, reduction traffic, starved append, mover transfer or idle flit is to
go on nothing else changes; a linked port that owes its partner credits or an ack puts out an idle flit (the model's choice of what an empty
queue does: log entry 33). -/
def Claims.IdleTicks : Prop :=
  ∀ s : State, s.pending = [] →
    (s.pwr.st = .off → step s = .next s)
    ∧ (s.pwr.st ≠ .off → ∃ u, step s = .next u ∧ u.refclk = s.refclk + 1
        ∧ (s.ram.snap = none → s.ram.refillOut = [] → s.ram.jobs = [] → s.red.faults = [] → s.red.held = [] → s.red.due = [] →
            s.red.rings = [] → s.atn.starved = [] →
            (∀ p, p < 6 → s.linked p = true → (s.port p).owes.1 = 15 ∧ (s.port p).told = (s.port p).expect) →
            u = { s with refclk := s.refclk + 1, step := { s.step with phases := u.step.phases } }
            ∧ ∀ p, p < 16 → tget u.step.phases p =
                (let x := tget s.step.phases p
                 if s.activePhases.contains p then
                   { first := some (x.first.getD s.refclk), last := s.refclk, busy := x.busy + 1 }
                 else x)))

/-- Every step keeps memory in its canonical form: addresses strictly rising, no byte listed that reads as an unlisted one does. So equal
memories are equal lists, whatever commands wrote them. -/
def Obligations.StepsKeepMemoryCanonical : Prop :=
  ∀ s u : State, Memory.wf s.mem = true → step s = .next u → Memory.wf u.mem = true

/-- The block stops on no command: exec answers a next state for every command in every state, well formed or not. -/
def Claims.NoCommandStops : Prop :=
  ∀ (c : Instr) (s : State), ∃ u, exec c s = .next u

/-- The bytes of every mailbox command that fits a slot read back as that command, with its tag and its deadline: opcode, length, argument
order, sizes, alignment and padding agree between the reading and the writing of a command (R442, R444, R453). -/
def Obligations.MailboxCommandsReadBack : Prop :=
  ∀ (c : MbCmd) (mb : MboxId) (tag : Half) (deadline : Word), c.fits = true →
    parseCmd (encodeCmd c tag deadline) = some c
    ∧ cmdHdr mb (encodeCmd c tag deadline) = { mb := mb, tag := tag, deadline := deadline }
    ∧ (encodeCmd c tag deadline).length % 4 = 0

/-! ### Statements in several parts -/

/-- The scalar arithmetic, logic, shift, compare and immediate instructions (R210). -/
def Obligations.ScalarInstructions : Prop :=
  Claims.ScalarArithmetic ∧ Claims.ScalarCompareAndImmediates

/-- Branches, jumps, SETVL, SWRF, PHASE and NOP (R189, R201, R210, R226, R229, R232, R233). -/
def Obligations.ControlFlowAndModes : Prop :=
  Claims.Branches ∧ Claims.JumpRegister ∧ Claims.ModeInstructions

/-- The wrapping and the saturating integer instructions, and the rounding of VQMULSHR (R192, R208, R215, R219). -/
def Obligations.VectorIntegerInstructions : Prop :=
  Claims.VectorIntegers ∧ Claims.VectorSaturating ∧ Claims.RoundShiftIsNearest

/-- Floating-point arithmetic, compares and reductions (R212 to R214, R218). -/
def Obligations.VectorFloatInstructions : Prop :=
  Claims.VectorFloats ∧ Claims.FloatComparesAndReductions

/-- Conversions between formats, and that a value read from a format is written back as itself (R57, R58, R60, R209,
R216 to R218). -/
def Obligations.VectorConversionInstructions : Prop :=
  Claims.VectorConversions ∧ Claims.FormatsRoundTrip

/-- Logic, shifts, permutes and moves, mask instructions, compress and expand (R190, R220, R221). -/
def Obligations.LogicMoveAndMaskInstructions : Prop :=
  Claims.VectorLogic ∧ Claims.VectorMoves ∧ Claims.MaskInstructions ∧ Claims.CompressExpand

/-- Which addresses may be named, and what loads, stores and atomics put in flight (R28, R172, R194, R208, R222 to
R225). -/
def Obligations.MemoryInstructionsIssue : Prop :=
  Claims.AddressChecks ∧ Claims.LoadsIssue ∧ Claims.StoresIssue ∧ Claims.AtomicsIssue

/-- The order in which accesses are performed, and what each does (R62, R172, R194, R195, R199, R223, R224, R232). -/
def Obligations.AccessesArePerformed : Prop :=
  Claims.AccessOrder ∧ Claims.LoadCompletes ∧ Claims.StoreIsPerformed ∧ Claims.AtomicIsPerformed

/-- WAIT, YIELD and BAR.EOS park their threads, and stores wake the watchers of their words (R20, R178, R181, R182,
R187, R194, R227, R319, R322). -/
def Obligations.ThreadsParkAndWake : Prop :=
  Claims.WaitParksOrGoesOn ∧ Claims.YieldAndBarEosPark ∧ Claims.StoresWakeWatchers

/-- BAR and BARINIT (R185, R186, R198, R228). -/
def Obligations.BarriersReleaseThreads : Prop :=
  Claims.Barriers ∧ Claims.BarrierInit

/-- SPAWN, EXIT, FENCE and EVENT (R183, R184, R195, R230). -/
def Obligations.ThreadsSpawnAndExit : Prop :=
  Claims.Spawns ∧ Claims.ExitFenceEvent

/-- Dispatch of READY threads to seats, the choice of the context served, resume and deadlines (R41, R177, R180, R184,
R227, R464, R465, R467). -/
def Obligations.ThreadsGetSeats : Prop :=
  Claims.DispatchPlaces ∧ Claims.ArbiterServesHighestPriority ∧ Claims.ResumeDeadlineFree

/-- What an exception does to its thread and context, and how a context is torn down (R172, R201, R202, R205, R233,
R267, R456, R457, R471, R473, R476). -/
def Obligations.ExceptionsAndContextFaults : Prop :=
  Claims.ThreadExceptions ∧ Claims.ContextFaultsAndTeardown

/-- Event sources: raise, mask, claim, completion and the records of the host event queue (R437, R438, R496 to R504,
R506). -/
def Obligations.EventsAreDelivered : Prop :=
  Claims.SourceRaise ∧ Claims.InterruptController

/-- HBM refresh, refresh management, scrub reads and calibration windows (R313, R314, R318 to R320, R322, R323, R325,
R326, R514). -/
def Obligations.RefreshScrubAndCalibration : Prop :=
  Claims.RefreshAndScrub ∧ Claims.CalibrationWindows

/-- KVAPP and the page pools it draws from (R20, R52, R179, R263, R265, R266, R272). -/
def Obligations.TokensAndPagePools : Prop :=
  Claims.PagePools ∧ Claims.TokenAppends

/-- Local arrival, the arrival and commit tokens, and what a commit makes current (R34, R35, R37 to R42, R411). -/
def Obligations.StepsCommitTogether : Prop :=
  Claims.LocalArrival ∧ Claims.BarrierTokens

/-- Which bank a lantern access reads, and stores that are held behind it or behind a snapshot (R51, R52, R345, R563).
-/
def Obligations.LanternReadsAndHeldStores : Prop :=
  Claims.LanternDecision ∧ Claims.HeldStoresAreReleased

/-- Tile, attention, sleeve and reduction descriptors are issued, or rejected with a record (R20, R41, R86 to R89,
R93, R121, R127, R161, R244, R359). -/
def Obligations.DescriptorsLeaveTheirRings : Prop :=
  Claims.DescriptorsAreIssued ∧ Claims.DescriptorsAreRejected

/-- Tiles claim slots, chunks are staged, issued and folded, tiles spill, reload, drain and copy (R71, R72, R77, R97
to R99, R107, R112, R132, R145, R146, R465, R567). -/
def Obligations.TileJobsRun : Prop :=
  Claims.TileJobsClaimStageAndIssue ∧ Claims.ChunkFold ∧ Claims.TilesSpillReloadDrainAndCopy

/-- A descriptor whose jobs are done completes, and its record is written to the completion ring (R20, R86, R88, R118,
R238, R257, R339). -/
def Obligations.DescriptorsCompleteWithRecords : Prop :=
  Claims.DescriptorsComplete ∧ Claims.CompletionRecordsAreWritten

/-- Mover transfers are issued, move their parts, and complete (R87, R319, R336 to R340, R467). -/
def Obligations.MoverTransfersRun : Prop :=
  Claims.MoverTransfersStartAndEnd ∧ Claims.MoverParts

/-- Contributions are added to exact sums, sums travel and buckets complete (R79, R356, R361, R364, R366, R367, R370,
R372 to R376, R379, R380). -/
def Obligations.ReductionsComplete : Prop :=
  Claims.ContributionsAreAdded ∧ Claims.ReductionMessages ∧ Claims.BucketsComplete

/-- Fabric links train, rotate their spare lane, take out faulty lanes and are quarantined (R387 to R390, R392, R394,
R395, R397, R408, R409, R416, R417). -/
def Obligations.LinksTrainAndRotate : Prop :=
  Claims.LinkTraining ∧ Claims.GussetRotation ∧ Claims.LaneFaults ∧ Claims.QuarantineAndIdent

/-- Remote reads and writes are served, and answers end the requests they belong to (R20, R31, R52, R322, R345 to
R347, R404 to R406). -/
def Obligations.RemoteRequestsAreAnswered : Prop :=
  Claims.RemoteReadsAndWrites ∧ Claims.AnswersEndTheirRequests

/-- Snapshots and refills close, and Lumdom's messages to other devices (R343, R344, R346, R404, R481, R482, R490,
R492). -/
def Obligations.SnapshotsAndMessages : Prop :=
  Claims.SnapshotsAndRefillsClose ∧ Claims.LumdomMessages

/-- RDMA requests, and the answers to those of the device (R20, R52, R319, R322, R345, R425 to R429). -/
def Obligations.RoceExchanges : Prop :=
  Claims.RoceRequests ∧ Claims.RoceAnswers

/-- Clock selection and loss, throttling, telemetry and HBM training (R21, R313, R512, R513, R515 to R517, R524, R529,
R531). -/
def Obligations.ClocksThrottleAndTraining : Prop :=
  Claims.Clocks ∧ Claims.ThrottleTelemetryTraining

/-- exec answers a next state for every command, and a step with no command waiting is one tick. -/
def Obligations.NoStepStops : Prop :=
  Claims.NoCommandStops ∧ Claims.IdleTicks
end

