-- ==== Sys2Proof/Laws/Sparse.lean ====
section
/-! SUPPORT. Laws of sparse tables: a read after a write, and the canonical form kept. -/

namespace Sys2Proof.Machine

variable {α : Type}

theorem keysAbove_mono {j k : Nat} {m : List (Nat × α)} (hjk : j ≤ k) (h : keysAbove k m = true) :
    keysAbove j m = true := by
  cases m with
  | nil => rfl
  | cons p rest => simp only [keysAbove, decide_eq_true_eq] at *; omega

theorem sparseGet_insert_same (m : List (Nat × α)) (d : α) (k : Nat) (v : α) :
    sparseGet (sparseInsert m k v) d k = v := by
  induction m with
  | nil => simp [sparseInsert, sparseGet]
  | cons p rest ih =>
    obtain ⟨j, w⟩ := p
    simp only [sparseInsert]
    split
    · simp [sparseGet]
    · split
      · simp [sparseGet]
      · rename_i h1 _; simp [sparseGet, h1, ih]

theorem sparseGet_insert_ne (m : List (Nat × α)) (d : α) {k j : Nat} (v : α) (h : j ≠ k) :
    sparseGet (sparseInsert m k v) d j = sparseGet m d j := by
  induction m with
  | nil => simp [sparseInsert, sparseGet, Ne.symm h]
  | cons p rest ih =>
    obtain ⟨i, w⟩ := p
    simp only [sparseInsert]
    split
    · rename_i h1; subst h1; simp [sparseGet, Ne.symm h]
    · split
      · simp [sparseGet, Ne.symm h]
      · simp [sparseGet, ih]

theorem sparseGet_drop_ne (m : List (Nat × α)) (d : α) {k j : Nat} (h : j ≠ k) :
    sparseGet (sparseDrop m k) d j = sparseGet m d j := by
  induction m with
  | nil => rfl
  | cons p rest ih =>
    obtain ⟨i, w⟩ := p
    simp only [sparseDrop]
    split
    · rename_i h1; subst h1; simp [sparseGet, Ne.symm h, ih]
    · simp [sparseGet, ih]

theorem sparseGet_drop_same (m : List (Nat × α)) (d : α) (k : Nat) : sparseGet (sparseDrop m k) d k = d := by
  induction m with
  | nil => rfl
  | cons p rest ih =>
    obtain ⟨i, w⟩ := p
    simp only [sparseDrop]
    split
    · exact ih
    · rename_i h1; simp [sparseGet, h1, ih]

theorem keysAbove_insert {j k : Nat} {v : α} {m : List (Nat × α)} (hjk : j < k) (h : keysAbove j m = true) :
    keysAbove j (sparseInsert m k v) = true := by
  cases m with
  | nil => simpa [sparseInsert, keysAbove] using hjk
  | cons p rest =>
    obtain ⟨i, w⟩ := p
    simp only [sparseInsert]
    split
    · simpa [keysAbove] using hjk
    · split
      · simpa [keysAbove] using hjk
      · simpa [keysAbove] using h

variable [DecidableEq α]

/-- Reading the written key gives the written value. -/
theorem sparseGet_put_same (m : List (Nat × α)) (d : α) (k : Nat) (v : α) :
    sparseGet (sparsePut m d k v) d k = v := by
  simp only [sparsePut]
  split
  · rename_i h; rw [sparseGet_drop_same, h]
  · exact sparseGet_insert_same m d k v

/-- Reading another key gives what it gave before. -/
theorem sparseGet_put_ne (m : List (Nat × α)) (d d' : α) {k j : Nat} (v : α) (h : j ≠ k) :
    sparseGet (sparsePut m d' k v) d j = sparseGet m d j := by
  simp only [sparsePut]
  split
  · exact sparseGet_drop_ne m d h
  · exact sparseGet_insert_ne m d v h

theorem keysAbove_drop {j k : Nat} {dflt : Nat → α} {m : List (Nat × α)} (hm : sparseWf dflt m = true)
    (h : keysAbove j m = true) : keysAbove j (sparseDrop m k) = true := by
  induction m with
  | nil => rfl
  | cons p rest ih =>
    obtain ⟨i, w⟩ := p
    simp only [sparseWf, Bool.and_eq_true] at hm
    simp only [sparseDrop]
    split
    · refine ih hm.2 (keysAbove_mono ?_ hm.1.1); simp only [keysAbove, decide_eq_true_eq] at h; omega
    · exact h

theorem sparseDrop_wf {dflt : Nat → α} {m : List (Nat × α)} (k : Nat) (hm : sparseWf dflt m = true) :
    sparseWf dflt (sparseDrop m k) = true := by
  induction m with
  | nil => rfl
  | cons p rest ih =>
    obtain ⟨i, w⟩ := p
    have hm0 := hm
    simp only [sparseWf, Bool.and_eq_true] at hm
    simp only [sparseDrop]
    split
    · exact ih hm.2
    · simp only [sparseWf, Bool.and_eq_true]
      exact ⟨⟨keysAbove_drop hm.2 hm.1.1, hm.1.2⟩, ih hm.2⟩

theorem sparseInsert_wf {dflt : Nat → α} {m : List (Nat × α)} {k : Nat} {v : α} (hm : sparseWf dflt m = true)
    (hv : v ≠ dflt k) : sparseWf dflt (sparseInsert m k v) = true := by
  induction m with
  | nil => simp [sparseInsert, sparseWf, keysAbove, hv]
  | cons p rest ih =>
    obtain ⟨i, w⟩ := p
    simp only [sparseWf, Bool.and_eq_true] at hm
    simp only [sparseInsert]
    split
    · rename_i h1; subst h1; simp [sparseWf, hv, hm.1.1, hm.2]
    · split
      · rename_i h2; simp only [sparseWf, Bool.and_eq_true]
        exact ⟨⟨by simpa [keysAbove] using h2, by simp [hv]⟩, hm.1, hm.2⟩
      · rename_i h1 h2
        simp only [sparseWf, Bool.and_eq_true]
        exact ⟨⟨keysAbove_insert (by omega) hm.1.1, hm.1.2⟩, ih hm.2⟩

/-- A write keeps the canonical form. -/
theorem sparsePut_wf {dflt : Nat → α} {m : List (Nat × α)} (k : Nat) (v : α) (hm : sparseWf dflt m = true) :
    sparseWf dflt (sparsePut m (dflt k) k v) = true := by
  simp only [sparsePut]
  split
  · exact sparseDrop_wf k hm
  · rename_i h; exact sparseInsert_wf hm h

/-! ### Tables whose unlisted keys read as the default -/

variable [Inhabited α]

@[simp] theorem tget_tput_same (m : Tbl α) (k : Nat) (v : α) : tget (tput m k v) k = v :=
  sparseGet_put_same m default k v

theorem tget_tput_ne (m : Tbl α) {k j : Nat} (v : α) (h : j ≠ k) : tget (tput m k v) j = tget m j :=
  sparseGet_put_ne m default default v h

theorem tput_wf (m : Tbl α) (k : Nat) (v : α) (h : tblWf m = true) : tblWf (tput m k v) = true :=
  sparsePut_wf k v h

theorem tget_tmod_same (m : Tbl α) (k : Nat) (f : α → α) : tget (tmod m k f) k = f (tget m k) := by simp [tmod]

end Sys2Proof.Machine
end

