-- ==== Sys2Proof/Laws/State.lean ====
section
/-! SUPPORT. What each update of the state leaves alone: one lemma per field per update. -/

namespace Sys2Proof.Machine

variable (s : State)

/-! ### `setReg` -/

@[simp] theorem State.setReg_pending (r : RegId) (t i : Nat) (w : Word) : (s.setReg r t i w).pending = s.pending := rfl
@[simp] theorem State.setReg_mem (r : RegId) (t i : Nat) (w : Word) : (s.setReg r t i w).mem = s.mem := rfl
@[simp] theorem State.setReg_freeCtr (r : RegId) (t i : Nat) (w : Word) : (s.setReg r t i w).freeCtr = s.freeCtr := rfl
@[simp] theorem State.setReg_refclk (r : RegId) (t i : Nat) (w : Word) : (s.setReg r t i w).refclk = s.refclk := rfl
@[simp] theorem State.setReg_irq (r : RegId) (t i : Nat) (w : Word) : (s.setReg r t i w).irq = s.irq := rfl
@[simp] theorem State.setReg_step (r : RegId) (t i : Nat) (w : Word) : (s.setReg r t i w).step = s.step := rfl
@[simp] theorem State.setReg_ctx (r : RegId) (t i : Nat) (w : Word) : (s.setReg r t i w).ctx = s.ctx := rfl
@[simp] theorem State.setReg_thr (r : RegId) (t i : Nat) (w : Word) : (s.setReg r t i w).thr = s.thr := rfl
@[simp] theorem State.setReg_mtx (r : RegId) (t i : Nat) (w : Word) : (s.setReg r t i w).mtx = s.mtx := rfl
@[simp] theorem State.setReg_slv (r : RegId) (t i : Nat) (w : Word) : (s.setReg r t i w).slv = s.slv := rfl
@[simp] theorem State.setReg_atn (r : RegId) (t i : Nat) (w : Word) : (s.setReg r t i w).atn = s.atn := rfl
@[simp] theorem State.setReg_cdc (r : RegId) (t i : Nat) (w : Word) : (s.setReg r t i w).cdc = s.cdc := rfl
@[simp] theorem State.setReg_fab (r : RegId) (t i : Nat) (w : Word) : (s.setReg r t i w).fab = s.fab := rfl
@[simp] theorem State.setReg_red (r : RegId) (t i : Nat) (w : Word) : (s.setReg r t i w).red = s.red := rfl
@[simp] theorem State.setReg_ram (r : RegId) (t i : Nat) (w : Word) : (s.setReg r t i w).ram = s.ram := rfl
@[simp] theorem State.setReg_host (r : RegId) (t i : Nat) (w : Word) : (s.setReg r t i w).host = s.host := rfl
@[simp] theorem State.setReg_cross (r : RegId) (t i : Nat) (w : Word) : (s.setReg r t i w).cross = s.cross := rfl
@[simp] theorem State.setReg_pwr (r : RegId) (t i : Nat) (w : Word) : (s.setReg r t i w).pwr = s.pwr := rfl
@[simp] theorem State.setReg_readData (r : RegId) (t i : Nat) (w : Word) : (s.setReg r t i w).readData = s.readData := rfl

/-! ### `setFld` -/

@[simp] theorem State.setFld_pending (r : RegId) (t i : Nat) (f : Fld) (v : Nat) : (s.setFld r t i f v).pending = s.pending := rfl
@[simp] theorem State.setFld_mem (r : RegId) (t i : Nat) (f : Fld) (v : Nat) : (s.setFld r t i f v).mem = s.mem := rfl
@[simp] theorem State.setFld_freeCtr (r : RegId) (t i : Nat) (f : Fld) (v : Nat) : (s.setFld r t i f v).freeCtr = s.freeCtr := rfl
@[simp] theorem State.setFld_refclk (r : RegId) (t i : Nat) (f : Fld) (v : Nat) : (s.setFld r t i f v).refclk = s.refclk := rfl
@[simp] theorem State.setFld_irq (r : RegId) (t i : Nat) (f : Fld) (v : Nat) : (s.setFld r t i f v).irq = s.irq := rfl
@[simp] theorem State.setFld_step (r : RegId) (t i : Nat) (f : Fld) (v : Nat) : (s.setFld r t i f v).step = s.step := rfl
@[simp] theorem State.setFld_ctx (r : RegId) (t i : Nat) (f : Fld) (v : Nat) : (s.setFld r t i f v).ctx = s.ctx := rfl
@[simp] theorem State.setFld_thr (r : RegId) (t i : Nat) (f : Fld) (v : Nat) : (s.setFld r t i f v).thr = s.thr := rfl
@[simp] theorem State.setFld_mtx (r : RegId) (t i : Nat) (f : Fld) (v : Nat) : (s.setFld r t i f v).mtx = s.mtx := rfl
@[simp] theorem State.setFld_slv (r : RegId) (t i : Nat) (f : Fld) (v : Nat) : (s.setFld r t i f v).slv = s.slv := rfl
@[simp] theorem State.setFld_atn (r : RegId) (t i : Nat) (f : Fld) (v : Nat) : (s.setFld r t i f v).atn = s.atn := rfl
@[simp] theorem State.setFld_cdc (r : RegId) (t i : Nat) (f : Fld) (v : Nat) : (s.setFld r t i f v).cdc = s.cdc := rfl
@[simp] theorem State.setFld_fab (r : RegId) (t i : Nat) (f : Fld) (v : Nat) : (s.setFld r t i f v).fab = s.fab := rfl
@[simp] theorem State.setFld_red (r : RegId) (t i : Nat) (f : Fld) (v : Nat) : (s.setFld r t i f v).red = s.red := rfl
@[simp] theorem State.setFld_ram (r : RegId) (t i : Nat) (f : Fld) (v : Nat) : (s.setFld r t i f v).ram = s.ram := rfl
@[simp] theorem State.setFld_host (r : RegId) (t i : Nat) (f : Fld) (v : Nat) : (s.setFld r t i f v).host = s.host := rfl
@[simp] theorem State.setFld_cross (r : RegId) (t i : Nat) (f : Fld) (v : Nat) : (s.setFld r t i f v).cross = s.cross := rfl
@[simp] theorem State.setFld_pwr (r : RegId) (t i : Nat) (f : Fld) (v : Nat) : (s.setFld r t i f v).pwr = s.pwr := rfl
@[simp] theorem State.setFld_readData (r : RegId) (t i : Nat) (f : Fld) (v : Nat) : (s.setFld r t i f v).readData = s.readData := rfl

/-! ### `flag` -/

@[simp] theorem State.flag_pending (r : RegId) (t i : Nat) (f : Fld) : (s.flag r t i f).pending = s.pending := rfl
@[simp] theorem State.flag_mem (r : RegId) (t i : Nat) (f : Fld) : (s.flag r t i f).mem = s.mem := rfl
@[simp] theorem State.flag_freeCtr (r : RegId) (t i : Nat) (f : Fld) : (s.flag r t i f).freeCtr = s.freeCtr := rfl
@[simp] theorem State.flag_refclk (r : RegId) (t i : Nat) (f : Fld) : (s.flag r t i f).refclk = s.refclk := rfl
@[simp] theorem State.flag_irq (r : RegId) (t i : Nat) (f : Fld) : (s.flag r t i f).irq = s.irq := rfl
@[simp] theorem State.flag_step (r : RegId) (t i : Nat) (f : Fld) : (s.flag r t i f).step = s.step := rfl
@[simp] theorem State.flag_ctx (r : RegId) (t i : Nat) (f : Fld) : (s.flag r t i f).ctx = s.ctx := rfl
@[simp] theorem State.flag_thr (r : RegId) (t i : Nat) (f : Fld) : (s.flag r t i f).thr = s.thr := rfl
@[simp] theorem State.flag_mtx (r : RegId) (t i : Nat) (f : Fld) : (s.flag r t i f).mtx = s.mtx := rfl
@[simp] theorem State.flag_slv (r : RegId) (t i : Nat) (f : Fld) : (s.flag r t i f).slv = s.slv := rfl
@[simp] theorem State.flag_atn (r : RegId) (t i : Nat) (f : Fld) : (s.flag r t i f).atn = s.atn := rfl
@[simp] theorem State.flag_cdc (r : RegId) (t i : Nat) (f : Fld) : (s.flag r t i f).cdc = s.cdc := rfl
@[simp] theorem State.flag_fab (r : RegId) (t i : Nat) (f : Fld) : (s.flag r t i f).fab = s.fab := rfl
@[simp] theorem State.flag_red (r : RegId) (t i : Nat) (f : Fld) : (s.flag r t i f).red = s.red := rfl
@[simp] theorem State.flag_ram (r : RegId) (t i : Nat) (f : Fld) : (s.flag r t i f).ram = s.ram := rfl
@[simp] theorem State.flag_host (r : RegId) (t i : Nat) (f : Fld) : (s.flag r t i f).host = s.host := rfl
@[simp] theorem State.flag_cross (r : RegId) (t i : Nat) (f : Fld) : (s.flag r t i f).cross = s.cross := rfl
@[simp] theorem State.flag_pwr (r : RegId) (t i : Nat) (f : Fld) : (s.flag r t i f).pwr = s.pwr := rfl
@[simp] theorem State.flag_readData (r : RegId) (t i : Nat) (f : Fld) : (s.flag r t i f).readData = s.readData := rfl

/-! ### `count` -/

@[simp] theorem State.count_pending (r : RegId) (t i : Nat) (f : Fld) (n : Nat) : (s.count r t i f n).pending = s.pending := rfl
@[simp] theorem State.count_mem (r : RegId) (t i : Nat) (f : Fld) (n : Nat) : (s.count r t i f n).mem = s.mem := rfl
@[simp] theorem State.count_freeCtr (r : RegId) (t i : Nat) (f : Fld) (n : Nat) : (s.count r t i f n).freeCtr = s.freeCtr := rfl
@[simp] theorem State.count_refclk (r : RegId) (t i : Nat) (f : Fld) (n : Nat) : (s.count r t i f n).refclk = s.refclk := rfl
@[simp] theorem State.count_irq (r : RegId) (t i : Nat) (f : Fld) (n : Nat) : (s.count r t i f n).irq = s.irq := rfl
@[simp] theorem State.count_step (r : RegId) (t i : Nat) (f : Fld) (n : Nat) : (s.count r t i f n).step = s.step := rfl
@[simp] theorem State.count_ctx (r : RegId) (t i : Nat) (f : Fld) (n : Nat) : (s.count r t i f n).ctx = s.ctx := rfl
@[simp] theorem State.count_thr (r : RegId) (t i : Nat) (f : Fld) (n : Nat) : (s.count r t i f n).thr = s.thr := rfl
@[simp] theorem State.count_mtx (r : RegId) (t i : Nat) (f : Fld) (n : Nat) : (s.count r t i f n).mtx = s.mtx := rfl
@[simp] theorem State.count_slv (r : RegId) (t i : Nat) (f : Fld) (n : Nat) : (s.count r t i f n).slv = s.slv := rfl
@[simp] theorem State.count_atn (r : RegId) (t i : Nat) (f : Fld) (n : Nat) : (s.count r t i f n).atn = s.atn := rfl
@[simp] theorem State.count_cdc (r : RegId) (t i : Nat) (f : Fld) (n : Nat) : (s.count r t i f n).cdc = s.cdc := rfl
@[simp] theorem State.count_fab (r : RegId) (t i : Nat) (f : Fld) (n : Nat) : (s.count r t i f n).fab = s.fab := rfl
@[simp] theorem State.count_red (r : RegId) (t i : Nat) (f : Fld) (n : Nat) : (s.count r t i f n).red = s.red := rfl
@[simp] theorem State.count_ram (r : RegId) (t i : Nat) (f : Fld) (n : Nat) : (s.count r t i f n).ram = s.ram := rfl
@[simp] theorem State.count_host (r : RegId) (t i : Nat) (f : Fld) (n : Nat) : (s.count r t i f n).host = s.host := rfl
@[simp] theorem State.count_cross (r : RegId) (t i : Nat) (f : Fld) (n : Nat) : (s.count r t i f n).cross = s.cross := rfl
@[simp] theorem State.count_pwr (r : RegId) (t i : Nat) (f : Fld) (n : Nat) : (s.count r t i f n).pwr = s.pwr := rfl
@[simp] theorem State.count_readData (r : RegId) (t i : Nat) (f : Fld) (n : Nat) : (s.count r t i f n).readData = s.readData := rfl

/-! ### `setRec` -/

@[simp] theorem State.setRec_pending (k : Nat) (r : ThrRec) : (s.setRec k r).pending = s.pending := rfl
@[simp] theorem State.setRec_regs (k : Nat) (r : ThrRec) : (s.setRec k r).regs = s.regs := rfl
@[simp] theorem State.setRec_mem (k : Nat) (r : ThrRec) : (s.setRec k r).mem = s.mem := rfl
@[simp] theorem State.setRec_freeCtr (k : Nat) (r : ThrRec) : (s.setRec k r).freeCtr = s.freeCtr := rfl
@[simp] theorem State.setRec_refclk (k : Nat) (r : ThrRec) : (s.setRec k r).refclk = s.refclk := rfl
@[simp] theorem State.setRec_irq (k : Nat) (r : ThrRec) : (s.setRec k r).irq = s.irq := rfl
@[simp] theorem State.setRec_step (k : Nat) (r : ThrRec) : (s.setRec k r).step = s.step := rfl
@[simp] theorem State.setRec_ctx (k : Nat) (r : ThrRec) : (s.setRec k r).ctx = s.ctx := rfl
@[simp] theorem State.setRec_mtx (k : Nat) (r : ThrRec) : (s.setRec k r).mtx = s.mtx := rfl
@[simp] theorem State.setRec_slv (k : Nat) (r : ThrRec) : (s.setRec k r).slv = s.slv := rfl
@[simp] theorem State.setRec_atn (k : Nat) (r : ThrRec) : (s.setRec k r).atn = s.atn := rfl
@[simp] theorem State.setRec_cdc (k : Nat) (r : ThrRec) : (s.setRec k r).cdc = s.cdc := rfl
@[simp] theorem State.setRec_fab (k : Nat) (r : ThrRec) : (s.setRec k r).fab = s.fab := rfl
@[simp] theorem State.setRec_red (k : Nat) (r : ThrRec) : (s.setRec k r).red = s.red := rfl
@[simp] theorem State.setRec_ram (k : Nat) (r : ThrRec) : (s.setRec k r).ram = s.ram := rfl
@[simp] theorem State.setRec_host (k : Nat) (r : ThrRec) : (s.setRec k r).host = s.host := rfl
@[simp] theorem State.setRec_cross (k : Nat) (r : ThrRec) : (s.setRec k r).cross = s.cross := rfl
@[simp] theorem State.setRec_pwr (k : Nat) (r : ThrRec) : (s.setRec k r).pwr = s.pwr := rfl
@[simp] theorem State.setRec_readData (k : Nat) (r : ThrRec) : (s.setRec k r).readData = s.readData := rfl

/-! ### `setSeat` -/

@[simp] theorem State.setSeat_pending (k : Nat) (x : Seat) : (s.setSeat k x).pending = s.pending := rfl
@[simp] theorem State.setSeat_regs (k : Nat) (x : Seat) : (s.setSeat k x).regs = s.regs := rfl
@[simp] theorem State.setSeat_mem (k : Nat) (x : Seat) : (s.setSeat k x).mem = s.mem := rfl
@[simp] theorem State.setSeat_freeCtr (k : Nat) (x : Seat) : (s.setSeat k x).freeCtr = s.freeCtr := rfl
@[simp] theorem State.setSeat_refclk (k : Nat) (x : Seat) : (s.setSeat k x).refclk = s.refclk := rfl
@[simp] theorem State.setSeat_irq (k : Nat) (x : Seat) : (s.setSeat k x).irq = s.irq := rfl
@[simp] theorem State.setSeat_step (k : Nat) (x : Seat) : (s.setSeat k x).step = s.step := rfl
@[simp] theorem State.setSeat_ctx (k : Nat) (x : Seat) : (s.setSeat k x).ctx = s.ctx := rfl
@[simp] theorem State.setSeat_mtx (k : Nat) (x : Seat) : (s.setSeat k x).mtx = s.mtx := rfl
@[simp] theorem State.setSeat_slv (k : Nat) (x : Seat) : (s.setSeat k x).slv = s.slv := rfl
@[simp] theorem State.setSeat_atn (k : Nat) (x : Seat) : (s.setSeat k x).atn = s.atn := rfl
@[simp] theorem State.setSeat_cdc (k : Nat) (x : Seat) : (s.setSeat k x).cdc = s.cdc := rfl
@[simp] theorem State.setSeat_fab (k : Nat) (x : Seat) : (s.setSeat k x).fab = s.fab := rfl
@[simp] theorem State.setSeat_red (k : Nat) (x : Seat) : (s.setSeat k x).red = s.red := rfl
@[simp] theorem State.setSeat_ram (k : Nat) (x : Seat) : (s.setSeat k x).ram = s.ram := rfl
@[simp] theorem State.setSeat_host (k : Nat) (x : Seat) : (s.setSeat k x).host = s.host := rfl
@[simp] theorem State.setSeat_cross (k : Nat) (x : Seat) : (s.setSeat k x).cross = s.cross := rfl
@[simp] theorem State.setSeat_pwr (k : Nat) (x : Seat) : (s.setSeat k x).pwr = s.pwr := rfl
@[simp] theorem State.setSeat_readData (k : Nat) (x : Seat) : (s.setSeat k x).readData = s.readData := rfl

/-! ### `setAccs` -/

@[simp] theorem State.setAccs_pending (k : Nat) (l : List Acc) : (s.setAccs k l).pending = s.pending := rfl
@[simp] theorem State.setAccs_regs (k : Nat) (l : List Acc) : (s.setAccs k l).regs = s.regs := rfl
@[simp] theorem State.setAccs_mem (k : Nat) (l : List Acc) : (s.setAccs k l).mem = s.mem := rfl
@[simp] theorem State.setAccs_freeCtr (k : Nat) (l : List Acc) : (s.setAccs k l).freeCtr = s.freeCtr := rfl
@[simp] theorem State.setAccs_refclk (k : Nat) (l : List Acc) : (s.setAccs k l).refclk = s.refclk := rfl
@[simp] theorem State.setAccs_irq (k : Nat) (l : List Acc) : (s.setAccs k l).irq = s.irq := rfl
@[simp] theorem State.setAccs_step (k : Nat) (l : List Acc) : (s.setAccs k l).step = s.step := rfl
@[simp] theorem State.setAccs_ctx (k : Nat) (l : List Acc) : (s.setAccs k l).ctx = s.ctx := rfl
@[simp] theorem State.setAccs_mtx (k : Nat) (l : List Acc) : (s.setAccs k l).mtx = s.mtx := rfl
@[simp] theorem State.setAccs_slv (k : Nat) (l : List Acc) : (s.setAccs k l).slv = s.slv := rfl
@[simp] theorem State.setAccs_atn (k : Nat) (l : List Acc) : (s.setAccs k l).atn = s.atn := rfl
@[simp] theorem State.setAccs_cdc (k : Nat) (l : List Acc) : (s.setAccs k l).cdc = s.cdc := rfl
@[simp] theorem State.setAccs_fab (k : Nat) (l : List Acc) : (s.setAccs k l).fab = s.fab := rfl
@[simp] theorem State.setAccs_red (k : Nat) (l : List Acc) : (s.setAccs k l).red = s.red := rfl
@[simp] theorem State.setAccs_ram (k : Nat) (l : List Acc) : (s.setAccs k l).ram = s.ram := rfl
@[simp] theorem State.setAccs_host (k : Nat) (l : List Acc) : (s.setAccs k l).host = s.host := rfl
@[simp] theorem State.setAccs_cross (k : Nat) (l : List Acc) : (s.setAccs k l).cross = s.cross := rfl
@[simp] theorem State.setAccs_pwr (k : Nat) (l : List Acc) : (s.setAccs k l).pwr = s.pwr := rfl
@[simp] theorem State.setAccs_readData (k : Nat) (l : List Acc) : (s.setAccs k l).readData = s.readData := rfl

/-! ### `setQ` -/

@[simp] theorem State.setQ_pending (k : QKind) (t c : Nat) (q : QState) : (s.setQ k t c q).pending = s.pending := rfl
@[simp] theorem State.setQ_regs (k : QKind) (t c : Nat) (q : QState) : (s.setQ k t c q).regs = s.regs := rfl
@[simp] theorem State.setQ_mem (k : QKind) (t c : Nat) (q : QState) : (s.setQ k t c q).mem = s.mem := rfl
@[simp] theorem State.setQ_freeCtr (k : QKind) (t c : Nat) (q : QState) : (s.setQ k t c q).freeCtr = s.freeCtr := rfl
@[simp] theorem State.setQ_refclk (k : QKind) (t c : Nat) (q : QState) : (s.setQ k t c q).refclk = s.refclk := rfl
@[simp] theorem State.setQ_irq (k : QKind) (t c : Nat) (q : QState) : (s.setQ k t c q).irq = s.irq := rfl
@[simp] theorem State.setQ_step (k : QKind) (t c : Nat) (q : QState) : (s.setQ k t c q).step = s.step := rfl
@[simp] theorem State.setQ_ctx (k : QKind) (t c : Nat) (q : QState) : (s.setQ k t c q).ctx = s.ctx := rfl
@[simp] theorem State.setQ_thr (k : QKind) (t c : Nat) (q : QState) : (s.setQ k t c q).thr = s.thr := rfl
@[simp] theorem State.setQ_slv (k : QKind) (t c : Nat) (q : QState) : (s.setQ k t c q).slv = s.slv := rfl
@[simp] theorem State.setQ_atn (k : QKind) (t c : Nat) (q : QState) : (s.setQ k t c q).atn = s.atn := rfl
@[simp] theorem State.setQ_cdc (k : QKind) (t c : Nat) (q : QState) : (s.setQ k t c q).cdc = s.cdc := rfl
@[simp] theorem State.setQ_fab (k : QKind) (t c : Nat) (q : QState) : (s.setQ k t c q).fab = s.fab := rfl
@[simp] theorem State.setQ_red (k : QKind) (t c : Nat) (q : QState) : (s.setQ k t c q).red = s.red := rfl
@[simp] theorem State.setQ_ram (k : QKind) (t c : Nat) (q : QState) : (s.setQ k t c q).ram = s.ram := rfl
@[simp] theorem State.setQ_host (k : QKind) (t c : Nat) (q : QState) : (s.setQ k t c q).host = s.host := rfl
@[simp] theorem State.setQ_cross (k : QKind) (t c : Nat) (q : QState) : (s.setQ k t c q).cross = s.cross := rfl
@[simp] theorem State.setQ_pwr (k : QKind) (t c : Nat) (q : QState) : (s.setQ k t c q).pwr = s.pwr := rfl
@[simp] theorem State.setQ_readData (k : QKind) (t c : Nat) (q : QState) : (s.setQ k t c q).readData = s.readData := rfl

/-! ### `setJob` -/

@[simp] theorem State.setJob_pending (n : Nat) (j : MtxJob) : (s.setJob n j).pending = s.pending := rfl
@[simp] theorem State.setJob_regs (n : Nat) (j : MtxJob) : (s.setJob n j).regs = s.regs := rfl
@[simp] theorem State.setJob_mem (n : Nat) (j : MtxJob) : (s.setJob n j).mem = s.mem := rfl
@[simp] theorem State.setJob_freeCtr (n : Nat) (j : MtxJob) : (s.setJob n j).freeCtr = s.freeCtr := rfl
@[simp] theorem State.setJob_refclk (n : Nat) (j : MtxJob) : (s.setJob n j).refclk = s.refclk := rfl
@[simp] theorem State.setJob_irq (n : Nat) (j : MtxJob) : (s.setJob n j).irq = s.irq := rfl
@[simp] theorem State.setJob_step (n : Nat) (j : MtxJob) : (s.setJob n j).step = s.step := rfl
@[simp] theorem State.setJob_ctx (n : Nat) (j : MtxJob) : (s.setJob n j).ctx = s.ctx := rfl
@[simp] theorem State.setJob_thr (n : Nat) (j : MtxJob) : (s.setJob n j).thr = s.thr := rfl
@[simp] theorem State.setJob_slv (n : Nat) (j : MtxJob) : (s.setJob n j).slv = s.slv := rfl
@[simp] theorem State.setJob_atn (n : Nat) (j : MtxJob) : (s.setJob n j).atn = s.atn := rfl
@[simp] theorem State.setJob_cdc (n : Nat) (j : MtxJob) : (s.setJob n j).cdc = s.cdc := rfl
@[simp] theorem State.setJob_fab (n : Nat) (j : MtxJob) : (s.setJob n j).fab = s.fab := rfl
@[simp] theorem State.setJob_red (n : Nat) (j : MtxJob) : (s.setJob n j).red = s.red := rfl
@[simp] theorem State.setJob_ram (n : Nat) (j : MtxJob) : (s.setJob n j).ram = s.ram := rfl
@[simp] theorem State.setJob_host (n : Nat) (j : MtxJob) : (s.setJob n j).host = s.host := rfl
@[simp] theorem State.setJob_cross (n : Nat) (j : MtxJob) : (s.setJob n j).cross = s.cross := rfl
@[simp] theorem State.setJob_pwr (n : Nat) (j : MtxJob) : (s.setJob n j).pwr = s.pwr := rfl
@[simp] theorem State.setJob_readData (n : Nat) (j : MtxJob) : (s.setJob n j).readData = s.readData := rfl

/-! ### `setSlot` -/

@[simp] theorem State.setSlot_pending (t p : Nat) (x : SlotSt) : (s.setSlot t p x).pending = s.pending := rfl
@[simp] theorem State.setSlot_regs (t p : Nat) (x : SlotSt) : (s.setSlot t p x).regs = s.regs := rfl
@[simp] theorem State.setSlot_mem (t p : Nat) (x : SlotSt) : (s.setSlot t p x).mem = s.mem := rfl
@[simp] theorem State.setSlot_freeCtr (t p : Nat) (x : SlotSt) : (s.setSlot t p x).freeCtr = s.freeCtr := rfl
@[simp] theorem State.setSlot_refclk (t p : Nat) (x : SlotSt) : (s.setSlot t p x).refclk = s.refclk := rfl
@[simp] theorem State.setSlot_irq (t p : Nat) (x : SlotSt) : (s.setSlot t p x).irq = s.irq := rfl
@[simp] theorem State.setSlot_step (t p : Nat) (x : SlotSt) : (s.setSlot t p x).step = s.step := rfl
@[simp] theorem State.setSlot_ctx (t p : Nat) (x : SlotSt) : (s.setSlot t p x).ctx = s.ctx := rfl
@[simp] theorem State.setSlot_thr (t p : Nat) (x : SlotSt) : (s.setSlot t p x).thr = s.thr := rfl
@[simp] theorem State.setSlot_slv (t p : Nat) (x : SlotSt) : (s.setSlot t p x).slv = s.slv := rfl
@[simp] theorem State.setSlot_atn (t p : Nat) (x : SlotSt) : (s.setSlot t p x).atn = s.atn := rfl
@[simp] theorem State.setSlot_cdc (t p : Nat) (x : SlotSt) : (s.setSlot t p x).cdc = s.cdc := rfl
@[simp] theorem State.setSlot_fab (t p : Nat) (x : SlotSt) : (s.setSlot t p x).fab = s.fab := rfl
@[simp] theorem State.setSlot_red (t p : Nat) (x : SlotSt) : (s.setSlot t p x).red = s.red := rfl
@[simp] theorem State.setSlot_ram (t p : Nat) (x : SlotSt) : (s.setSlot t p x).ram = s.ram := rfl
@[simp] theorem State.setSlot_host (t p : Nat) (x : SlotSt) : (s.setSlot t p x).host = s.host := rfl
@[simp] theorem State.setSlot_cross (t p : Nat) (x : SlotSt) : (s.setSlot t p x).cross = s.cross := rfl
@[simp] theorem State.setSlot_pwr (t p : Nat) (x : SlotSt) : (s.setSlot t p x).pwr = s.pwr := rfl
@[simp] theorem State.setSlot_readData (t p : Nat) (x : SlotSt) : (s.setSlot t p x).readData = s.readData := rfl

/-! ### `setSlvJob` -/

@[simp] theorem State.setSlvJob_pending (n : Nat) (j : SlvJob) : (s.setSlvJob n j).pending = s.pending := rfl
@[simp] theorem State.setSlvJob_regs (n : Nat) (j : SlvJob) : (s.setSlvJob n j).regs = s.regs := rfl
@[simp] theorem State.setSlvJob_mem (n : Nat) (j : SlvJob) : (s.setSlvJob n j).mem = s.mem := rfl
@[simp] theorem State.setSlvJob_freeCtr (n : Nat) (j : SlvJob) : (s.setSlvJob n j).freeCtr = s.freeCtr := rfl
@[simp] theorem State.setSlvJob_refclk (n : Nat) (j : SlvJob) : (s.setSlvJob n j).refclk = s.refclk := rfl
@[simp] theorem State.setSlvJob_irq (n : Nat) (j : SlvJob) : (s.setSlvJob n j).irq = s.irq := rfl
@[simp] theorem State.setSlvJob_step (n : Nat) (j : SlvJob) : (s.setSlvJob n j).step = s.step := rfl
@[simp] theorem State.setSlvJob_ctx (n : Nat) (j : SlvJob) : (s.setSlvJob n j).ctx = s.ctx := rfl
@[simp] theorem State.setSlvJob_thr (n : Nat) (j : SlvJob) : (s.setSlvJob n j).thr = s.thr := rfl
@[simp] theorem State.setSlvJob_mtx (n : Nat) (j : SlvJob) : (s.setSlvJob n j).mtx = s.mtx := rfl
@[simp] theorem State.setSlvJob_atn (n : Nat) (j : SlvJob) : (s.setSlvJob n j).atn = s.atn := rfl
@[simp] theorem State.setSlvJob_cdc (n : Nat) (j : SlvJob) : (s.setSlvJob n j).cdc = s.cdc := rfl
@[simp] theorem State.setSlvJob_fab (n : Nat) (j : SlvJob) : (s.setSlvJob n j).fab = s.fab := rfl
@[simp] theorem State.setSlvJob_red (n : Nat) (j : SlvJob) : (s.setSlvJob n j).red = s.red := rfl
@[simp] theorem State.setSlvJob_ram (n : Nat) (j : SlvJob) : (s.setSlvJob n j).ram = s.ram := rfl
@[simp] theorem State.setSlvJob_host (n : Nat) (j : SlvJob) : (s.setSlvJob n j).host = s.host := rfl
@[simp] theorem State.setSlvJob_cross (n : Nat) (j : SlvJob) : (s.setSlvJob n j).cross = s.cross := rfl
@[simp] theorem State.setSlvJob_pwr (n : Nat) (j : SlvJob) : (s.setSlvJob n j).pwr = s.pwr := rfl
@[simp] theorem State.setSlvJob_readData (n : Nat) (j : SlvJob) : (s.setSlvJob n j).readData = s.readData := rfl

/-! ### `setCdcJob` -/

@[simp] theorem State.setCdcJob_pending (n : Nat) (j : CdcJob) : (s.setCdcJob n j).pending = s.pending := rfl
@[simp] theorem State.setCdcJob_regs (n : Nat) (j : CdcJob) : (s.setCdcJob n j).regs = s.regs := rfl
@[simp] theorem State.setCdcJob_mem (n : Nat) (j : CdcJob) : (s.setCdcJob n j).mem = s.mem := rfl
@[simp] theorem State.setCdcJob_freeCtr (n : Nat) (j : CdcJob) : (s.setCdcJob n j).freeCtr = s.freeCtr := rfl
@[simp] theorem State.setCdcJob_refclk (n : Nat) (j : CdcJob) : (s.setCdcJob n j).refclk = s.refclk := rfl
@[simp] theorem State.setCdcJob_irq (n : Nat) (j : CdcJob) : (s.setCdcJob n j).irq = s.irq := rfl
@[simp] theorem State.setCdcJob_step (n : Nat) (j : CdcJob) : (s.setCdcJob n j).step = s.step := rfl
@[simp] theorem State.setCdcJob_ctx (n : Nat) (j : CdcJob) : (s.setCdcJob n j).ctx = s.ctx := rfl
@[simp] theorem State.setCdcJob_thr (n : Nat) (j : CdcJob) : (s.setCdcJob n j).thr = s.thr := rfl
@[simp] theorem State.setCdcJob_mtx (n : Nat) (j : CdcJob) : (s.setCdcJob n j).mtx = s.mtx := rfl
@[simp] theorem State.setCdcJob_slv (n : Nat) (j : CdcJob) : (s.setCdcJob n j).slv = s.slv := rfl
@[simp] theorem State.setCdcJob_atn (n : Nat) (j : CdcJob) : (s.setCdcJob n j).atn = s.atn := rfl
@[simp] theorem State.setCdcJob_fab (n : Nat) (j : CdcJob) : (s.setCdcJob n j).fab = s.fab := rfl
@[simp] theorem State.setCdcJob_red (n : Nat) (j : CdcJob) : (s.setCdcJob n j).red = s.red := rfl
@[simp] theorem State.setCdcJob_ram (n : Nat) (j : CdcJob) : (s.setCdcJob n j).ram = s.ram := rfl
@[simp] theorem State.setCdcJob_host (n : Nat) (j : CdcJob) : (s.setCdcJob n j).host = s.host := rfl
@[simp] theorem State.setCdcJob_cross (n : Nat) (j : CdcJob) : (s.setCdcJob n j).cross = s.cross := rfl
@[simp] theorem State.setCdcJob_pwr (n : Nat) (j : CdcJob) : (s.setCdcJob n j).pwr = s.pwr := rfl
@[simp] theorem State.setCdcJob_readData (n : Nat) (j : CdcJob) : (s.setCdcJob n j).readData = s.readData := rfl

/-! ### `setDecStream` -/

@[simp] theorem State.setDecStream_pending (e : Nat) (x : DecStream) : (s.setDecStream e x).pending = s.pending := rfl
@[simp] theorem State.setDecStream_regs (e : Nat) (x : DecStream) : (s.setDecStream e x).regs = s.regs := rfl
@[simp] theorem State.setDecStream_mem (e : Nat) (x : DecStream) : (s.setDecStream e x).mem = s.mem := rfl
@[simp] theorem State.setDecStream_freeCtr (e : Nat) (x : DecStream) : (s.setDecStream e x).freeCtr = s.freeCtr := rfl
@[simp] theorem State.setDecStream_refclk (e : Nat) (x : DecStream) : (s.setDecStream e x).refclk = s.refclk := rfl
@[simp] theorem State.setDecStream_irq (e : Nat) (x : DecStream) : (s.setDecStream e x).irq = s.irq := rfl
@[simp] theorem State.setDecStream_step (e : Nat) (x : DecStream) : (s.setDecStream e x).step = s.step := rfl
@[simp] theorem State.setDecStream_ctx (e : Nat) (x : DecStream) : (s.setDecStream e x).ctx = s.ctx := rfl
@[simp] theorem State.setDecStream_thr (e : Nat) (x : DecStream) : (s.setDecStream e x).thr = s.thr := rfl
@[simp] theorem State.setDecStream_mtx (e : Nat) (x : DecStream) : (s.setDecStream e x).mtx = s.mtx := rfl
@[simp] theorem State.setDecStream_slv (e : Nat) (x : DecStream) : (s.setDecStream e x).slv = s.slv := rfl
@[simp] theorem State.setDecStream_atn (e : Nat) (x : DecStream) : (s.setDecStream e x).atn = s.atn := rfl
@[simp] theorem State.setDecStream_fab (e : Nat) (x : DecStream) : (s.setDecStream e x).fab = s.fab := rfl
@[simp] theorem State.setDecStream_red (e : Nat) (x : DecStream) : (s.setDecStream e x).red = s.red := rfl
@[simp] theorem State.setDecStream_ram (e : Nat) (x : DecStream) : (s.setDecStream e x).ram = s.ram := rfl
@[simp] theorem State.setDecStream_host (e : Nat) (x : DecStream) : (s.setDecStream e x).host = s.host := rfl
@[simp] theorem State.setDecStream_cross (e : Nat) (x : DecStream) : (s.setDecStream e x).cross = s.cross := rfl
@[simp] theorem State.setDecStream_pwr (e : Nat) (x : DecStream) : (s.setDecStream e x).pwr = s.pwr := rfl
@[simp] theorem State.setDecStream_readData (e : Nat) (x : DecStream) : (s.setDecStream e x).readData = s.readData := rfl

/-! ### `setEncStream` -/

@[simp] theorem State.setEncStream_pending (e : Nat) (x : EncStream) : (s.setEncStream e x).pending = s.pending := rfl
@[simp] theorem State.setEncStream_regs (e : Nat) (x : EncStream) : (s.setEncStream e x).regs = s.regs := rfl
@[simp] theorem State.setEncStream_mem (e : Nat) (x : EncStream) : (s.setEncStream e x).mem = s.mem := rfl
@[simp] theorem State.setEncStream_freeCtr (e : Nat) (x : EncStream) : (s.setEncStream e x).freeCtr = s.freeCtr := rfl
@[simp] theorem State.setEncStream_refclk (e : Nat) (x : EncStream) : (s.setEncStream e x).refclk = s.refclk := rfl
@[simp] theorem State.setEncStream_irq (e : Nat) (x : EncStream) : (s.setEncStream e x).irq = s.irq := rfl
@[simp] theorem State.setEncStream_step (e : Nat) (x : EncStream) : (s.setEncStream e x).step = s.step := rfl
@[simp] theorem State.setEncStream_ctx (e : Nat) (x : EncStream) : (s.setEncStream e x).ctx = s.ctx := rfl
@[simp] theorem State.setEncStream_thr (e : Nat) (x : EncStream) : (s.setEncStream e x).thr = s.thr := rfl
@[simp] theorem State.setEncStream_mtx (e : Nat) (x : EncStream) : (s.setEncStream e x).mtx = s.mtx := rfl
@[simp] theorem State.setEncStream_slv (e : Nat) (x : EncStream) : (s.setEncStream e x).slv = s.slv := rfl
@[simp] theorem State.setEncStream_atn (e : Nat) (x : EncStream) : (s.setEncStream e x).atn = s.atn := rfl
@[simp] theorem State.setEncStream_fab (e : Nat) (x : EncStream) : (s.setEncStream e x).fab = s.fab := rfl
@[simp] theorem State.setEncStream_red (e : Nat) (x : EncStream) : (s.setEncStream e x).red = s.red := rfl
@[simp] theorem State.setEncStream_ram (e : Nat) (x : EncStream) : (s.setEncStream e x).ram = s.ram := rfl
@[simp] theorem State.setEncStream_host (e : Nat) (x : EncStream) : (s.setEncStream e x).host = s.host := rfl
@[simp] theorem State.setEncStream_cross (e : Nat) (x : EncStream) : (s.setEncStream e x).cross = s.cross := rfl
@[simp] theorem State.setEncStream_pwr (e : Nat) (x : EncStream) : (s.setEncStream e x).pwr = s.pwr := rfl
@[simp] theorem State.setEncStream_readData (e : Nat) (x : EncStream) : (s.setEncStream e x).readData = s.readData := rfl

/-! ### `setPort` -/

@[simp] theorem State.setPort_pending (p : Nat) (x : Port) : (s.setPort p x).pending = s.pending := rfl
@[simp] theorem State.setPort_regs (p : Nat) (x : Port) : (s.setPort p x).regs = s.regs := rfl
@[simp] theorem State.setPort_mem (p : Nat) (x : Port) : (s.setPort p x).mem = s.mem := rfl
@[simp] theorem State.setPort_freeCtr (p : Nat) (x : Port) : (s.setPort p x).freeCtr = s.freeCtr := rfl
@[simp] theorem State.setPort_refclk (p : Nat) (x : Port) : (s.setPort p x).refclk = s.refclk := rfl
@[simp] theorem State.setPort_irq (p : Nat) (x : Port) : (s.setPort p x).irq = s.irq := rfl
@[simp] theorem State.setPort_step (p : Nat) (x : Port) : (s.setPort p x).step = s.step := rfl
@[simp] theorem State.setPort_ctx (p : Nat) (x : Port) : (s.setPort p x).ctx = s.ctx := rfl
@[simp] theorem State.setPort_thr (p : Nat) (x : Port) : (s.setPort p x).thr = s.thr := rfl
@[simp] theorem State.setPort_mtx (p : Nat) (x : Port) : (s.setPort p x).mtx = s.mtx := rfl
@[simp] theorem State.setPort_slv (p : Nat) (x : Port) : (s.setPort p x).slv = s.slv := rfl
@[simp] theorem State.setPort_atn (p : Nat) (x : Port) : (s.setPort p x).atn = s.atn := rfl
@[simp] theorem State.setPort_cdc (p : Nat) (x : Port) : (s.setPort p x).cdc = s.cdc := rfl
@[simp] theorem State.setPort_red (p : Nat) (x : Port) : (s.setPort p x).red = s.red := rfl
@[simp] theorem State.setPort_ram (p : Nat) (x : Port) : (s.setPort p x).ram = s.ram := rfl
@[simp] theorem State.setPort_host (p : Nat) (x : Port) : (s.setPort p x).host = s.host := rfl
@[simp] theorem State.setPort_cross (p : Nat) (x : Port) : (s.setPort p x).cross = s.cross := rfl
@[simp] theorem State.setPort_pwr (p : Nat) (x : Port) : (s.setPort p x).pwr = s.pwr := rfl
@[simp] theorem State.setPort_readData (p : Nat) (x : Port) : (s.setPort p x).readData = s.readData := rfl

/-! ### `wake` -/

@[simp] theorem State.wake_pending (k : Nat) (v : DWord) : (s.wake k v).pending = s.pending := rfl
@[simp] theorem State.wake_regs (k : Nat) (v : DWord) : (s.wake k v).regs = s.regs := rfl
@[simp] theorem State.wake_mem (k : Nat) (v : DWord) : (s.wake k v).mem = s.mem := rfl
@[simp] theorem State.wake_freeCtr (k : Nat) (v : DWord) : (s.wake k v).freeCtr = s.freeCtr := rfl
@[simp] theorem State.wake_refclk (k : Nat) (v : DWord) : (s.wake k v).refclk = s.refclk := rfl
@[simp] theorem State.wake_irq (k : Nat) (v : DWord) : (s.wake k v).irq = s.irq := rfl
@[simp] theorem State.wake_step (k : Nat) (v : DWord) : (s.wake k v).step = s.step := rfl
@[simp] theorem State.wake_ctx (k : Nat) (v : DWord) : (s.wake k v).ctx = s.ctx := rfl
@[simp] theorem State.wake_mtx (k : Nat) (v : DWord) : (s.wake k v).mtx = s.mtx := rfl
@[simp] theorem State.wake_slv (k : Nat) (v : DWord) : (s.wake k v).slv = s.slv := rfl
@[simp] theorem State.wake_atn (k : Nat) (v : DWord) : (s.wake k v).atn = s.atn := rfl
@[simp] theorem State.wake_cdc (k : Nat) (v : DWord) : (s.wake k v).cdc = s.cdc := rfl
@[simp] theorem State.wake_fab (k : Nat) (v : DWord) : (s.wake k v).fab = s.fab := rfl
@[simp] theorem State.wake_red (k : Nat) (v : DWord) : (s.wake k v).red = s.red := rfl
@[simp] theorem State.wake_ram (k : Nat) (v : DWord) : (s.wake k v).ram = s.ram := rfl
@[simp] theorem State.wake_host (k : Nat) (v : DWord) : (s.wake k v).host = s.host := rfl
@[simp] theorem State.wake_cross (k : Nat) (v : DWord) : (s.wake k v).cross = s.cross := rfl
@[simp] theorem State.wake_pwr (k : Nat) (v : DWord) : (s.wake k v).pwr = s.pwr := rfl
@[simp] theorem State.wake_readData (k : Nat) (v : DWord) : (s.wake k v).readData = s.readData := rfl

/-! ### `complete` -/

@[simp] theorem State.complete_pending (n : Nat) : (s.complete n).pending = s.pending := rfl
@[simp] theorem State.complete_regs (n : Nat) : (s.complete n).regs = s.regs := rfl
@[simp] theorem State.complete_mem (n : Nat) : (s.complete n).mem = s.mem := rfl
@[simp] theorem State.complete_freeCtr (n : Nat) : (s.complete n).freeCtr = s.freeCtr := rfl
@[simp] theorem State.complete_refclk (n : Nat) : (s.complete n).refclk = s.refclk := rfl
@[simp] theorem State.complete_step (n : Nat) : (s.complete n).step = s.step := rfl
@[simp] theorem State.complete_ctx (n : Nat) : (s.complete n).ctx = s.ctx := rfl
@[simp] theorem State.complete_thr (n : Nat) : (s.complete n).thr = s.thr := rfl
@[simp] theorem State.complete_mtx (n : Nat) : (s.complete n).mtx = s.mtx := rfl
@[simp] theorem State.complete_slv (n : Nat) : (s.complete n).slv = s.slv := rfl
@[simp] theorem State.complete_atn (n : Nat) : (s.complete n).atn = s.atn := rfl
@[simp] theorem State.complete_cdc (n : Nat) : (s.complete n).cdc = s.cdc := rfl
@[simp] theorem State.complete_fab (n : Nat) : (s.complete n).fab = s.fab := rfl
@[simp] theorem State.complete_red (n : Nat) : (s.complete n).red = s.red := rfl
@[simp] theorem State.complete_ram (n : Nat) : (s.complete n).ram = s.ram := rfl
@[simp] theorem State.complete_host (n : Nat) : (s.complete n).host = s.host := rfl
@[simp] theorem State.complete_cross (n : Nat) : (s.complete n).cross = s.cross := rfl
@[simp] theorem State.complete_pwr (n : Nat) : (s.complete n).pwr = s.pwr := rfl
@[simp] theorem State.complete_readData (n : Nat) : (s.complete n).readData = s.readData := rfl

/-! ### `putByte` -/

@[simp] theorem State.putByte_pending (a : Nat) (b : Byte) : (s.putByte a b).pending = s.pending := rfl
@[simp] theorem State.putByte_regs (a : Nat) (b : Byte) : (s.putByte a b).regs = s.regs := rfl
@[simp] theorem State.putByte_freeCtr (a : Nat) (b : Byte) : (s.putByte a b).freeCtr = s.freeCtr := rfl
@[simp] theorem State.putByte_refclk (a : Nat) (b : Byte) : (s.putByte a b).refclk = s.refclk := rfl
@[simp] theorem State.putByte_irq (a : Nat) (b : Byte) : (s.putByte a b).irq = s.irq := rfl
@[simp] theorem State.putByte_step (a : Nat) (b : Byte) : (s.putByte a b).step = s.step := rfl
@[simp] theorem State.putByte_ctx (a : Nat) (b : Byte) : (s.putByte a b).ctx = s.ctx := rfl
@[simp] theorem State.putByte_thr (a : Nat) (b : Byte) : (s.putByte a b).thr = s.thr := rfl
@[simp] theorem State.putByte_mtx (a : Nat) (b : Byte) : (s.putByte a b).mtx = s.mtx := rfl
@[simp] theorem State.putByte_slv (a : Nat) (b : Byte) : (s.putByte a b).slv = s.slv := rfl
@[simp] theorem State.putByte_atn (a : Nat) (b : Byte) : (s.putByte a b).atn = s.atn := rfl
@[simp] theorem State.putByte_cdc (a : Nat) (b : Byte) : (s.putByte a b).cdc = s.cdc := rfl
@[simp] theorem State.putByte_fab (a : Nat) (b : Byte) : (s.putByte a b).fab = s.fab := rfl
@[simp] theorem State.putByte_red (a : Nat) (b : Byte) : (s.putByte a b).red = s.red := rfl
@[simp] theorem State.putByte_host (a : Nat) (b : Byte) : (s.putByte a b).host = s.host := rfl
@[simp] theorem State.putByte_cross (a : Nat) (b : Byte) : (s.putByte a b).cross = s.cross := rfl
@[simp] theorem State.putByte_pwr (a : Nat) (b : Byte) : (s.putByte a b).pwr = s.pwr := rfl
@[simp] theorem State.putByte_readData (a : Nat) (b : Byte) : (s.putByte a b).readData = s.readData := rfl

/-! ### `clearRange` -/

@[simp] theorem State.clearRange_pending (a n : Nat) : (s.clearRange a n).pending = s.pending := rfl
@[simp] theorem State.clearRange_regs (a n : Nat) : (s.clearRange a n).regs = s.regs := rfl
@[simp] theorem State.clearRange_freeCtr (a n : Nat) : (s.clearRange a n).freeCtr = s.freeCtr := rfl
@[simp] theorem State.clearRange_refclk (a n : Nat) : (s.clearRange a n).refclk = s.refclk := rfl
@[simp] theorem State.clearRange_irq (a n : Nat) : (s.clearRange a n).irq = s.irq := rfl
@[simp] theorem State.clearRange_step (a n : Nat) : (s.clearRange a n).step = s.step := rfl
@[simp] theorem State.clearRange_ctx (a n : Nat) : (s.clearRange a n).ctx = s.ctx := rfl
@[simp] theorem State.clearRange_thr (a n : Nat) : (s.clearRange a n).thr = s.thr := rfl
@[simp] theorem State.clearRange_mtx (a n : Nat) : (s.clearRange a n).mtx = s.mtx := rfl
@[simp] theorem State.clearRange_slv (a n : Nat) : (s.clearRange a n).slv = s.slv := rfl
@[simp] theorem State.clearRange_atn (a n : Nat) : (s.clearRange a n).atn = s.atn := rfl
@[simp] theorem State.clearRange_cdc (a n : Nat) : (s.clearRange a n).cdc = s.cdc := rfl
@[simp] theorem State.clearRange_fab (a n : Nat) : (s.clearRange a n).fab = s.fab := rfl
@[simp] theorem State.clearRange_red (a n : Nat) : (s.clearRange a n).red = s.red := rfl
@[simp] theorem State.clearRange_host (a n : Nat) : (s.clearRange a n).host = s.host := rfl
@[simp] theorem State.clearRange_cross (a n : Nat) : (s.clearRange a n).cross = s.cross := rfl
@[simp] theorem State.clearRange_pwr (a n : Nat) : (s.clearRange a n).pwr = s.pwr := rfl
@[simp] theorem State.clearRange_readData (a n : Nat) : (s.clearRange a n).readData = s.readData := rfl

/-! ### A free value -/

@[simp] theorem State.free_pending : s.free.2.pending = s.pending := rfl
@[simp] theorem State.free_regs : s.free.2.regs = s.regs := rfl
@[simp] theorem State.free_mem : s.free.2.mem = s.mem := rfl
@[simp] theorem State.free_refclk : s.free.2.refclk = s.refclk := rfl
@[simp] theorem State.free_irq : s.free.2.irq = s.irq := rfl
@[simp] theorem State.free_step : s.free.2.step = s.step := rfl
@[simp] theorem State.free_ctx : s.free.2.ctx = s.ctx := rfl
@[simp] theorem State.free_thr : s.free.2.thr = s.thr := rfl
@[simp] theorem State.free_mtx : s.free.2.mtx = s.mtx := rfl
@[simp] theorem State.free_slv : s.free.2.slv = s.slv := rfl
@[simp] theorem State.free_atn : s.free.2.atn = s.atn := rfl
@[simp] theorem State.free_cdc : s.free.2.cdc = s.cdc := rfl
@[simp] theorem State.free_fab : s.free.2.fab = s.fab := rfl
@[simp] theorem State.free_red : s.free.2.red = s.red := rfl
@[simp] theorem State.free_ram : s.free.2.ram = s.ram := rfl
@[simp] theorem State.free_host : s.free.2.host = s.host := rfl
@[simp] theorem State.free_cross : s.free.2.cross = s.cross := rfl
@[simp] theorem State.free_pwr : s.free.2.pwr = s.pwr := rfl
@[simp] theorem State.free_readData : s.free.2.readData = s.readData := rfl
@[simp] theorem State.free_freeCtr : s.free.2.freeCtr = s.freeCtr + 1 := rfl


end Sys2Proof.Machine
end

