-- ==== Sys2Proof/Laws/Registers.lean ====
section
/-! SUPPORT. Laws of the registers: a read after a write, and fields within a word. -/

namespace Sys2Proof.Machine

theorem regId_of_ctorIdx {r q : RegId} (h : r.ctorIdx = q.ctorIdx) : r = q := by
  rw [← RegId.ofNat_ctorIdx r, h, RegId.ofNat_ctorIdx]

/-- A register's key names its register, tower and repeat. -/
theorem regKey_inj {r q : RegId} {t u i j : Nat} (ht : t < 8) (hu : u < 8) (hi : i < 1024) (hj : j < 1024)
    (h : regKey r t i = regKey q u j) : r = q ∧ t = u ∧ i = j := by
  simp only [regKey] at h
  have h1 : r.ctorIdx = q.ctorIdx := by omega
  exact ⟨regId_of_ctorIdx h1, by omega, by omega⟩

variable (s : State)

/-- A register reads as what was written to it. -/
@[simp] theorem State.reg_setReg (r : RegId) (t i : Nat) (w : Word) : (s.setReg r t i w).reg r t i = w :=
  sparseGet_put_same s.regs (regReset r t) (regKey r t i) w

/-- A write to one key leaves the register of another key alone. -/
theorem State.reg_setReg_key (r q : RegId) (t u i j : Nat) (w : Word) (h : regKey q u j ≠ regKey r t i) :
    (s.setReg r t i w).reg q u j = s.reg q u j :=
  sparseGet_put_ne s.regs (regReset q u) (regReset r t) w h

/-- A write to one register leaves every other register alone. -/
theorem State.reg_setReg_ne {r q : RegId} {t u i j : Nat} (ht : t < 8) (hu : u < 8) (hi : i < 1024) (hj : j < 1024)
    (w : Word) (h : ¬(q = r ∧ u = t ∧ j = i)) : (s.setReg r t i w).reg q u j = s.reg q u j :=
  s.reg_setReg_key r q t u i j w fun e => h (regKey_inj hu ht hj hi e)

theorem State.reg_setFld (r : RegId) (t i : Nat) (f : Fld) (v : Nat) :
    (s.setFld r t i f v).reg r t i = setFldOf (s.reg r t i) f v := s.reg_setReg r t i _

theorem State.reg_setFld_ne {r q : RegId} {t u i j : Nat} (ht : t < 8) (hu : u < 8) (hi : i < 1024) (hj : j < 1024)
    (f : Fld) (v : Nat) (h : ¬(q = r ∧ u = t ∧ j = i)) : (s.setFld r t i f v).reg q u j = s.reg q u j :=
  s.reg_setReg_ne ht hu hi hj _ h

theorem Fld.mask_getLsbD (f : Fld) (k : Nat) (h : k < 32) :
    f.mask.getLsbD k = (decide (f.lo ≤ k) && decide (k < f.lo + f.width)) := by
  simp only [Fld.mask, BitVec.getLsbD_ofNat, h, decide_true, Bool.true_and, Nat.testBit_mul_two_pow, Nat.testBit_two_pow_sub_one]
  by_cases h1 : f.lo ≤ k <;> simp [h1]
  omega

/-- Bit `k` of a word with a field set. -/
theorem setFldOf_getLsbD (w : Word) (f : Fld) (v k : Nat) (h : k < 32) :
    (setFldOf w f v).getLsbD k
      = if f.lo ≤ k ∧ k < f.lo + f.width then v.testBit (k - f.lo) else w.getLsbD k := by
  simp only [setFldOf, BitVec.getLsbD_or, BitVec.getLsbD_and, BitVec.getLsbD_not, Fld.mask_getLsbD f k h, h, decide_true,
    Bool.true_and, BitVec.getLsbD_ofNat, Nat.testBit_mul_two_pow, Nat.testBit_mod_two_pow]
  by_cases h1 : f.lo ≤ k <;> by_cases h2 : k < f.lo + f.width <;> simp [h1, h2]
  · intro h3; omega
  · intro h3; omega

/-- Bit `k` of a field. -/
theorem fldOf_testBit (w : Word) (f : Fld) (k : Nat) :
    (fldOf w f).testBit k = (decide (k < f.width) && w.getLsbD (f.lo + k)) := by
  simp [fldOf, Nat.testBit_mod_two_pow, Nat.testBit_div_two_pow, BitVec.getLsbD, Nat.add_comm]

/-- A field reads as what was written to it, cut to its width. -/
theorem fldOf_setFldOf (w : Word) (f : Fld) (v : Nat) (h : f.lo + f.width ≤ 32) :
    fldOf (setFldOf w f v) f = v % 2 ^ f.width := by
  apply Nat.eq_of_testBit_eq
  intro k
  rw [fldOf_testBit, Nat.testBit_mod_two_pow]
  by_cases hk : k < f.width
  · rw [setFldOf_getLsbD _ _ _ _ (by omega)]
    simp [hk]
  · simp [hk]

/-- A field that shares no bit with the one written keeps its value. -/
theorem fldOf_setFldOf_ne (w : Word) (f g : Fld) (v : Nat) (hg : g.lo + g.width ≤ 32)
    (h : g.lo + g.width ≤ f.lo ∨ f.lo + f.width ≤ g.lo) : fldOf (setFldOf w f v) g = fldOf w g := by
  apply Nat.eq_of_testBit_eq
  intro k
  rw [fldOf_testBit, fldOf_testBit]
  by_cases hk : k < g.width
  · rw [setFldOf_getLsbD _ _ _ _ (by omega), if_neg (by omega)]
  · simp [hk]

theorem State.fld_setFld (r : RegId) (t i : Nat) (f : Fld) (v : Nat) (h : f.lo + f.width ≤ 32) :
    (s.setFld r t i f v).fld r t i f = v % 2 ^ f.width := by
  simp only [State.fld, State.reg_setFld, fldOf_setFldOf _ _ _ h]

theorem State.fld_setFld_ne (r : RegId) (t i : Nat) (f g : Fld) (v : Nat) (hg : g.lo + g.width ≤ 32)
    (h : g.lo + g.width ≤ f.lo ∨ f.lo + f.width ≤ g.lo) : (s.setFld r t i f v).fld r t i g = s.fld r t i g := by
  simp only [State.fld, State.reg_setFld, fldOf_setFldOf_ne _ _ _ _ hg h]

/-- A flag that is set reads as 1. -/
theorem State.bit_flag (r : RegId) (t i : Nat) (f : Fld) (h : f.lo + f.width ≤ 32) (hw : f.width ≠ 0) :
    (s.flag r t i f).bit r t i f = true := by
  simp only [State.flag, State.bit, State.fld_setFld _ _ _ _ _ _ h, beq_iff_eq]
  exact Nat.mod_eq_of_lt (Nat.one_lt_two_pow hw)

end Sys2Proof.Machine
end

