-- ==== Sys2Proof/Laws/Memory.lean ====
section
/-! SUPPORT. Laws of memory: every operation keeps the canonical form, a read after a write, and what a store leaves alone. -/

namespace Sys2Proof.Machine

variable (s : State)

/-! ### The canonical form -/

theorem keysAbove_filter {j : Nat} {m : List Host.Cell} {dflt : Nat → Byte} (p : Host.Cell → Bool)
    (hm : sparseWf dflt m = true) (h : keysAbove j m = true) : keysAbove j (m.filter p) = true := by
  induction m with
  | nil => rfl
  | cons c rest ih =>
    obtain ⟨i, v⟩ := c
    simp only [sparseWf, Bool.and_eq_true] at hm
    simp only [List.filter_cons]
    split
    · exact h
    · refine ih hm.2 (keysAbove_mono ?_ hm.1.1)
      simp only [keysAbove, decide_eq_true_eq] at h; omega

theorem sparseWf_filter {m : List Host.Cell} {dflt : Nat → Byte} (p : Host.Cell → Bool) (hm : sparseWf dflt m = true) :
    sparseWf dflt (m.filter p) = true := by
  induction m with
  | nil => rfl
  | cons c rest ih =>
    obtain ⟨i, v⟩ := c
    have h := hm
    simp only [sparseWf, Bool.and_eq_true] at h
    simp only [List.filter_cons]
    split
    · simp only [sparseWf, Bool.and_eq_true]
      exact ⟨⟨keysAbove_filter p h.2 h.1.1, h.1.2⟩, ih h.2⟩
    · exact ih h.2

/-- Writing a byte keeps the canonical form. -/
theorem State.putByte_wf (a : Nat) (b : Byte) (h : Memory.wf s.mem = true) : Memory.wf (s.putByte a b).mem = true :=
  sparsePut_wf a b h

/-- Clearing a range keeps the canonical form. -/
theorem State.clearRange_wf (a n : Nat) (h : Memory.wf s.mem = true) : Memory.wf (s.clearRange a n).mem = true :=
  sparseWf_filter _ h

/-- Making a range undefined keeps the canonical form. -/
theorem State.spoil_wf (a n : Nat) (h : Memory.wf s.mem = true) : Memory.wf (s.spoil a n).mem = true := by
  simp only [State.spoil]
  split
  · exact h
  · exact s.clearRange_wf a n h

/-- Writing bytes keeps the canonical form. -/
theorem State.putBytes_wf (a : Nat) (bs : List Byte) (h : Memory.wf s.mem = true) :
    Memory.wf (s.putBytes a bs).mem = true := by
  induction bs generalizing s a with
  | nil => exact h
  | cons b rest ih => exact ih _ _ (s.putByte_wf a b h)

/-- `each` keeps what every step of it keeps. -/
theorem State.each_induct {α : Type} {P : State → Prop} (l : List α) (f : State → α → State)
    (hf : ∀ s x, P s → P (f s x)) (h : P s) : P (s.each l f) := by
  simp only [State.each]
  induction l generalizing s with
  | nil => exact h
  | cons x rest ih => exact ih _ (hf s x h)

@[simp] theorem State.clearBad_mem (a n : Nat) : (s.clearBad a n).mem = s.mem := by
  simp only [State.clearBad]; split <;> rfl

@[simp] theorem State.watchMatch_mem (a n : Nat) : (s.watchMatch a n).mem = s.mem := by
  simp only [State.watchMatch]
  split
  · exact s.each_induct (P := fun t => t.mem = s.mem) _ _ (fun t x h => by simp [h]) rfl
  · rfl

/-- A store keeps the canonical form. -/
theorem State.store_wf (a : Nat) (bs : List Byte) (h : Memory.wf s.mem = true) : Memory.wf (s.store a bs).mem = true := by
  simpa [State.store] using s.putBytes_wf a bs h

/-- A merged access of bits keeps the canonical form. -/
theorem State.mergeBits_wf (a sh n v : Nat) (h : Memory.wf s.mem = true) : Memory.wf (s.mergeBits a sh n v).mem = true :=
  s.store_wf _ _ h

/-! ### What a write leaves alone -/

theorem undef_carve (l : List (Nat × Nat × Nat)) (a n b : Nat) (h : b < a ∨ a + n ≤ b) :
    ((carve l a n).find? fun u => decide (u.1 ≤ b) && decide (b < u.1 + u.2.1)).map (·.2.2)
      = (l.find? fun u => decide (u.1 ≤ b) && decide (b < u.1 + u.2.1)).map (·.2.2) := by
  induction l with
  | nil => rfl
  | cons u rest ih =>
    obtain ⟨x, m, k⟩ := u
    have e : carve ((x, m, k) :: rest) a n
        = (if a + n ≤ x ∨ x + m ≤ a then [(x, m, k)]
           else (if x < a then [(x, a - x, k)] else []) ++ (if a + n < x + m then [(a + n, x + m - (a + n), k)] else []))
          ++ carve rest a n := by
      simp [carve, List.flatMap_cons]
    rw [e, List.find?_append, List.find?_cons]
    by_cases hb : x ≤ b ∧ b < x + m
    · simp only [hb.1, hb.2, decide_true, Bool.and_self, Option.map_some]
      split
      · simp [hb.1, hb.2]
      · rename_i hx
        rcases h with h | h
        · have h1 : x < a := by omega
          simp [h1, List.find?_cons, hb.1]
          have h2 : b < x + (a - x) := by omega
          simp [h2]
        · have h1 : a + n < x + m := by omega
          by_cases h3 : x < a
          · have h4 : ¬ b < x + (a - x) := by omega
            simp [h1, h3, List.find?_cons, h4]
            have h5 : b < a + n + (x + m - (a + n)) := by omega
            simp [h, h5]
          · simp [h1, h3, List.find?_cons]
            have h5 : b < a + n + (x + m - (a + n)) := by omega
            simp [h, h5]
    · have hf : (decide (x ≤ b) && decide (b < x + m)) = false := by
        simp only [Bool.and_eq_false_iff, decide_eq_false_iff_not]; omega
      simp only [hf]
      have hn : List.find? (fun u : Nat × Nat × Nat => decide (u.1 ≤ b) && decide (b < u.1 + u.2.1))
          (if a + n ≤ x ∨ x + m ≤ a then [(x, m, k)]
           else (if x < a then [(x, a - x, k)] else []) ++ (if a + n < x + m then [(a + n, x + m - (a + n), k)] else []))
          = none := by
        rw [List.find?_eq_none]
        intro v hv
        simp only [Bool.and_eq_true, decide_eq_true_eq, not_and]
        split at hv
        · simp only [List.mem_singleton] at hv; subst hv; simp only; omega
        · simp only [List.mem_append] at hv
          rcases hv with hv | hv
          · split at hv
            · simp only [List.mem_singleton] at hv; subst hv; simp only; omega
            · simp at hv
          · split at hv
            · simp only [List.mem_singleton] at hv; subst hv; simp only; omega
            · simp at hv
      rw [hn]; simpa using ih

/-- A byte write leaves every other byte's reading alone. -/
theorem State.byte_putByte_ne {a b : Nat} (v : Byte) (h : b ≠ a) : (s.putByte a v).byte b = s.byte b := by
  have hu : (s.putByte a v).undefAt b = s.undefAt b := by
    simp only [State.undefAt, State.putByte]
    exact undef_carve _ _ _ _ (by omega)
  have hm : sparseGet (s.putByte a v).mem memDefault b = sparseGet s.mem memDefault b :=
    sparseGet_put_ne s.mem memDefault memDefault v h
  simp only [State.byte, hu, hm]
  rfl

/-- A byte write outside the thread context store reads back. -/
theorem State.byte_putByte (a : Nat) (v : Byte) (h : ∀ t, regionOf a ≠ .ctxStore t) : (s.putByte a v).byte a = v := by
  have hu : (s.putByte a v).undefAt a = none := by
    simp only [State.undefAt, State.putByte, Option.map_eq_none_iff, List.find?_eq_none]
    intro u hu
    simp only [carve, List.mem_flatMap] at hu
    obtain ⟨⟨x, m, k⟩, _, hu⟩ := hu
    simp only at hu
    simp only [Bool.and_eq_true, decide_eq_true_eq, not_and]
    split at hu
    · simp only [List.mem_singleton] at hu; subst hu; simp only; rename_i hx; simp at hx; omega
    · simp only [List.mem_append] at hu
      rcases hu with hu | hu
      · split at hu
        · simp only [List.mem_singleton] at hu; subst hu; simp only; omega
        · simp at hu
      · split at hu
        · simp only [List.mem_singleton] at hu; subst hu; simp only; omega
        · simp at hu
  have hm : sparseGet (s.putByte a v).mem memDefault a = v := sparseGet_put_same s.mem memDefault a v
  unfold State.byte
  split
  · rename_i t ht; exact absurd ht (h t)
  · simp only [hu]; exact hm

/-- A write of bytes leaves every byte outside them alone. -/
theorem State.byte_putBytes_ne {a b : Nat} (bs : List Byte) (h : b < a ∨ a + bs.length ≤ b) :
    (s.putBytes a bs).byte b = s.byte b := by
  induction bs generalizing s a with
  | nil => rfl
  | cons v rest ih =>
    simp only [List.length_cons] at h
    rw [State.putBytes, ih _ (by omega)]
    exact s.byte_putByte_ne v (by omega)

/-- Outside the thread context store a byte's reading follows from memory and the undefined ranges. -/
theorem State.byte_congr {s t : State} {a : Nat} (hm : s.mem = t.mem) (hu : s.ram.undef = t.ram.undef)
    (h : ∀ u, regionOf a ≠ .ctxStore u) : s.byte a = t.byte a := by
  unfold State.byte State.undefAt
  split
  · rename_i u hu; exact absurd hu (h u)
  · rw [hm, hu]

@[simp] theorem State.clearBad_undef (a n : Nat) : (s.clearBad a n).ram.undef = s.ram.undef := by
  simp only [State.clearBad]; split <;> rfl

@[simp] theorem State.watchMatch_ram (a n : Nat) : (s.watchMatch a n).ram = s.ram := by
  simp only [State.watchMatch]
  split
  · exact s.each_induct (P := fun t => t.ram = s.ram) _ _ (fun t x h => by simp [h]) rfl
  · rfl

/-- A store leaves every byte outside it alone; the thread context store shows the records of threads it wakes. -/
theorem State.byte_store_ne {a b : Nat} (bs : List Byte) (h : b < a ∨ a + bs.length ≤ b)
    (hb : ∀ t, regionOf b ≠ .ctxStore t) : (s.store a bs).byte b = s.byte b := by
  rw [← s.byte_putBytes_ne bs h]
  exact State.byte_congr (by simp [State.store]) (by simp [State.store]) hb

end Sys2Proof.Machine
end

