-- ==== Sys2Proof/Laws/Threads.lean ====
section
/-! SUPPORT. Laws of the vector cores: running an instruction, seats, and elements of vector registers. -/

namespace Sys2Proof.Machine

variable (s : State)

@[simp] theorem State.seat_setSeat (k : Nat) (x : Seat) : (s.setSeat k x).seat k = x := by simp [State.seat, State.setSeat]

theorem State.seat_setSeat_ne {k j : Nat} (x : Seat) (h : j ≠ k) : (s.setSeat k x).seat j = s.seat j := by
  simp [State.seat, State.setSeat, tget_tput_ne _ _ h]

@[simp] theorem State.trec_setSeat (k j : Nat) (x : Seat) : (s.setSeat k x).trec j = s.trec j := rfl
@[simp] theorem State.accs_setSeat (k j : Nat) (x : Seat) : (s.setSeat k x).accs j = s.accs j := rfl
@[simp] theorem State.trec_setRec (k : Nat) (r : ThrRec) : (s.setRec k r).trec k = r := by simp [State.trec, State.setRec]
theorem State.trec_setRec_ne {k j : Nat} (r : ThrRec) (h : j ≠ k) : (s.setRec k r).trec j = s.trec j := by
  simp [State.trec, State.setRec, tget_tput_ne _ _ h]
@[simp] theorem State.seat_setRec (k j : Nat) (r : ThrRec) : (s.setRec k r).seat j = s.seat j := rfl
@[simp] theorem State.accs_setAccs (k : Nat) (l : List Acc) : (s.setAccs k l).accs k = l := by
  simp [State.accs, State.setAccs]
@[simp] theorem State.seat_setAccs (k j : Nat) (l : List Acc) : (s.setAccs k l).seat j = s.seat j := rfl
@[simp] theorem State.trec_setAccs (k j : Nat) (l : List Acc) : (s.setAccs k l).trec j = s.trec j := rfl

/-- Every byte of memory reads as before once a seat changes. -/
@[simp] theorem State.byte_setSeat (k a : Nat) (x : Seat) : (s.setSeat k x).byte a = s.byte a := rfl

/-! ### Running an instruction -/

/-- An instruction that can issue has its own effect. -/
theorem thrRun_issues {t : Tower} {i : Nat} {f : Fields} {shape : Seat → Shape} {body : Nat → Seat → State → State}
    (h : s.canIssue t i f (shape (s.seat (thrKey t.val i))) = true) :
    thrRun t i f shape body s = body (thrKey t.val i) (s.seat (thrKey t.val i)) s := by
  simp only [State.canIssue, Bool.and_eq_true] at h
  simp [thrRun, h.1.1.1, h.1.1.2, h.1.2, h.2]

/-- An operation on the seat alone that can issue. -/
theorem thrOp_issues {t : Tower} {i : Nat} {f : Fields} {shape : Seat → Shape} {g : Seat → Seat}
    (h : s.canIssue t i f (shape (s.seat (thrKey t.val i))) = true) :
    thrOp t i f shape g s = s.setSeat (thrKey t.val i) (g (s.seat (thrKey t.val i))).adv :=
  thrRun_issues s h

/-- Everything an instruction can do: nothing, where the thread does not run or an operand is not ready; an exception; or its
own effect. -/
theorem thrRun_cases (t : Tower) (i : Nat) (f : Fields) (shape : Seat → Shape) (body : Nat → Seat → State → State) :
    thrRun t i f shape body s = s
    ∨ thrRun t i f shape body s = s.thrException (thrKey t.val i) 3 (s.seat (thrKey t.val i)).sc.pc
    ∨ thrRun t i f shape body s = s.thrException (thrKey t.val i) 1 0
    ∨ (s.canIssue t i f (shape (s.seat (thrKey t.val i))) = true
       ∧ thrRun t i f shape body s = body (thrKey t.val i) (s.seat (thrKey t.val i)) s) := by
  by_cases h : s.canIssue t i f (shape (s.seat (thrKey t.val i))) = true
  · exact .inr (.inr (.inr ⟨h, thrRun_issues s h⟩))
  · simp only [State.canIssue, Bool.and_eq_true] at h
    simp only [thrRun]
    split
    · exact .inl rfl
    · split
      · exact .inr (.inl rfl)
      · split
        · exact .inr (.inr (.inl rfl))
        · split
          · exact .inl rfl
          · simp_all

/-! ### Registers of a seat -/

variable (x : Seat)

@[simp] theorem Seat.s_setS (r : Nat) (v : DWord) : (x.setS r v).s r = v := by simp [Seat.s, Seat.setS]
theorem Seat.s_setS_ne {r q : Nat} (v : DWord) (h : q ≠ r) : (x.setS r v).s q = x.s q := by
  simp [Seat.s, Seat.setS, tget_tput_ne _ _ h]
@[simp] theorem Seat.vec_setVec (r : Nat) (v : BitVec 1024) : (x.setVec r v).vec r = v := by
  simp [Seat.vec, Seat.setVec, sparseGet_insert_same]
theorem Seat.vec_setVec_ne {r q : Nat} (v : BitVec 1024) (h : q ≠ r) : (x.setVec r v).vec q = x.vec q := by
  simp [Seat.vec, Seat.setVec, sparseGet_insert_ne _ _ _ h]
@[simp] theorem Seat.msk_setMsk (r : Nat) (v : BitVec 256) : (x.setMsk r v).msk r = v := by
  simp [Seat.msk, Seat.setMsk, sparseGet_insert_same]
theorem Seat.msk_setMsk_ne {r q : Nat} (v : BitVec 256) (h : q ≠ r) : (x.setMsk r v).msk q = x.msk q := by
  simp [Seat.msk, Seat.setMsk, sparseGet_insert_ne _ _ _ h]
@[simp] theorem Seat.setElem_sc (d w i n : Nat) : (x.setElem d w i n).sc = x.sc := rfl
@[simp] theorem Seat.setElem_m (d w i n : Nat) : (x.setElem d w i n).m = x.m := rfl

/-! ### Elements (R171, R209) -/

/-- The element widths of R207. -/
theorem codeWidth_cases (c : Nat) : codeWidth c = 0 ∨ codeWidth c = 4 ∨ codeWidth c = 8 ∨ codeWidth c = 16 ∨ codeWidth c = 32 := by
  unfold codeWidth; split <;> simp

/-- Bit `k` of a register with a lane set. -/
theorem setLane_getLsbD (v : BitVec 1024) (w i n k : Nat) (hk : k < 1024) :
    (setLane v w i n).getLsbD k = if w * i ≤ k ∧ k < w * i + w then n.testBit (k - w * i) else v.getLsbD k := by
  simp only [setLane, BitVec.getLsbD_or, BitVec.getLsbD_and, BitVec.getLsbD_not, BitVec.getLsbD_ofNat, hk, decide_true,
    Bool.true_and, Nat.testBit_mul_two_pow, Nat.testBit_mod_two_pow, Nat.testBit_two_pow_sub_one]
  by_cases h1 : w * i ≤ k <;> by_cases h2 : k < w * i + w
  · have h3 : k - w * i < w := by omega
    simp [h1, h2, h3]
  · have h3 : ¬ k - w * i < w := by omega
    simp [h1, h2, h3]
  · simp [h1]
  · simp [h1]

/-- A lane reads as what was written to it, and the other lanes keep their value. -/
theorem lane_setLane (v : BitVec 1024) (w i j n : Nat) (hi : w * i + w ≤ 1024) (hj : w * j + w ≤ 1024) :
    (setLane v w i n).toNat / 2 ^ (w * j) % 2 ^ w
      = if j = i then n % 2 ^ w else v.toNat / 2 ^ (w * j) % 2 ^ w := by
  apply Nat.eq_of_testBit_eq
  intro k
  by_cases hk : k < w
  · have hb : w * j + k < 1024 := by omega
    have e : ((setLane v w i n).toNat / 2 ^ (w * j) % 2 ^ w).testBit k = (setLane v w i n).getLsbD (w * j + k) := by
      simp [Nat.testBit_mod_two_pow, hk, Nat.testBit_div_two_pow, BitVec.getLsbD, Nat.add_comm]
    rw [e, setLane_getLsbD _ _ _ _ _ hb]
    by_cases hij : j = i
    · subst hij; simp [hk, Nat.testBit_mod_two_pow]
    · have : ¬ (w * i ≤ w * j + k ∧ w * j + k < w * i + w) := by
        intro h
        rcases Nat.lt_or_gt_of_ne hij with h1 | h1
        · have := Nat.mul_le_mul_left w (Nat.succ_le_of_lt h1); simp only [Nat.mul_succ] at this; omega
        · have := Nat.mul_le_mul_left w (Nat.succ_le_of_lt h1); simp only [Nat.mul_succ] at this; omega
      rw [if_neg this, if_neg hij]
      simp [Nat.testBit_mod_two_pow, hk, Nat.testBit_div_two_pow, BitVec.getLsbD, Nat.add_comm]
  · split <;> simp [Nat.testBit_mod_two_pow, hk]

/-- An element reads as what was written to it, and every other element of the group keeps its value. -/
theorem Seat.elem_setElem (d w i j n : Nat) (hw : w ∣ 1024) :
    (x.setElem d w i n).elem d w j = if j = i then n % 2 ^ w else x.elem d w j := by
  obtain ⟨m, hm⟩ := hw
  rcases Nat.eq_zero_or_pos w with h0 | h0
  · subst h0; simp at hm
  have hm0 : 0 < m := by rcases Nat.eq_zero_or_pos m with h | h; · subst h; simp at hm
                         · exact h
  have hdiv : 1024 / w = m := by rw [hm]; exact Nat.mul_div_cancel_left m h0
  have lane (a : Nat) : w * (a % m) + w ≤ 1024 := by
    have := Nat.mod_lt a hm0
    have := Nat.mul_le_mul_left w (Nat.succ_le_of_lt this)
    simp only [Nat.mul_succ] at this; omega
  simp only [Seat.elem, Seat.setElem, hdiv]
  by_cases hr : d + j / m = d + i / m
  · rw [hr, Seat.vec_setVec, lane_setLane _ _ _ _ _ (lane i) (lane j)]
    by_cases hl : j % m = i % m
    · have : j = i := by
        have h1 := Nat.div_add_mod j m
        have h2 := Nat.div_add_mod i m
        have h3 : j / m = i / m := by omega
        rw [h3, hl] at h1; omega
      simp [this]
    · rw [if_neg hl, if_neg (by intro h; exact hl (by rw [h]))]
  · rw [Seat.vec_setVec_ne _ _ hr, if_neg (by intro h; exact hr (by rw [h]))]

/-- An element keeps its value when an element of another register is written. -/
theorem Seat.vec_setElem_ne (d w i n r : Nat) (h : r ≠ d + i / (1024 / w)) : (x.setElem d w i n).vec r = x.vec r :=
  Seat.vec_setVec_ne _ _ h

/-- What a write of the elements below vl leaves in the destination group (R190, R191, R208). -/
theorem writeElems_fold (f : Fields) (w : Nat) (hw : w ∣ 1024) (sel : Nat → Option Nat) (y : Seat) (n j : Nat) :
    (((List.range n).foldl (fun y i =>
      match sel i with
      | some v => y.setElem f.d.toNat w i v
      | none => if f.z then y.setElem f.d.toNat w i 0 else y) y).elem f.d.toNat w j)
    = if j < n then (match sel j with
        | some v => v % 2 ^ w
        | none => if f.z then 0 else y.elem f.d.toNat w j)
      else y.elem f.d.toNat w j := by
  have step (y : Seat) (i : Nat) :
      (match sel i with
        | some v => y.setElem f.d.toNat w i v
        | none => if f.z then y.setElem f.d.toNat w i 0 else y).elem f.d.toNat w j
      = if j = i then (match sel j with
          | some v => v % 2 ^ w
          | none => if f.z then 0 else y.elem f.d.toNat w j)
        else y.elem f.d.toNat w j := by
    by_cases hji : j = i
    · subst hji
      cases sel j <;> cases f.z <;> simp [Seat.elem_setElem _ _ _ _ _ _ hw]
    · cases sel i <;> cases f.z <;> simp [Seat.elem_setElem _ _ _ _ _ _ hw, hji]
  induction n with
  | zero => simp
  | succ n ih =>
    rw [List.range_succ, List.foldl_append]
    simp only [List.foldl_cons, List.foldl_nil]
    rw [step, ih]
    by_cases hjn : j = n
    · subst hjn; simp
    · by_cases hlt : j < n
      · have h2 : j < n + 1 := by omega
        simp [hjn, hlt, h2]
      · have h2 : ¬ j < n + 1 := by omega
        simp [hjn, hlt, h2]

/-- The element `j` of the destination after a write of the elements below vl. -/
theorem Seat.elem_writeElems (f : Fields) (w : Nat) (hw : w ∣ 1024) (sel : Nat → Option Nat) (j : Nat) :
    (x.writeElems f w sel).elem f.d.toNat w j
    = if j < x.sc.vl then (match sel j with
        | some v => v % 2 ^ w
        | none => if f.z then 0 else x.elem f.d.toNat w j)
      else x.elem f.d.toNat w j :=
  writeElems_fold f w hw sel x x.sc.vl j

theorem writeElems_keeps (f : Fields) (w : Nat) (sel : Nat → Option Nat) (y : Seat) (l : List Nat) {P : Seat → Prop}
    (hP : ∀ z i v, i ∈ l → P z → P (z.setElem f.d.toNat w i v)) (h : P y) :
    P (l.foldl (fun y i =>
      match sel i with
      | some v => y.setElem f.d.toNat w i v
      | none => if f.z then y.setElem f.d.toNat w i 0 else y) y) := by
  induction l generalizing y with
  | nil => exact h
  | cons i rest ih =>
    simp only [List.foldl_cons]
    apply ih
    · intro z j v hj hz; exact hP z j v (List.mem_cons_of_mem _ hj) hz
    · split
      · exact hP _ _ _ (List.mem_cons_self ..) h
      · split
        · exact hP _ _ _ (List.mem_cons_self ..) h
        · exact h

@[simp] theorem Seat.writeElems_sc (f : Fields) (w : Nat) (sel : Nat → Option Nat) : (x.writeElems f w sel).sc = x.sc :=
  writeElems_keeps f w sel x _ (P := fun y => y.sc = x.sc) (fun _ _ _ _ h => h) rfl
@[simp] theorem Seat.writeElems_m (f : Fields) (w : Nat) (sel : Nat → Option Nat) : (x.writeElems f w sel).m = x.m :=
  writeElems_keeps f w sel x _ (P := fun y => y.m = x.m) (fun _ _ _ _ h => h) rfl
@[simp] theorem Seat.writeElems_epoch (f : Fields) (w : Nat) (sel : Nat → Option Nat) :
    (x.writeElems f w sel).epoch = x.epoch :=
  writeElems_keeps f w sel x _ (P := fun y => y.epoch = x.epoch) (fun _ _ _ _ h => h) rfl

/-- A register outside the destination group keeps its value. -/
theorem Seat.vec_writeElems_ne (f : Fields) (w : Nat) (sel : Nat → Option Nat) (r : Nat)
    (h : ∀ j, j < x.sc.vl → r ≠ f.d.toNat + j / (1024 / w)) : (x.writeElems f w sel).vec r = x.vec r :=
  writeElems_keeps f w sel x _ (P := fun y => y.vec r = x.vec r)
    (fun z i v hi hz => by rw [z.vec_setElem_ne _ _ _ _ _ (h i (List.mem_range.mp hi)), hz]) rfl

/-! ### Mask registers (R190, R191) -/

/-- Bit `j` of the destination mask after a write of the bits below vl. -/
theorem Seat.msk_writeMask (f : Fields) (sel : Nat → Option Bool) (j : Nat) (hj : j < 256) :
    ((x.writeMask f sel).msk f.d.toNat).getLsbD j
    = if j < x.sc.vl then (match sel j with
        | some b => b
        | none => if f.z then false else (x.msk f.d.toNat).getLsbD j)
      else (x.msk f.d.toNat).getLsbD j := by
  have hput (m : BitVec 256) (i : Nat) (b : Bool) :
      (if b then m ||| BitVec.ofNat 256 (2 ^ i) else m &&& ~~~(BitVec.ofNat 256 (2 ^ i))).getLsbD j
        = if j = i then b else m.getLsbD j := by
    have e : (BitVec.ofNat 256 (2 ^ i)).getLsbD j = decide (i = j) := by
      simp only [BitVec.getLsbD_ofNat, hj, decide_true, Bool.true_and, Nat.testBit_two_pow]
    cases b
    · simp only [Bool.false_eq_true, if_false, BitVec.getLsbD_and, BitVec.getLsbD_not, e, hj, decide_true, Bool.true_and]
      by_cases h : i = j
      · subst h; simp
      · have h2 : ¬ j = i := fun q => h q.symm
        simp [h, h2]
    · simp only [if_true, BitVec.getLsbD_or, e]
      by_cases h : i = j
      · subst h; simp
      · have h2 : ¬ j = i := fun q => h q.symm
        simp [h, h2]
  have step (m : BitVec 256) (i : Nat) :
      (match sel i with
        | some b => if b then m ||| BitVec.ofNat 256 (2 ^ i) else m &&& ~~~(BitVec.ofNat 256 (2 ^ i))
        | none => if f.z then (if false then m ||| BitVec.ofNat 256 (2 ^ i) else m &&& ~~~(BitVec.ofNat 256 (2 ^ i)))
            else m).getLsbD j
      = if j = i then (match sel j with
          | some b => b
          | none => if f.z then false else m.getLsbD j)
        else m.getLsbD j := by
    by_cases hji : j = i
    · subst hji
      cases hs : sel j with
      | some b => simp only [hput, if_true]
      | none => cases hz : f.z with
        | true => simp only [hput, if_true]
        | false => simp
    · rw [if_neg hji]
      cases hs : sel i with
      | some b => simp only [hput, if_neg hji]
      | none => cases hz : f.z with
        | true => simp only [hput, if_true, if_neg hji]
        | false => simp
  have key (n : Nat) (m : BitVec 256) :
      ((List.range n).foldl (fun (m : BitVec 256) i =>
        match sel i with
        | some b => if b then m ||| BitVec.ofNat 256 (2 ^ i) else m &&& ~~~(BitVec.ofNat 256 (2 ^ i))
        | none => if f.z then (if false then m ||| BitVec.ofNat 256 (2 ^ i) else m &&& ~~~(BitVec.ofNat 256 (2 ^ i)))
            else m) m).getLsbD j
      = if j < n then (match sel j with
          | some b => b
          | none => if f.z then false else m.getLsbD j)
        else m.getLsbD j := by
    induction n with
    | zero => simp
    | succ n ih =>
      rw [List.range_succ, List.foldl_append]
      simp only [List.foldl_cons, List.foldl_nil]
      rw [step, ih]
      by_cases hjn : j = n
      · subst hjn; simp
      · by_cases hlt : j < n
        · have h2 : j < n + 1 := by omega
          simp [hjn, hlt, h2]
        · have h2 : ¬ j < n + 1 := by omega
          simp [hjn, hlt, h2]
  simp only [Seat.writeMask]
  split
  · rename_i h0; simp only [beq_iff_eq] at h0; simp [h0]
  · rw [Seat.msk_setMsk]; exact key _ _

@[simp] theorem Seat.writeMask_sc (f : Fields) (sel : Nat → Option Bool) : (x.writeMask f sel).sc = x.sc := by
  simp only [Seat.writeMask]; split <;> rfl
@[simp] theorem Seat.writeMask_v (f : Fields) (sel : Nat → Option Bool) : (x.writeMask f sel).v = x.v := by
  simp only [Seat.writeMask]; split <;> rfl
theorem Seat.msk_writeMask_ne (f : Fields) (sel : Nat → Option Bool) (r : Nat) (h : r ≠ f.d.toNat) :
    (x.writeMask f sel).msk r = x.msk r := by
  simp only [Seat.writeMask]
  split
  · rfl
  · exact x.msk_setMsk_ne _ h

end Sys2Proof.Machine
end

