-- ==== Sys2Proof/Laws/Results.lean ====
section
/-! SUPPORT. What the shared shapes of the instructions leave behind, in the terms of Sys2Proof/Safety.lean. -/

namespace Sys2Proof.Machine

variable (s : State) (k : Nat)

/-- A change of one seat changes nothing else. -/
theorem onlySeat_setSeat (y : Seat) : OnlySeat k s (s.setSeat k y) :=
  ⟨by simp, fun _ => rfl, fun _ _ _ => rfl, fun _ h => s.seat_setSeat_ne _ h⟩

/-- A seat moved to another pc, with one scalar register written. -/
theorem scalarResult_setSeat (d : Nat) (v : DWord) (pc : Nat) (y : Seat)
    (hy : y = ((s.seat k).setS d v).jump pc) : ScalarResult k d pc v s (s.setSeat k y) := by
  subst hy
  refine ⟨onlySeat_setSeat .., ?_, ?_, ?_, ?_, ?_, ?_, ?_⟩ <;> simp only [State.seat_setSeat, Seat.jump]
  · constructor <;> rfl
  · exact (s.seat k).s_setS d v
  · intro r h; exact (s.seat k).s_setS_ne v h
  · intro r; rfl
  · intro r; rfl
  · rfl

/-- A seat moved to another pc. -/
theorem noResult_setSeat (pc : Nat) (y : Seat) (hy : y = (s.seat k).jump pc) : NoResult k pc s (s.setSeat k y) := by
  subst hy
  refine ⟨onlySeat_setSeat .., ?_, ?_, ?_, ?_, ?_, ?_⟩ <;> simp only [State.seat_setSeat, Seat.jump]
  · constructor <;> rfl
  · intro r; rfl
  · intro r; rfl
  · intro r; rfl

@[simp] theorem Seat.writeElems_core (x : Seat) (f : Fields) (w : Nat) (sel : Nat → Option Nat) :
    (x.writeElems f w sel).core = x.core :=
  writeElems_keeps f w sel x _ (P := fun y => y.core = x.core) (fun _ _ _ _ h => h) rfl
@[simp] theorem Seat.writeElems_loaded (x : Seat) (f : Fields) (w : Nat) (sel : Nat → Option Nat) :
    (x.writeElems f w sel).loaded = x.loaded :=
  writeElems_keeps f w sel x _ (P := fun y => y.loaded = x.loaded) (fun _ _ _ _ h => h) rfl
@[simp] theorem Seat.writeElems_exited (x : Seat) (f : Fields) (w : Nat) (sel : Nat → Option Nat) :
    (x.writeElems f w sel).exited = x.exited :=
  writeElems_keeps f w sel x _ (P := fun y => y.exited = x.exited) (fun _ _ _ _ h => h) rfl

/-- No condition changes no flag. -/
theorem FFlags.or_none (a : FFlags) : a.or FFlags.none = a := by cases a; simp [FFlags.or, FFlags.none]

/-- A write of elements, with conditions, and on to the next instruction. -/
theorem vectorResult_setSeat (f : Fields) (w : Nat) (hw : w ∣ 1024) (sel : Nat → Option Nat) (fl : FFlags) :
    VectorResult k f w sel fl s (s.setSeat k (((s.seat k).writeElems f w sel).orFlags fl).adv) := by
  have e (j : Nat) : ((((s.seat k).writeElems f w sel).orFlags fl).adv).elem f.d.toNat w j
      = ((s.seat k).writeElems f w sel).elem f.d.toNat w j := rfl
  refine ⟨onlySeat_setSeat .., ?_, ?_, ?_, ?_, ?_, ?_, ?_, ?_, ?_, ?_⟩ <;> simp only [State.seat_setSeat]
  · constructor <;> simp [Seat.adv, Seat.orFlags]
  · simp [Seat.adv, Seat.orFlags, Seat.nextPc]
  · intro j v hj hs; rw [e, Seat.elem_writeElems _ _ _ hw]; simp [hj, hs]
  · intro j hj hs hz; rw [e, Seat.elem_writeElems _ _ _ hw]; simp [hj, hs, hz]
  · intro j hj hs hz; rw [e, Seat.elem_writeElems _ _ _ hw]; simp [hj, hs, hz]
  · intro j hj; rw [e, Seat.elem_writeElems _ _ _ hw]; simp [Nat.not_lt.mpr hj]
  · intro r hr; exact (s.seat k).vec_writeElems_ne f w sel r hr
  · intro r; simp [Seat.s, Seat.adv, Seat.orFlags]
  · intro r; simp [Seat.msk, Seat.adv, Seat.orFlags]
  · simp [Seat.adv, Seat.orFlags]

/-- A write of mask bits, with conditions, and on to the next instruction. -/
theorem maskResult_setSeat (f : Fields) (sel : Nat → Option Bool) (fl : FFlags) :
    MaskResult k f sel fl s (s.setSeat k (((s.seat k).writeMask f sel).orFlags fl).adv) := by
  have e (r : Nat) : ((((s.seat k).writeMask f sel).orFlags fl).adv).msk r = ((s.seat k).writeMask f sel).msk r := rfl
  have c : ((s.seat k).writeMask f sel).core = (s.seat k).core := by simp only [Seat.writeMask]; split <;> rfl
  have l : ((s.seat k).writeMask f sel).loaded = (s.seat k).loaded := by simp only [Seat.writeMask]; split <;> rfl
  have x : ((s.seat k).writeMask f sel).exited = (s.seat k).exited := by simp only [Seat.writeMask]; split <;> rfl
  have p : ((s.seat k).writeMask f sel).epoch = (s.seat k).epoch := by simp only [Seat.writeMask]; split <;> rfl
  refine ⟨onlySeat_setSeat .., ?_, ?_, ?_, ?_, ?_, ?_, ?_, ?_, ?_, ?_⟩ <;> simp only [State.seat_setSeat]
  · constructor <;> simp [Seat.adv, Seat.orFlags, c, l, x]
  · simp [Seat.adv, Seat.orFlags, Seat.nextPc]
  · intro j b h hj hs; rw [e, Seat.msk_writeMask _ _ _ _ h]; simp [hj, hs]
  · intro j h hj hs hz; rw [e, Seat.msk_writeMask _ _ _ _ h]; simp [hj, hs, hz]
  · intro j h hj hs hz; rw [e, Seat.msk_writeMask _ _ _ _ h]; simp [hj, hs, hz]
  · intro j h hj; rw [e, Seat.msk_writeMask _ _ _ _ h]; simp [Nat.not_lt.mpr hj]
  · intro r hr; rw [e]; exact (s.seat k).msk_writeMask_ne f sel r hr
  · intro r; simp [Seat.vec, Seat.adv, Seat.orFlags, p]
  · intro r; simp [Seat.s, Seat.adv, Seat.orFlags]
  · simp [Seat.adv, Seat.orFlags]

end Sys2Proof.Machine
end

