-- ==== Sys2Proof/Tests/Slice0.lean ====
section
/-! SUPPORT. Tests: states that meet the hypotheses of the statements (meets_…), ill-formed commands, and worked values of the
spec (test_…). -/

namespace Sys2Proof.Tests

open Sys2Proof.Machine

set_option Elab.async false

/-! ### Helpers -/

/-- The device runs, after power-up and training, with every island ready and contexts 2 and 15 ACTIVE. -/
def up : State :=
  let s := ({ State.reset with pwr := { State.reset.pwr with st := .running } }).setReg .ctlIslandReady 0 0 0xFFFFFFFF
  (s.setFld .ctlCtxState 0 2 ctlCtxState_state 1).setFld .ctlCtxState 0 15 ctlCtxState_state 1

/-- The key of thread 3 of tower 1. -/
def k13 : Nat := thrKey 1 3

/-- A seat at pc 0x1000 with vl elements of a vtype; scalar register r holds 16 r. -/
def seatOf (vt : Byte) (vl : Nat) : Seat :=
  { (default : Seat) with
    loaded := true
    sc := { (default : Scalars) with pc := 0x1000, vl := vl, vtype := vt, s := (List.range 15).map fun r => (r + 1, BitVec.ofNat 64 (16 * (r + 1))) } }

/-- Thread 3 of tower 1 runs in context 2, at a seat. -/
def running (x : Seat) : State := (up.setRec k13 { (default : ThrRec) with st := .running, ctx := 2 }).setSeat k13 x

/-- Instruction fields. -/
def fields (d a b c : BitVec 5) (up : Word) : Fields := { d := d, a := a, b := b, c := c, mask := 0, mu := false, up := up }
/-- The same under mask register 1. -/
def masked (d a b c : BitVec 5) (up : Word) : Fields := { fields d a b c up with mask := 1, mu := true }

/-- The outcome is a next state that `p` holds of. -/
def nextIs (o : Host.Outcome State Fault Refusal) (p : State → Bool) : Bool :=
  match o with
  | .next u => p u
  | _ => false

/-! ### Scalar instructions -/

theorem meets_ScalarArithmetic : (running (seatOf 0x10 4)).canIssue 1 3 (fields 1 2 3 0 0) formSab = true := by decide +kernel

theorem meets_ScalarCompareAndImmediates :
    (running (seatOf 0x10 4)).canIssue 1 3 (fields 1 2 3 0 26) { formSab with fn := true, ok := 13 % 8 ≤ 5 && 13 / 16 == 0 } = true
    ∧ (fields 1 2 3 0 26).fn = 13
    ∧ (running (seatOf 0x10 4)).canIssue 1 3 (fields 1 2 0 0 0xFFFFFFFF) { form := .imm, d := .s, a := .s } = true
    ∧ (running (seatOf 0x10 4)).canIssue 1 3 (fields 1 0 0 0 0x80000000) { form := .imm, d := .s } = true := by decide +kernel

theorem meets_SpecialValues :
    (List.range 8).all (fun n =>
      let f := fields 1 0 0 0 (BitVec.ofNat 32 (2 * n))
      f.fn == n && (running (seatOf 0x10 4)).canIssue 1 3 f { form := .reg, d := .s, fn := true, ok := f.fn ≤ 7 }) = true
    ∧ (running (seatOf 0x10 4)).flagsSettled k13 = true := by
  decide +kernel

theorem meets_Branches :
    (running (seatOf 0x10 4)).canIssue 1 3 (fields 0 2 3 0 0xFFFFFFFF) { form := .imm, a := .s, b := .s } = true
    ∧ (running (seatOf 0x10 4)).canIssue 1 3 (fields 0 0 0 0 5) { form := .imm } = true
    ∧ (running (seatOf 0x10 4)).canIssue 1 3 (fields 1 0 0 0 5) { form := .imm, d := .s } = true := by decide +kernel

/-- Scalar register 4 holds 68, which is no multiple of 8. -/
def oddSeat : Seat := (seatOf 0x10 4).setS 4 68

theorem meets_JumpRegister :
    (running oddSeat).canIssue 1 3 (fields 1 2 0 0 0) { form := .reg, d := .s, a := .s } = true
    ∧ (oddSeat.s 2).toNat % 8 = 0
    ∧ (running oddSeat).canIssue 1 3 (fields 1 4 0 0 0) { form := .reg, d := .s, a := .s } = true
    ∧ (oddSeat.s 4).toNat % 8 = 4 := by decide +kernel

theorem meets_ModeInstructions :
    (running (seatOf 0x10 4)).canIssue 1 3 (fields 1 2 0 0 0x11) { form := .imm, d := .s, a := .s, ok := vtOk 0x11 } = true
    ∧ (running (seatOf 0x10 4)).canIssue 1 3 (fields 0 0 0 0 0x13) { form := .imm } = true
    ∧ (running (seatOf 0x10 4)).canIssue 1 3 (fields 0 2 0 0 0) { form := .reg, a := .s } = true
    ∧ (running (seatOf 0x10 4)).flagsSettled k13 = true
    ∧ (running (seatOf 0x10 4)).canIssue 1 3 (fields 0 0 0 0 0) { form := .reg } = true := by decide +kernel

/-! ### Vector instructions -/

/-- Seats of int32, FP32, BF16, and MX E4M3 elements. -/
def seatInt : Seat := seatOf 0x10 5
def seatFp : Seat := seatOf 0x00 5
def seatBf : Seat := seatOf 0x02 32
def seatMx : Seat := seatOf 0x03 32

theorem meets_VectorIntegers :
    (running seatInt).canIssue 1 3 (masked 1 2 3 0 1) (formVab (vtIntOp seatInt)) = true
    ∧ (running seatInt).canIssue 1 3 (masked 1 2 3 4 0) (formVabc (vtIntOp seatInt)) = true
    ∧ (running seatInt).canIssue 1 3 (masked 1 2 0 0 0) { formVa (vtIntOp seatInt) with elementwise := false } = true
    ∧ (running seatInt).canIssue 1 3 (masked 1 2 3 0 10) { formVab (vtIntOp seatInt) with d := .m, fn := true } = true := by
  decide +kernel

/-- Context 2 of tower 1 has slot B of its cores do saturating integers. -/
def satState : State := (running seatInt).setFld .vecCtxCfg 1 2 vecCtxCfg_slotb 1

theorem meets_VectorSaturating :
    satState.slotB 1 3 = 1
    ∧ satState.canIssue 1 3 (masked 1 2 3 0 1) (formVab (vtIntOp seatInt && satState.slotB 1 3 == 1)) = true
    ∧ satState.canIssue 1 3 (masked 1 2 3 4 0) (formVabc (vtIntOp seatInt && satState.slotB 1 3 == 1)) = true
    ∧ satState.canIssue 1 3 (masked 1 2 3 0 62) { formVab (vtIntOp seatInt && satState.slotB 1 3 == 1) with fn := true } = true
    ∧ (masked 1 2 3 0 62).fn = 31
    ∧ satState.canIssue 1 3 (masked 1 2 0 0 1) (formVa (vtIntOp seatInt && satState.slotB 1 3 == 1)) = true := by decide +kernel

theorem meets_VectorFloats :
    (running seatFp).canIssue 1 3 (masked 1 2 3 0 1) (formVab (vtFp seatFp)) = true
    ∧ (running seatFp).canIssue 1 3 (masked 1 2 3 4 0) (formVabc (vtFp seatFp)) = true
    ∧ (running seatBf).canIssue 1 3 (masked 1 2 0 0 1) (formVa (vtFp seatBf)) = true := by decide +kernel

theorem meets_FloatComparesAndReductions :
    (running seatFp).canIssue 1 3 (masked 1 2 3 0 14) { formVab (vtFp seatFp) with d := .m, fn := true } = true
    ∧ (running seatBf).canIssue 1 3 (masked 1 2 0 0 0) { formVa (vtFp seatBf) with elementwise := false } = true := by decide +kernel

/-- What the conversions' hypotheses name of an instruction of thread 3 of tower 1. -/
def cvtShape (s : State) (x : Seat) (f : Fields) : Shape :=
  let dw := codeWidth (f.fn % 32)
  { form := .reg, d := .v (groupOf dw x.w), a := .v (groupOf x.w dw), z := true, mu := true, fn := true,
    ok := s.slotB 1 3 == 0 && dstOk f && vtOk x.sc.vtype }

theorem meets_VectorConversions :
    (let f := masked 4 2 0 0 0
     (running seatBf).canIssue 1 3 f (cvtShape (running seatBf) seatBf f)) = true
    ∧ (let f := masked 4 2 3 0 0
       (running seatBf).canIssue 1 3 f { cvtShape (running seatBf) seatBf f with b := .s }) = true
    ∧ (let f := masked 4 2 3 0 0
       mxOf (vtCode seatMx.sc.vtype) = some .mxE4m3
       ∧ (running seatMx).canIssue 1 3 f
          { cvtShape (running seatMx) seatMx f with
            b := .v 1
            ok := (running seatMx).slotB 1 3 == 0 && dstOk f && vtOk seatMx.sc.vtype
              && !overlapBad false (.v (groupOf 32 8)) f.d.toNat (.v 1) f.b.toNat } = true)
    ∧ (∀ f ∈ [fields 4 2 0 5 6, fields 4 2 0 4 6],
       mxOf (f.fn % 32) = some .mxE4m3
       ∧ (running seatBf).canIssue 1 3 f
          { cvtShape (running seatBf) seatBf f with
            c := .v 1, mu := false
            ok := (running seatBf).slotB 1 3 == 0 && dstOk f && vtFp seatBf && seatBf.sc.vl % 32 == 0
              && !overlapBad false (.v 1) f.c.toNat (.v (groupOf 16 8)) f.a.toNat } = true) := by decide +kernel

theorem meets_VectorLogic :
    (running seatInt).canIssue 1 3 (masked 1 2 3 0 1) (formVab true) = true
    ∧ (running seatInt).canIssue 1 3 (masked 1 2 3 0 1) { formVab true with elementwise := false } = true
    ∧ (running seatInt).canIssue 1 3 (masked 1 2 0 0 62) { formVa true with fn := true } = true
    ∧ (running seatInt).canIssue 1 3 (masked 1 2 0 0 1) { formVa true with a := .s } = true
    ∧ (running seatInt).canIssue 1 3 (masked 1 2 0 0 1) (formVa true) = true
    ∧ (running seatFp).canIssue 1 3 (masked 1 2 3 0 4) { formVa true with b := .v 1, fn := true } = true
    ∧ (running seatFp).canIssue 1 3 (masked 1 2 0 0 2) { formVa true with b := .none, fn := true } = true
    ∧ (running seatInt).canIssue 1 3 (masked 1 2 0 0 2) { formVa true with b := .none, fn := true } = true := by decide +kernel

theorem meets_VectorMoves :
    (running seatInt).canIssue 1 3 (fields 1 2 3 0 0) { form := .reg, d := .s, a := .v 1, b := .s } = true
    ∧ (running seatInt).canIssue 1 3 (fields 1 2 3 0 1) { form := .reg, d := .v 1, a := .s, b := .s, z := true } = true
    ∧ (running seatInt).canIssue 1 3 (masked 1 2 3 0 1) { formVa true with b := .s, elementwise := false } = true := by
  decide +kernel

theorem meets_MaskInstructions :
    (running seatInt).canIssue 1 3 (fields 1 2 3 0 0) { form := .reg, d := .m, a := .m, b := .m } = true
    ∧ (running seatInt).canIssue 1 3 (fields 1 2 0 0 0) { form := .reg, d := .m, a := .m } = true
    ∧ (running seatInt).canIssue 1 3 (fields 1 0 0 0 0) { form := .reg, d := .m } = true
    ∧ (running seatInt).canIssue 1 3 (fields 1 2 0 0 0) { form := .reg, d := .s, a := .m } = true
    ∧ (running seatInt).canIssue 1 3 (fields 1 2 0 0 6) { form := .reg, d := .s, a := .m, fn := true } = true
    ∧ (running seatInt).canIssue 1 3 (fields 1 2 0 0 6) { form := .reg, d := .m, a := .s, fn := true } = true := by decide +kernel

theorem meets_CompressExpand :
    (running seatInt).canIssue 1 3 (fields 1 2 3 0 1)
      { form := .reg, d := .v 1, a := .v 1, b := .m, z := true, elementwise := false } = true := by decide +kernel

/-! ### Memory instructions and accesses -/

/-- Fields of a memory instruction: ord, sz, sgn and off in bits 1 to 31. -/
def memUp (z : Bool) (ord sz off : Nat) : Word := BitVec.ofNat 32 (z.toNat + 2 * ord + 8 * sz + 64 * off)

theorem meets_AddressChecks :
    let l := up.sample 2
    l.accessCause 2 (2 ^ 48) 4 4 .load true = some 3 ∧ l.accessCause 2 0x1002 4 4 .load true = some 2
    ∧ l.accessCause 2 0x030000000002 4 4 .load true = some 3
    ∧ l.accessCause 2 0x018000000000 4 4 .load true = some 3 ∧ l.accessCause 2 0x17FFFFFFFFC 4 4 .store false = none
    ∧ regionAllows 0x02000C000000 .store false = false ∧ regionAllows 0x02000F000000 .atomic false = true
    ∧ regionAllows 0x028000000000 .load false = true ∧ regionAllows (blockBase .cupola 3 + 0x50010) .store true = true := by
  decide +kernel

theorem meets_LoadsIssue :
    (let f := fields 1 2 0 0 (memUp false 1 3 8)
     (running seatInt).canIssue 1 3 f { form := .mem, d := .s, a := .s, ok := f.ord ≤ 1 } = true
     ∧ seatInt.sampled.accessCause 2 (seatInt.s 2 + f.off).toNat 8 8 .load false = none ∧ f.sz = 3)
    ∧ (let f := masked 1 2 0 0 (memUp true 0 0 8)
       let sh : Shape := { form := .mem, d := .v 1, a := .s, z := true, mu := true }
       (running seatInt).canIssue 1 3 f { sh with ok := vtOk seatInt.sc.vtype && vecMemOk f } = true
       ∧ (running seatInt).canIssue 1 3 { f with b := 3 } { sh with b := .s, ok := vtOk seatInt.sc.vtype && vtWhole seatInt && vecMemOk f } = true
       ∧ (running seatInt).canIssue 1 3 { f with b := 3 }
          { sh with b := .v (32 / seatInt.w), ok := vtOk seatInt.sc.vtype && vtWhole seatInt && vecMemOk f } = true)
    ∧ (∀ j < 5, seatInt.sampled.accessCause 2 ((seatInt.s 2).toNat + 8 + j * 4) 4 4 .load false = none) := by decide +kernel

theorem meets_StoresIssue :
    (let f := fields 0 2 3 0 (memUp false 2 2 8)
     (running seatInt).canIssue 1 3 f { form := .mem, a := .s, b := .s, ok := f.ord % 2 == 0 && !f.sgn } = true
     ∧ seatInt.sampled.accessCause 2 (seatInt.s 2 + f.off).toNat 4 4 .store true = none ∧ f.sz = 2)
    ∧ (let f := masked 0 2 3 0 (memUp false 0 0 8)
       let sh : Shape := { form := .mem, a := .s, b := .v 1, mu := true }
       (running seatInt).canIssue 1 3 f { sh with ok := vtOk seatInt.sc.vtype && vecMemOk f } = true
       ∧ (running seatInt).canIssue 1 3 { f with c := 3 } { sh with c := .s, ok := vtOk seatInt.sc.vtype && vtWhole seatInt && vecMemOk f } = true
       ∧ (running seatInt).canIssue 1 3 { f with c := 3 }
          { sh with c := .v (32 / seatInt.w), ok := vtOk seatInt.sc.vtype && vtWhole seatInt && vecMemOk f } = true
       ∧ (running seatInt).canIssue 1 3 { f with c := 3 } { sh with c := .v 1, ok := true } = true)
    ∧ (∀ j < 5, seatInt.sampled.accessCause 2 ((seatInt.s 2).toNat + 8 + j * 4) 4 4 .atomic false = none) := by decide +kernel

theorem meets_AtomicsIssue :
    (let f := fields 1 2 3 0 (memUp false 3 2 8)
     let sh (ok : Bool) : Shape := { form := .mem, d := .s, a := .s, b := .s, ok := ok }
     seatInt.sampled.accessCause 2 (seatInt.s 2 + f.off).toNat (2 ^ f.sz) (2 ^ f.sz) .atomic false = none
     ∧ (running seatInt).canIssue 1 3 f (sh (2 ≤ f.sz && !f.sgn)) = true
     ∧ (running seatInt).canIssue 1 3 f (sh (2 ≤ f.sz)) = true
     ∧ (running seatInt).canIssue 1 3 f (sh (f.sz == 2 && !f.sgn)) = true
     ∧ (running seatInt).canIssue 1 3 { f with c := 4 } { sh (2 ≤ f.sz && !f.sgn) with c := .s } = true) := by decide +kernel

/-- Accesses in flight at 0x2000: a load, a store, an atomic and a vector atomic of 32 bits. -/
def accLoad : Acc := { (default : Acc) with kind := .load, addr := 0x2000, bits := 32, dst := .scalar 5 true }
def accStore : Acc := { (default : Acc) with kind := .store, addr := 0x2000, bits := 32, data := 7 }
def accAmo : Acc := { (default : Acc) with kind := .amoAdd, addr := 0x2000, bits := 32, data := 7, dst := .scalar 5 false }
def accVamo : Acc := { (default : Acc) with kind := .vamoAdd, addr := 0x2000, bits := 32, data := 7 }

/-- Thread 3 of tower 1 has the one access `a` in flight. -/
def inFlight (a : Acc) : State := (running seatInt).setAccs k13 [a]

theorem mayPerform (a : Acc) (h : a = accLoad ∨ a = accStore ∨ a = accAmo ∨ a = accVamo) : MayPerform (inFlight a) k13 0 a := by
  rcases h with rfl | rfl | rfl | rfl <;>
    exact ⟨by decide +kernel, by decide +kernel, by decide +kernel, by decide +kernel, by decide +kernel, by decide +kernel⟩

theorem plainBytes (a : Acc) (ha : a.addr = 0x2000) (hl : a.len = 4) : PlainBytes a := by
  intro j hj
  have h4 : ∀ j, j < 4 → regionOf (0x2000 + j) = .hbm := by decide
  refine Or.inl (ha ▸ h4 j ?_)
  omega

theorem unheld (a : Acc) (h : a = accStore ∨ a = accAmo ∨ a = accVamo) : Unheld (inFlight a) a := by
  rcases h with rfl | rfl | rfl <;> exact ⟨by decide +kernel, by decide +kernel, by decide +kernel, by decide +kernel⟩

theorem meets_LoadCompletes : MayPerform (inFlight accLoad) k13 0 accLoad ∧ PlainBytes accLoad ∧ accLoad.kind = .load
    ∧ accLoad.stale = false :=
  ⟨mayPerform _ (.inl rfl), plainBytes _ rfl (by decide), rfl, rfl⟩

theorem meets_StoreIsPerformed : MayPerform (inFlight accStore) k13 0 accStore ∧ Unheld (inFlight accStore) accStore
    ∧ PlainBytes accStore ∧ accStore.kind = .store :=
  ⟨mayPerform _ (.inr (.inl rfl)), unheld _ (.inl rfl), plainBytes _ rfl (by decide), rfl⟩

theorem meets_AtomicIsPerformed (a : Acc) (h : a = accAmo ∨ a = accVamo) : MayPerform (inFlight a) k13 0 a ∧ Unheld (inFlight a) a
    ∧ PlainBytes a ∧ a.shift = 0 ∧ a.bits = 32 ∧ a.data < 2 ^ 32 ∧ a.stale = false
    ∧ (inFlight a).ctxActive ((inFlight a).trec k13).ctx = true ∧ ((inFlight a).trec k13).st = .running := by
  rcases h with rfl | rfl
  · exact ⟨mayPerform _ (.inr (.inr (.inl rfl))), unheld _ (.inr (.inl rfl)), plainBytes _ rfl (by decide), rfl, rfl, by decide, rfl,
      by decide +kernel, by decide +kernel⟩
  · exact ⟨mayPerform _ (.inr (.inr (.inr rfl))), unheld _ (.inr (.inr rfl)), plainBytes _ rfl (by decide), rfl, rfl, by decide, rfl,
      by decide +kernel, by decide +kernel⟩

/-- Thread 4 of tower 1 waits on the word at 0x40 of its drum, which holds 5. -/
def watching : State :=
  (running seatInt).setRec (thrKey 1 4)
    { (default : ThrRec) with st := .parked, reason := .wait, ctx := 2, waitArg := 0x40, waitVal := 5 }

theorem meets_StoresWakeWatchers :
    inDrum (drumBase 1 + 0x40) = true ∧ tblWf watching.thr.recs = true
    ∧ (watching.putBytes (drumBase 1 + 0x40) [6, 0, 0, 0]).word (drumBase 1 + 0x40) = 6 := by decide +kernel

/-! ### Threads -/

/-- The word at 0x100 of tower 1's drum holds 48, as scalar register 3 does; register 2 holds its address. -/
def seatWait : Seat := (seatInt.setS 2 (BitVec.ofNat 64 (drumBase 1 + 0x100)))
def waiting : State := (running seatWait).putBytes (drumBase 1 + 0x100) [48, 0, 0, 0]

theorem meets_WaitParksOrGoesOn :
    waiting.canIssue 1 3 (fields 1 2 3 4 0) { form := .reg, d := .s, a := .s, b := .s, c := .s } = true
    ∧ scalarsBack (waiting.accs k13) = true ∧ (seatWait.s 2).toNat % 4 = 0 ∧ drumBase 1 ≤ (seatWait.s 2).toNat
    ∧ (let l := [((seatWait.s 2).toNat, 4)]
       waiting.ownEarlier k13 l [] = false ∧ waiting.trafficHeld (cupolaIsland 1) l = false
       ∧ waiting.knownBad (seatWait.s 2).toNat 4 = none)
    ∧ waiting.word (drumBase 1 + 0x100) = 48 ∧ ((seatWait.s 3).truncate 32 : Word) = 48 ∧ ((seatWait.s 4).truncate 32 : Word) ≠ 0
    ∧ ((seatWait.s 5).truncate 32 : Word) ≠ 48 := by decide +kernel

theorem meets_YieldAndBarEosPark :
    waiting.canIssue 1 3 (fields 1 0 0 0 0) { form := .reg, d := .s } = true
    ∧ waiting.member (waiting.trec k13).ctx = false
    ∧ (waiting.flag .ctlCtxState 0 2 ctlCtxState_member).member (waiting.trec k13).ctx = true
    ∧ (waiting.flag .ctlCtxState 0 2 ctlCtxState_member).canIssue 1 3 (fields 1 0 0 0 0) { form := .reg, d := .s } = true := by
  decide +kernel

/-- Barrier 16 of context 2 in tower 1 expects `n` arrivals; thread 4 has arrived. -/
def barred (n : Nat) : State :=
  let s := (running seatInt).setRec (thrKey 1 4) { (default : ThrRec) with st := .parked, reason := .bar, ctx := 2, waitArg := 16 }
  { s with thr := { s.thr with bars := tput s.thr.bars (barKey 1 2 16) ⟨n, [(thrKey 1 4, 0)]⟩ } }

theorem meets_Barriers :
    (barred 3).canIssue 1 3 (fields 5 1 0 0 0) { form := .reg, d := .s, a := .s } = true
    ∧ scalarsBack ((barred 3).accs k13) = true ∧ (seatInt.s 1).toNat = 16
    ∧ (tget (barred 3).thr.bars (barKey 1 2 16)).expected = 3
    ∧ (tget (barred 2).thr.bars (barKey 1 2 16)).expected = 2
    ∧ (barred 2).storesDone (k13, 0) = true ∧ (barred 2).storesDone (thrKey 1 4, 0) = true
    ∧ (barred 2).barWaiters 1 2 16 = [thrKey 1 4] := by decide +kernel

/-- Context 2 has 64 thread indices from 64 in tower 1. -/
def ranged : State :=
  ((running seatInt).setFld .vecThrRange 1 2 vecThrRange_baseUnits 1).setFld .vecThrRange 1 2 vecThrRange_countUnits 1

theorem meets_BarrierInit :
    ranged.canIssue 1 3 (fields 5 1 2 0 0) { form := .reg, d := .s, a := .s, b := .s } = true
    ∧ ranged.barWaiters 1 2 16 = [] ∧ (seatInt.s 2).toNat = 32 ∧ ranged.thrCount 1 2 = 64 ∧ (seatInt.s 5).toNat = 80 := by
  decide +kernel

theorem meets_Spawns :
    ranged.canIssue 1 3 (fields 5 2 1 3 0) { form := .reg, d := .s, a := .s, b := .s, c := .s } = true
    ∧ (seatInt.s 2).toNat % 8 = 0 ∧ (seatInt.s 1).toNat + ranged.liveThreads 1 2 ≤ ranged.thrCount 1 2
    ∧ ranged.thrCount 1 2 < (seatInt.s 5).toNat + ranged.liveThreads 1 2 := by decide +kernel

theorem meets_ExitFenceEvent :
    (running seatInt).canIssue 1 3 (fields 0 0 0 0 0) { form := .reg } = true ∧ (running seatInt).accs k13 = []
    ∧ (inFlight accStore).canIssue 1 3 (fields 0 0 0 0 0) { form := .reg } = true ∧ (inFlight accStore).accs k13 ≠ []
    ∧ (running seatInt).canIssue 1 3 (fields 0 2 0 0 0) { form := .reg, a := .s } = true
    ∧ ((running seatInt).trec k13).ctx < 16 ∧ (tget (running seatInt).irq.srcs 114).st = .idle := by decide +kernel

/-- Thread 5 of tower 1 is READY in context 2, which may use cores 3 and up of the tower. -/
def readyState : State :=
  let s := up.setRec (thrKey 1 5) { (default : ThrRec) with st := .ready, ctx := 2 }
  { s with
    thr := { s.thr with ready := [thrKey 1 5] }
    step := { s.step with
      active := { s.step.active with sched := tput [] 2 { (default : Sched) with allowed := (2 ^ 64 - 8) * 2 ^ 64 } } } }

theorem meets_DispatchPlaces :
    readyState.placeable 1 = [thrKey 1 5] ∧ nextCtx (tget readyState.thr.lastCtx 1) [(2, (readyState.sample 2).prio)] = some 2
    ∧ (readyState.trec (thrKey 1 5)).ctx = 2
    ∧ readyState.coreFor 1 2 = some 3 := by decide +kernel

/-- Thread 5 runs, and its record is on its way to its seat. -/
def placed : State := readyState.dispatch 1 (some 5)

theorem meets_ResumeDeadlineFree :
    (placed.trec (thrKey 1 5)).st = .running ∧ (placed.seat (thrKey 1 5)).loaded = false
    ∧ placed.guardMet (placed.trec (thrKey 1 5)) = true
    ∧ (let r : ThrRec := { (default : ThrRec) with st := .parked, reason := .wait, deadlineEn := true, deadlineTick := 0 }
       (up.setRec k13 r).trec k13 = r ∧ r.deadlineTick.toNat ≤ up.refclk.toNat)
    ∧ (let s := (running { seatInt with exited := true })
       (s.seat k13).exited = true ∧ s.accs k13 = []) := by decide +kernel

theorem meets_ThreadExceptions :
    up.canRun k13 = false
    ∧ (let x := { seatInt with sc := { seatInt.sc with pc := 0x028000000000 } }
       (running x).canRun k13 = true ∧ fetchOk x.sc.pc = false)
    ∧ (running seatInt).canRun k13 = true ∧ fetchOk seatInt.sc.pc = true ∧ formSab.legal (fields 1 2 3 4 0) = false
    ∧ operandsReady ((inFlight accLoad).accs k13) formSab (fields 1 5 3 0 0) = false := by decide +kernel

/-! ### Registers, events, crossings, memory upkeep -/

theorem meets_RegisterAccesses :
    regTarget 0x030000000003 = none ∧ regTarget (regBase .ctlIslandReady 0) = some (.ctlIslandReady, 0, 0)
    ∧ writesApart.contains .mtxQErr = false ∧ queueUse .mtxQErr = none ∧ readsApart.contains .plynCrcCnt = false
    ∧ (regTarget (regBase .ctlRefclkLo 0) = some (.ctlRefclkLo, 0, 0))
    ∧ (regTarget (regBase .vecThrLive 1)).map (·.1) = some .vecThrLive
    ∧ regTarget (regBase .vecCtxCfg 1 + 2 * (regDef .vecCtxCfg).stride) = some (.vecCtxCfg, 1, 2)
    ∧ (running seatInt).anyThread 2 = true
    ∧ up.trafficHeld belfryIsland [(regBase .ctlIslandReady 0, 4)] = false ∧ up.host.stalled = []
    ∧ (regTarget (regBase .hostPfcCfg 0)).map (·.1) = some .hostPfcCfg ∧ queueUse .hostPfcCfg = none
    ∧ (regTarget (regBase .plynRtS 2)).map (·.1) = some .plynRtS := by decide +kernel

/-- Source 20 is PENDING with argument 5, not masked, and targets core 2; source 21 is ACTIVE for core 2. -/
def pendingSrc : State :=
  let s := (up.setFld .irqSrcCfg 0 20 irqSrcCfg_mask 0).setFld .irqSrcCfg 0 20 irqSrcCfg_target 2
  { (s.setFld .irqSrcCfg 0 21 irqSrcCfg_target 2) with
    irq := { srcs := [(20, ⟨.pending, argOf 1 5, 0, none⟩), (21, ⟨.active, 0, argOf 1 6, none⟩), (22, ⟨.activePending, 0, 0, none⟩)],
             forwards := [(30, 7)] } }

theorem meets_SourceRaise :
    srcListed 15 = false ∧ srcListed 20 = true ∧ (tget pendingSrc.irq.srcs 23).st = .idle
    ∧ (tget pendingSrc.irq.srcs 20).st = .pending ∧ pendingSrc.bit .irqSrcCfg 0 20 irqSrcCfg_sense = false
    ∧ (tget pendingSrc.irq.srcs 21).st = .active ∧ (tget pendingSrc.irq.srcs 22).st = .activePending
    ∧ (pendingSrc.flag .irqSrcCfg 0 21 irqSrcCfg_sense).bit .irqSrcCfg 0 21 irqSrcCfg_sense = true := by decide +kernel

/-- Source 20 goes to the host, which hears of it; so does the forwarded source 30. -/
def hostSrc : State :=
  ((pendingSrc.setFld .irqSrcCfg 0 20 irqSrcCfg_target 4).setFld .irqSrcCfg 0 20 irqSrcCfg_hostMask 0).setFld
    .irqSrcCfg 0 30 irqSrcCfg_hostMask 0

theorem meets_InterruptController :
    pendingSrc.deliverable 2 20 = true ∧ (∀ m < 20, pendingSrc.deliverable 2 m = false) ∧ (∀ m < 1024, up.deliverable 2 m = false)
    ∧ (tget pendingSrc.irq.srcs 21).st = .active ∧ pendingSrc.fld .irqSrcCfg 0 21 irqSrcCfg_target = 2
    ∧ (tget pendingSrc.irq.srcs 22).st = .activePending
    ∧ (pendingSrc.setFld .irqSrcCfg 0 22 irqSrcCfg_target 2).fld .irqSrcCfg 0 22 irqSrcCfg_target = 2
    ∧ hostSrc.bit .irqSrcCfg 0 20 irqSrcCfg_hostMask = false ∧ hostSrc.fld .irqSrcCfg 0 20 irqSrcCfg_target = 4
    ∧ hostSrc.host.events.length < 1024
    ∧ hostSrc.irq.forwards.find? (fun f => f.1 == 30) = some (30, 7)
    ∧ hostSrc.bit .irqSrcCfg 0 30 irqSrcCfg_hostMask = false
    ∧ up.bit .irqLock 0 0 irqLock_lock = false := by decide +kernel

/-- The bridge from drum 1 to drum 2 holds 16 entries, the first one for an island of its own, and the next of
its way as many; every island is ready, or drum 2 is not. -/
def fullCross (dst : Nat) : State :=
  let x : Crossing := ⟨⟨9, dst, 7⟩ :: List.replicate 15 ⟨9, 10, 7⟩, [], []⟩
  { up with cross := tput [] (crossKey 9 10) x }
def unready (s : State) : State := s.setReg .ctlIslandReady 0 0 0xFFFFFBFF
def fullNext : State :=
  let s := fullCross 11
  { s with cross := tput s.cross (crossKey 10 11) ⟨List.replicate 16 ⟨10, 11, 7⟩, [], []⟩ }

theorem meets_CrossingsAndIslands :
    nextOn 9 (route 9 11) = some 10 ∧ (tget up.cross (crossKey 9 10)).held.length + (tget up.cross (crossKey 9 10)).arrived.length < 16
    ∧ (tget up.cross (crossKey 9 10)).stalled = []
    ∧ 16 ≤ (tget (fullCross 11).cross (crossKey 9 10)).held.length ∧ (fullCross 11).islandReady 10 = true
    ∧ (unready (fullCross 11)).islandReady 10 = false ∧ 16 ≤ (tget (unready (fullCross 11)).cross (crossKey 9 10)).held.length
    ∧ nextOn 10 (route 9 10) = none ∧ nextOn 10 (route 9 11) = some 11 ∧ crossKey 10 11 ≠ crossKey 9 10
    ∧ (tget (fullCross 11).cross (crossKey 10 11)).held.length < 16 ∧ (tget (fullCross 11).cross (crossKey 10 11)).stalled = []
    ∧ 16 ≤ (tget fullNext.cross (crossKey 10 11)).held.length ∧ fullNext.islandReady 10 = true
    ∧ up.pwr.st = .running ∧ (up.reg .ctlIslandReady 0 0).getLsbD 17 = true ∧ (tget up.irq.srcs 2).st = .idle := by decide +kernel

/-- Every island is ready, or none but the belfry. -/
def ready : State := up
def nothingReady : State := up.setReg .ctlIslandReady 0 0 0

theorem meets_RefreshAndScrub :
    ready.hbmReady 23 = true ∧ nothingReady.hbmReady 23 = false
    ∧ (let a := hbmAddr (ready.localGib 7) 23 0x12340
       ready.fld .memScrubCfg 7 0 memScrubCfg_scrubHours ≠ 0 ∧ 0x12345 < 64 * gib ∧ 0x12345 / 32 * 32 = 0x12340
       ∧ a < 0x018000000000 ∧ ready.knownBad a 32 = none)
    ∧ (ready.setFld .memScrubCfg 7 0 memScrubCfg_scrubHours 0).fld .memScrubCfg 7 0 memScrubCfg_scrubHours = 0 := by
  decide +kernel

/-- 1,000 refclk ticks after reset; and with stack 4's window open on pseudo-channel 9. -/
def ticked : State := { ready with refclk := 1000 }
def windowed : State := { ready with ram := { ready.ram with cal := tput [] 4 { pc := 9, isOpen := true, tick := 0 } } }

theorem meets_CalibrationWindows :
    ticked.fld .memCalCfg 1 0 memCalCfg_calInterval = 1000 ∧ (tget ticked.ram.cal 4).isOpen = false
    ∧ ticked.hbmReady 4 = true ∧ ticked.hbmCoasts 4 = false ∧ 1000 ≤ (ticked.refclk - (tget ticked.ram.cal 4).tick).toNat
    ∧ (tget windowed.ram.cal 4).isOpen = true := by decide +kernel

/-! ### Queues, pools, contexts -/

/-- The mover queue of context 2 in tower 1 has a ring of 4 and a completion ring of 4 in tower 1's queue memory, one descriptor to
issue and one record to write. -/
def queued : State :=
  let q := qRegs .mover
  let s := ready.setFld q.baseHi 1 2 mtxQBaseHi_size 4
  let s := (s.setFld q.baseHi 1 2 mtxQBaseHi_baseHi 0x0200).setReg q.baseLo 1 2 0x1F000000
  let s := s.setFld q.cqHi 1 2 mtxCqBaseHi_size 4
  let s := (s.setFld q.cqHi 1 2 mtxCqBaseHi_baseHi 0x0200).setReg q.cqLo 1 2 0x1F001000
  let s := s.setFld q.tail 1 2 mtxQTail_tail 1
  s.setQ .mover 1 2 { (default : QState) with done := [{ words := [1, 2, 3, 4, 5, 6, 7, 8], after := some (0x3000, 9, ready.sample 2) }] }

/-- The same without a status word to write. -/
def queuedBare : State := queued.setQ .mover 1 2 { (default : QState) with done := [{ words := [1, 2, 3, 4, 5, 6, 7, 8], after := none }] }

/-- Group 0 has a valid entry for layout epoch 0, in tower 0's queue memory. -/
def grouped : State :=
  let s := (up.setReg .redGrpBaseHi 0 0 0x0200).setReg .redGrpBaseLo 0 0 0x0F000000
  s.storeWords 0x02000F000000 (0x10000 :: List.replicate 15 0)

theorem meets_QueueRegisters :
    3 < queued.qSize .mover 1 2 ∧ queued.qSize .mover 1 2 ≤ 4 ∧ 3 < queued.cqSize .mover 1 2 ∧ queued.cqSize .mover 1 2 ≤ 4
    ∧ queued.qHead .mover 1 2 ≠ queued.qTail .mover 1 2 ∧ queued.qHead .decode 0 2 = queued.qTail .decode 0 2
    ∧ queued.anyGroup = false
    ∧ grouped.anyGroup = true := by decide +kernel

theorem meets_CompletionRecordsAreWritten :
    queued.cqFull .mover 1 2 = false ∧ (queued.q .mover 1 2).done.length = 1
    ∧ cqRegionOk .mover 1 (queued.cqBase .mover 1 2) = true ∧ cqRegionOk .mover 1 (queued.cqBase .mover 1 2 + 31) = true
    ∧ (queued.setFld (qRegs .mover).cqHead 1 2 mtxCqHead_head 1).cqFull .mover 1 2 = true
    ∧ (let a := queued.cqBase .mover 1 2
       let held (s : State) (l : List (Nat × Nat)) : Bool := s.storesHeld (queueIsland .mover 1) ((a, 32) :: l)
       recBytes [1, 2, 3, 4, 5, 6, 7, 8] = 32 ∧ (queuedBare.q .mover 1 2).done.length = 1
       ∧ held queuedBare [] = false ∧ held queued [(0x3000, 4)] = false ∧ queued.ctxWriteOk (ready.sample 2) 2 0x3000 4 = true
       ∧ held (queuedBare.setReg .ctlIslandReady 0 0 0) [] = true ∧ held (queued.setReg .ctlIslandReady 0 0 0) [(0x3000, 4)] = true)
    ∧ (let s := queued.setReg (qRegs .mover).cqLo 1 2 0
       s.cqFull .mover 1 2 = false ∧ cqRegionOk .mover 1 (s.cqBase .mover 1 2) = false) := by decide +kernel

/-- Context 2's page pool in tower 1: a ring of 4 at 0x100000, one entry to take: the page at 0x200000, its scales at 0x300000. -/
def pooled : State :=
  let s := (running seatInt).setFld .atnPoolBaseHi 1 2 atnPoolBaseHi_size 4
  let s := (s.setReg .atnPoolBaseLo 1 2 0x100000).setFld .atnPoolTail 1 2 atnPoolTail_tail 1
  s.storeWords 0x100000 [0x200000, 0, 0x300000, 0, 0x210000, 0, 0x301000, 0]

/-- A sequence with room for 2 pages, one 64-element unit a row, at 0x1000 of tower 1's drum; thread 4 waits for its page. -/
def withSeq (len mapped : Nat) (s : State) : State :=
  s.storeWords (drumBase 1 + 0x1000) ([0x20100, len, mapped] ++ List.replicate 13 0)
def starving : State :=
  let s := ((withSeq 0 0 pooled).setFld .atnPoolHead 1 2 atnPoolHead_head 1).setStarved 1 2 [thrKey 1 4]
  s.setRec (thrKey 1 4) { (default : ThrRec) with st := .parked, reason := .kv, ctx := 2, waitArg := 0x1000 }

theorem meets_PagePools :
    2 < pooled.poolSize 1 2 ∧ pooled.starved 1 2 = [] ∧ pooled.poolSize 1 2 ≤ 4
    ∧ starving.starved 1 2 = [thrKey 1 4] ∧ starving.poolHead 1 2 ≠ 2 ∧ starving.ctxActive 2 = true
    ∧ (let p := starving.setFld .atnPoolTail 1 2 atnPoolTail_tail 2
       let a := drumBase 1 + 0x1000
       let m := p.mapPage 1 2 a (starving.word (a + 4) / 256)
       let e := m.seqEntry a (starving.word (a + 4) / 256)
       let rs := [(starving.poolEntry 1 2, 16), (a, 64)]
       let ws := kvStores a (starving.word (a + 4)) e.2.1 e.2.2 true
       (∀ y ∈ rs, unitReadOk y.1 y.2 = true) ∧ (∀ y ∈ ws, p.ctxWriteOk (p.sample 2) 2 y.1 y.2 = true)
       ∧ p.ownEarlier (thrKey 1 4) rs ws = false ∧ p.trafficHeld (cupolaIsland 1) rs = false
       ∧ p.storesHeld (cupolaIsland 1) ws = false ∧ p.spansError rs .clean = none)
    ∧ up.poolHead 1 2 = up.poolTail 1 2 ∧ up.starved 1 2 = [] := by decide +kernel

/-- A seat that appends to that sequence: BF16 rows, header in register 2, position in register 0. -/
def seatKv : Seat := { seatBf with sc := { seatBf.sc with s := [(2, BitVec.ofNat 64 (drumBase 1 + 0x1000))] } }
def kvState (len mapped : Nat) : State := (withSeq len mapped pooled).setSeat k13 seatKv

theorem meets_TokenAppends :
    (kvState 0 0).canIssue 1 3 (fields 1 2 4 0 0) { form := .reg, d := .s, a := .s, b := .v 1, c := .s, ok := vtKv seatKv } = true
    ∧ scalarsBack ((kvState 0 0).accs k13) = true ∧ inOwnDrum 1 (drumBase 1 + 0x1000) 64 = true
    ∧ rowsPending ((kvState 0 0).accs k13) 4 1 = false ∧ 4 + 2 * 1 ≤ 32
    ∧ (∀ s ∈ [kvState 0 0, kvState 5 1, (kvState 0 0).setFld .atnPoolHead 1 2 atnPoolHead_head 1],
        let rs := s.kvReads 1 2 (drumBase 1 + 0x1000) 0
        (∀ y ∈ rs, unitReadOk y.1 y.2 = true) ∧ s.ownEarlier k13 rs [] = false ∧ s.trafficHeld (cupolaIsland 1) rs = false
        ∧ s.spansError rs .clean = none)
    ∧ (kvState 5 1).kvRefuse 1 2 (drumBase 1 + 0x1000) 0 = some .kvOrder
    ∧ (kvState 0 0).kvRefuse 1 2 (drumBase 1 + 0x1000) 0 = none ∧ (kvState 0 0).needsPage (drumBase 1 + 0x1000) 0 = true
    ∧ (kvState 0 0).poolHas 1 2 = true ∧ (kvState 0 0).starved 1 2 = []
    ∧ (let m := (kvState 0 0).mapPage 1 2 (drumBase 1 + 0x1000) 0
       let e := m.seqEntry (drumBase 1 + 0x1000) 0
       let ws := kvStores (drumBase 1 + 0x1000) 0 e.2.1 e.2.2 true
       (∀ y ∈ ws, (kvState 0 0).ctxWriteOk seatKv.sampled 2 y.1 y.2 = true) ∧ (kvState 0 0).ownEarlier k13 [] ws = false
       ∧ (kvState 0 0).storesHeld (cupolaIsland 1) ws = false)
    ∧ (let s := (kvState 0 0).setFld .atnPoolHead 1 2 atnPoolHead_head 1
       let ws := [(drumBase 1 + 0x1000 + 10, 1)]
       s.needsPage (drumBase 1 + 0x1000) 0 = true
       ∧ (∀ y ∈ ws, s.ctxWriteOk seatKv.sampled 2 y.1 y.2 = true) ∧ s.ownEarlier k13 [] ws = false
       ∧ s.storesHeld (cupolaIsland 1) ws = false)
    ∧ ((kvState 0 0).setFld .atnPoolHead 1 2 atnPoolHead_head 1).poolHas 1 2 = false
    ∧ ((kvState 0 0).setFld .atnPoolHead 1 2 atnPoolHead_head 1).kvRefuse 1 2 (drumBase 1 + 0x1000) 0 = none := by decide +kernel

/-- Context 2 is being torn down. -/
def torn : State := (running seatInt).setFld .ctlCtxState 0 2 ctlCtxState_state 2

theorem meets_ContextFaultsAndTeardown :
    up.ctxState 2 = 1 ∧ torn.ctxState 2 = 2 ∧ torn.storesOut 2 = false ∧ tget torn.ctx.destroying 2 = false
    ∧ (tget (up.ctxFault 2 { (default : FaultRec) with cause := 5 }).ctx.faults 2).isSome = true
    ∧ (up.ctxFault 2 { (default : FaultRec) with cause := 5 }).ctxState 2 = 2
    ∧ (let s := { torn with ctx := { torn.ctx with destroying := tput [] 2 true } }
       tget s.ctx.destroying 2 = true ∧ s.ctxState 2 = 2 ∧ s.storesOut 2 = false)
    ∧ (let s := { starving with refclk := 1000000 }
       (s.trec (thrKey 1 4)).st = .parked ∧ (s.trec (thrKey 1 4)).reason = .kv ∧ s.ctxState 2 = 1
       ∧ (s.trec (thrKey 1 4)).deadlineTick.toNat + (s.reg .atnPageTimeout 1 2).toNat ≤ s.refclk.toNat) := by decide +kernel

/-! ### Step boundary -/

/-- A step group of one: this device is its root, context 2 its member; nothing is outstanding. -/
def inGroup : State := ((up.setGroupState 1).flag .ctlStepState 0 0 ctlStepState_isRoot).setReg .ctlStepTimeout 0 0 1000

theorem meets_LocalArrival :
    inGroup.allArrived = true ∧ inGroup.step.arriveSent = false ∧ inGroup.isRoot = true ∧ inGroup.red.held = []
    ∧ inGroup.step.children = [] ∧ inGroup.ram.jobs = []
    ∧ (up.setGroupState 1).allArrived = true ∧ (up.setGroupState 1).isRoot = false
    ∧ (let s := { inGroup with step := { inGroup.step with children := [7] } }
       s.allArrived = true ∧ (s.step.children.all fun c => s.step.arrives.any fun a => a.child == c) = false)
    ∧ up.allArrived = false := by decide +kernel

/-- A token of device 7 that came through port 2, and the device with it in hand, at step 0 of a group with tag 9. -/
def tokenPacket (k : Token) : Packet :=
  { (default : Packet) with src := 7, kind := .token, length := 8, payload := k.words.flatMap (bytesOf 4) }
def tokenOf9 (commit : Bool) : Token := { commit := commit, vote := true, tag := 9, epoch := 0, step := 0 }
def withToken (k : Token) (st : Nat) (children : List Half) : State :=
  let s := up.setGroupState st
  { s with step := { s.step with groupTag := 9, children := children, parent := 7 }
           fab := { s.fab with rxLocal := [(2, tokenPacket k)] } }

theorem meets_BarrierTokens :
    (withToken (tokenOf9 false) 1 [7]).fab.rxLocal.find? (fun x => x.2 == tokenPacket (tokenOf9 false))
      = some (2, tokenPacket (tokenOf9 false))
    ∧ tokenOf (tokenPacket (tokenOf9 false)).payload = some (tokenOf9 false)
    ∧ tokenOf (tokenPacket (tokenOf9 true)).payload = some (tokenOf9 true)
    ∧ (withToken (tokenOf9 false) 1 [7]).groupState = 1 ∧ (withToken (tokenOf9 true) 2 []).groupState = 2
    ∧ (withToken (tokenOf9 true) 2 []).isRoot = false ∧ (withToken (tokenOf9 true) 2 []).stepNo = 0
    ∧ (withToken (tokenOf9 true) 2 []).step.staged.epoch = 0 ∧ (withToken (tokenOf9 true) 2 []).red.held = []
    ∧ (tokenOf9 true).tag ≠ inGroup.step.groupTag := by decide +kernel

theorem meets_StepTimeoutAndPeriods :
    (let s := { inGroup.setGroupState 2 with refclk := 1500 }
     let s := { s with step := { s.step with arriveTick := some 500 } }
     s.groupState = 2 ∧ (s.reg .ctlStepTimeout 0 0).toNat = 1000 ∧ s.step.timedOut = false
      ∧ (s.reg .ctlStepTimeout 0 0).toNat ≤ (s.refclk - 500).toNat ∧ (tget s.irq.srcs 4).st = .idle)
    ∧ up.groupState = 0 ∧ (let s := { up with refclk := 100000000 }; 100000000 ≤ (s.refclk - s.ctx.periodTick).toNat) := by
  decide +kernel

/-- Pair 3 holds the states of steps 10 and 11. -/
def paired : State := { up with step := { up.step with contentA := tput [] 3 10, contentB := tput [] 3 11 } }

theorem meets_LanternDecision :
    tget paired.step.contentA 3 = 10 ∧ tget paired.step.contentB 3 = 11
    ∧ (12 - 10 : Word).toNat = 2 ∧ (12 - 11 : Word).toNat = 1
    ∧ 2 ^ 31 < (9 - 10 : Word).toNat ∧ 2 ^ 31 < (9 - 11 : Word).toNat
    ∧ (let s := { up with step := { up.step with contentA := tput [] 3 10, contentB := tput [] 3 14 } }
       2 ^ 31 < (12 - tget s.step.contentB 3).toNat ∧ 0 < (12 - tget s.step.contentA 3).toNat)
    ∧ (10 + 0x80000000 - tget paired.step.contentA 3 : Word).toNat = 2 ^ 31 := by decide +kernel

/-- A store to HBM that was held, of thread 3 of tower 1. -/
def heldStore (h : Held) : Acc := { (default : Acc) with kind := .store, addr := 0x5000, bits := 32, data := 77, held := h }
def holding (h : Held) : State := { up with thr := { up.thr with accs := tput [] k13 [heldStore h] } }

theorem meets_HeldStoresAreReleased :
    ((holding .bank).accs k13)[0]? = some (heldStore .bank) ∧ ((holding .snapshot).accs k13)[0]? = some (heldStore .snapshot)
    ∧ (heldStore .bank).len = 4 ∧ (∀ j < 4, regionOf ((heldStore .bank).addr + j) = .hbm)
    ∧ ((holding .bank).mirrorAt 0x5000).isSome = false ∧ ((holding .bank).mirrorAt 0x5003).isSome = false
    ∧ (holding .bank).bankHeld [(0x5000, 4)] = false ∧ (holding .bank).snapHolds 0x5000 = false
    ∧ (holding .snapshot).snapHolds 0x5003 = false := by decide +kernel

/-! ### Descriptors and tile jobs -/

/-- `n` words, those listed and zeros. -/
def wordsAre (n : Nat) (l : List (Nat × Nat)) : List Nat := (List.range n).map fun i => (l.lookup i).getD 0

/-- Queue `k` of context 2 in tower 1 has a ring of 4 in tower 1's queue memory, with the descriptor `d` at its head. -/
def descQueue (k : QKind) (d : List Nat) (s : State) : State :=
  let q := qRegs k
  let s := (s.setFld q.baseHi 1 2 mtxQBaseHi_size 4).setFld q.baseHi 1 2 mtxQBaseHi_baseHi 0x0200
  let s := (s.setReg q.baseLo 1 2 0x1F000000).setFld q.tail 1 2 mtxQTail_tail 1
  s.storeWords 0x02001F000000 d

/-- Context 2 holds slots 0 to 3 of tower 1. -/
def slotted : State := { ready with ctx := { ready.ctx with slotMask := tput [] 2 (2 ^ 32 * 15) } }

/-- A BF16 descriptor with its loop at 0x400000, A, B and C at 0x500000, 0x600000 and 0x700000, and FP32 output. -/
def mtxDesc (route : Nat) : List Nat :=
  wordsAre 32 [(0, 0x220 + route * 2 ^ 18), (4, 0x400000), (6, 0x500000), (8, 0x600000), (10, 0x700000), (24, 0x1F002000), (25, 0x0200)]
/-- A loop of M = 2, N = 3, K = 4. -/
def mtxLoop : List Nat := wordsAre 32 [(1, 2), (2, 3), (3, 4), (6, 2), (7, 3), (8, 4), (9, 16), (10, 16), (11, 16)]
def mtxQueued (route : Nat) : State := (descQueue .matrix (mtxDesc route) slotted).storeWords 0x400000 mtxLoop

/-- An attention descriptor: FWD over 2 queries and 4 keys, BF16 weights and FP32 output, its stage in tower 1's scratch. -/
def atnWords : List Nat :=
  wordsAre 32 [(0, 2 * 2 ^ 12), (3, 0x10004), (6, 0xFFFF0000), (9, 16), (11, 1024), (12, 0x800000), (16, 0x900000),
    (18, 0xA00000), (20, 0x10100000), (21, 0x0200)]
def atnQueued : State := (mtxQueued 2).storeWords 0x02001F002000 atnWords

/-- A sleeve descriptor: a 1 by 1 convolution of one BF16 position with one channel into FP32. -/
def slvDesc : List Nat :=
  wordsAre 32 [(0, 2 * 2 ^ 5 + 2 * 2 ^ 9), (1, 0x10000), (2, 0x500000), (4, 0x600000), (6, 0x700000), (16, 0x10001), (17, 0x10001),
    (18, 0x10001), (19, 0x10001), (20, 0x11111111), (21, 0x1), (22, 0x10001), (24, 1), (25, 1), (26, 1)]
def slvQueued (d : List Nat) : State := descQueue .sleeve d ready

/-- A contribute descriptor of `n` elements to bucket 0 of group 0, which context 2 owns and which has one bucket of 64 elements. -/
def redDesc (n : Nat) : List Nat := wordsAre 16 [(3, n), (5, 0x500000)]
def redQueued (d : List Nat) : State :=
  let s := (ready.setReg .redGrpBaseHi 0 0 0x0200).setReg .redGrpBaseLo 0 0 0x0F000000
  let s := s.storeWords 0x02000F000000 (wordsAre 16 [(0, 0x10000 + 2 * 2 ^ 21), (1, 1), (5, 1), (6, 0x0F100000), (7, 0x0200)])
  descQueue .reduction d (s.storeWords 0x02000F100000 (wordsAre 8 [(0, 64)]))

/-- The fetch of queue `k`'s descriptor is allowed and not held. -/
def fetches (s : State) (k : QKind) : Bool :=
  let a := s.descAddr k 1 2
  descRegionOk k 1 a && !s.trafficHeld (queueIsland k 1) [(a, descBytes k)] && (s.knownBad a (descBytes k)).isNone

/-- An issue ends in an address fault; it ends in a wait. -/
def issueFaults {α : Type} (x : Except Stop α) : Bool :=
  match x with
  | .error (.fault _ _) => true
  | _ => false
def issueWaits {α : Type} (x : Except Stop α) : Bool :=
  match x with
  | .error .wait => true
  | _ => false

/-- The controller groups of the HBM stacks are not ready. -/
def noHbm (s : State) : State := s.setReg .ctlIslandReady 0 0 0xFF00FFFF

/-- The status with which an issue ends. -/
def issueStatus {α : Type} (x : Except Stop α) : Option Status :=
  match x with
  | .ok _ => some .ok
  | .error (.reject st) => some st
  | .error _ => none

theorem meets_DescriptorsAreIssued :
    (mtxQueued 0).mtxReady 1 2 = true ∧ fetches (mtxQueued 0) .matrix = true ∧ fetches atnQueued .matrix = true
    ∧ fetches (slvQueued slvDesc) .sleeve = true ∧ fetches (redQueued (redDesc 4)) .reduction = true
    ∧ fetches (redQueued (redDesc 0)) .reduction = true ∧ (redQueued (redDesc 0)).qCanIssue .reduction 1 2 = true
    ∧ issueStatus ((mtxQueued 0).issueJob 1 2 ((mtxQueued 0).descWords .matrix 1 2)) = some .ok
    ∧ atnQueued.mtxReady 1 2 = true ∧ descRoute (atnQueued.descWords .matrix 1 2) = 2
    ∧ issueStatus (atnQueued.attIssue 1 2 (atnQueued.descWords .matrix 1 2)) = some .ok
    ∧ (slvQueued slvDesc).qCanIssue .sleeve 1 2 = true
    ∧ issueStatus ((slvQueued slvDesc).slvIssueChecks 1 2 ((slvQueued slvDesc).descWords .sleeve 1 2)) = some .ok
    ∧ (redQueued (redDesc 4)).qCanIssue .reduction 1 2 = true
    ∧ (redQueued (redDesc 4)).redChecks 2 ((redQueued (redDesc 4)).descWords .reduction 1 2) = none
    ∧ (redQueued (redDesc 0)).redChecks 2 ((redQueued (redDesc 0)).descWords .reduction 1 2) = none := by decide +kernel

theorem meets_DescriptorsAreRejected :
    issueStatus ((mtxQueued 0).issueJob 1 2 ((mtxDesc 0).set 0 0x026)) = some .badDescriptor
    ∧ (let s := descQueue .matrix ((mtxDesc 0).set 0 0x226) (mtxQueued 0)
       s.mtxReady 1 2 = true ∧ fetches s .matrix = true ∧ descRoute (s.descWords .matrix 1 2) ≠ 2
        ∧ issueStatus (s.issueJob 1 2 (s.descWords .matrix 1 2)) = some .badDescriptor)
    ∧ (let s := descQueue .matrix ((mtxDesc 0).set 5 0x300) (mtxQueued 0)
       s.mtxReady 1 2 = true ∧ fetches s .matrix = true ∧ descRoute (s.descWords .matrix 1 2) ≠ 2
        ∧ issueFaults (s.issueJob 1 2 (s.descWords .matrix 1 2)) = true)
    ∧ (let s := noHbm (mtxQueued 0)
       s.mtxReady 1 2 = true ∧ fetches s .matrix = true ∧ descRoute (s.descWords .matrix 1 2) ≠ 2
        ∧ issueWaits (s.issueJob 1 2 (s.descWords .matrix 1 2)) = true)
    ∧ (let s := descQueue .matrix ((mtxDesc 2).set 5 0x300) atnQueued
       s.mtxReady 1 2 = true ∧ fetches s .matrix = true ∧ descRoute (s.descWords .matrix 1 2) = 2
        ∧ issueFaults (s.attIssue 1 2 (s.descWords .matrix 1 2)) = true)
    ∧ (let s := noHbm atnQueued
       s.mtxReady 1 2 = true ∧ fetches s .matrix = true ∧ descRoute (s.descWords .matrix 1 2) = 2
        ∧ issueWaits (s.attIssue 1 2 (s.descWords .matrix 1 2)) = true)
    ∧ (let s := atnQueued.storeWords 0x02001F002000 (atnWords.set 0 3)
       s.mtxReady 1 2 = true ∧ fetches s .matrix = true ∧ descRoute (s.descWords .matrix 1 2) = 2
        ∧ issueStatus (s.attIssue 1 2 (s.descWords .matrix 1 2)) = some .badDescriptor)
    ∧ (let s := slvQueued (slvDesc.set 0 5)
       s.qCanIssue .sleeve 1 2 = true ∧ fetches s .sleeve = true ∧ issueStatus (s.slvIssueChecks 1 2 (s.descWords .sleeve 1 2)) = some .badDescriptor)
    ∧ (let s := redQueued (redDesc 65)
       s.qCanIssue .reduction 1 2 = true ∧ fetches s .reduction = true ∧ s.redChecks 2 (s.descWords .reduction 1 2) = some .lengthRange)
    ∧ up.qCanIssue .matrix 1 2 = false ∧ up.qCanIssue .sleeve 1 2 = false ∧ up.qCanIssue .reduction 1 2 = false := by
  decide +kernel

/-- Job 0 is the descriptor above with one tile in state `st`, its chunk staged when `sg`. -/
def oneTile (st : TileSt) : Tile :=
  { (default : Tile) with row1 := 2, col1 := 3, st := st, begun := st != .waiting, omitted := st == .copying }
def chunk0 : Staged := { (default : Staged) with tgroup := 0, chunk := 0 }
def jobAt (route : Nat) (st : TileSt) (sg : Bool) : State :=
  slotted.setJob 0 { (default : MtxJob) with
    t := 1, c := 2, desc := mtxDesc route, loop := mtxLoop, m := 2, n := 3, k := 4, groups := [(0, 2)], eb := [0],
    tiles := [oneTile st], avail := 4, staged := if sg then [chunk0] else [] }

theorem meets_TileJobsClaimStageAndIssue :
    (jobAt 0 .waiting false).canClaim 0 0 = true ∧ ((jobAt 0 .waiting false).job 0).tileChunks (oneTile .waiting) ≠ 0
    ∧ ((jobAt 0 .filling false).job 0).nextStage 0 = some 0 ∧ (jobAt 0 .filling false).hasJob 0 = true
    ∧ (let s := jobAt 0 .filling false
       let j := s.job 0
       let ts := j.stageTiles 0
       ts = [oneTile .filling] ∧ (j.stageA ts 0).all (fun y => unitReadOk y.1 y.2) = true ∧ j.mantleA (ts.headD default) = false
        ∧ (s.stageB j ts 0).all (fun y => unitReadOk y.1 y.2) = true
        ∧ s.ctxWriteOk j.sampled j.c j.stageArea.1 j.stageArea.2 = true
        ∧ s.trafficHeld (cupolaIsland j.t) (s.stageSpans j ts 0) = false
        ∧ (s.stageSpans j ts 0).all (fun y => (s.knownBad y.1 y.2).isNone) = true ∧ s.stageSpans j ts 0 ≠ [])
    ∧ (jobAt 0 .filling true).grantJob 1 0 none = some 0
    ∧ ((jobAt 0 .filling true).job 0).ready.head? = some (oneTile .filling, 0)
    ∧ tget (jobAt 0 .filling true).mtx.array 1 = none ∧ (jobAt 0 .filling true).canClaim 0 0 = false := by decide +kernel

theorem meets_ChunkFold :
    (let s := jobAt 0 .filling true
     let s := { s with mtx := { s.mtx with array := tput [] 1 (some ⟨0, 0, 0⟩) } }
     tget s.mtx.array 1 = some ⟨0, 0, 0⟩ ∧ (s.job 0).intJob = false ∧ (s.slabCounts (s.job 0) ((s.job 0).tile 0)).1 ≠ 0
      ∧ ((s.job 0).tile 0).col1 ≤ ((s.job 0).tile 0).col0 + (s.job 0).cols) := by decide +kernel

/-- Job 0 copies its second row from its first, which another tile has stored. -/
def copyJob : State :=
  let s := jobAt 0 .copying false
  s.setJob 0 { s.job 0 with
    desc := (mtxDesc 0).set 26 1
    tiles := [{ oneTile .done with row1 := 1 }, { oneTile .copying with row0 := 1 }] }

theorem meets_TilesSpillReloadDrainAndCopy :
    (let s := jobAt 0 .filling false
     let s := s.setTile 0 0 { oneTile .filling with due := true }
     let j := s.job 0
     let b := j.spillAddr (j.tile 0)
     s.hasJob 0 = true ∧ (j.tile 0).st = .filling ∧ (j.tile 0).due = true ∧ s.ctxWriteOk j.sampled j.c b 0x100000 = true
      ∧ s.storesHeld (cupolaIsland j.t) [(b, 0x100000)] = false)
    ∧ (let s := jobAt 0 .spilled false
       let j := s.job 0
       let b := j.spillAddr (j.tile 0)
       s.hasJob 0 = true ∧ (j.tile 0).st = .spilled ∧ (j.tile 0).begun = true
        ∧ s.trafficHeld (cupolaIsland j.t) [(b, 0x100000)] = false ∧ s.knownBad b 0x100000 = none)
    ∧ (let s := jobAt 1 .draining false
       let s := s.setTile 0 0 { oneTile .draining with sent := 6 }
       s.drainingTile 1 0 = some (0, 0) ∧ (s.job 0).route = 1 ∧ ((s.job 0).tile 0).sent = ((s.job 0).tile 0).elements)
    ∧ (let s := jobAt 0 .draining false
       s.drainingTile 1 0 = some (0, 0) ∧ (s.job 0).route = 0 ∧ s.tileWriteOk (s.job 0) ((s.job 0).tile 0) = true
        ∧ s.storesHeld (cupolaIsland 1) ((s.job 0).tileSpans ((s.job 0).tile 0)) = false)
    ∧ up.drainingTile 1 0 = none
    ∧ (let j := copyJob.job 0
       let x := j.tile 1
       copyJob.hasJob 0 = true ∧ x.st = .copying ∧ j.copyWaits 1 = false
        ∧ (j.copySpans x).all (fun y => unitReadOk y.1 y.2 && (copyJob.knownBad y.1 y.2).isNone) = true
        ∧ copyJob.tileWriteOk j x = true ∧ copyJob.trafficHeld (cupolaIsland j.t) (j.copySpans x) = false
        ∧ copyJob.storesHeld (cupolaIsland j.t) (j.tileSpans x) = false ∧ x.rowsIn = [1] ∧ j.fmtOut.isMx = false) := by
  decide +kernel

/-- Attention job 0: one query tile of 1 row and one key tile, with its score tile draining; or its value tile done. -/
def attAt (kind : Nat) (tiles : List Tile) (finalised : Nat) : State :=
  let a : Att := { words := atnWords.set 0 (2 * 2 ^ 12 + kind), header := [], paged := false, pages := [], stats := [], finalised := finalised }
  let s := jobAt 2 .waiting false
  s.setJob 0 { s.job 0 with att := some a, m := 1, tiles := tiles }
def scoreTile (st : TileSt) : Tile := { oneTile st with row1 := 1, role := .score 0, slot := 1 }
def valueTile (st : TileSt) : Tile := { oneTile st with row1 := 1, role := .value 0 }

theorem meets_DescriptorsComplete :
    ((jobAt 0 .done false).hasJob 0 = true ∧ ((jobAt 0 .done false).job 0).tiles = [oneTile .done]
      ∧ ((jobAt 0 .done false).job 0).att = none)
    ∧ (((attAt 0 [scoreTile .done, valueTile .done] 1).job 0).m ≤ 1 * ((attAt 0 [] 1).job 0).rows)
    ∧ ((attAt 0 [] 0).job 0).m > 0
    ∧ ((attAt 0 [] 1).job 0).att.any (·.fwd) = true ∧ ((attAt 1 [] 1).job 0).att.any (·.fwd) = false
    ∧ (let s := attAt 1 [scoreTile .done] 0
       (s.atnStop (s.job 0) [] [(daddr atnWords 26, 1)] .clean).isNone = true)
    ∧ ∃ x ∈ ((jobAt 0 .draining false).job 0).tiles, x.st ≠ .done := by
  refine ⟨by decide +kernel, by decide +kernel, by decide +kernel, by decide +kernel, by decide +kernel, by decide +kernel,
    oneTile .draining, by decide +kernel, by decide +kernel⟩

/-- The score tile of a job, whose scores are 0, drains; or it is a later tile of its query tile, whose row has the statistics −1 and 1. -/
def drainAt (kind place : Nat) : State :=
  let s := attAt kind [{ scoreTile .draining with place := place }, valueTile .waiting] 0
  let s := s.setJob 0 { s.job 0 with att := (s.job 0).att.map fun a => { a with stats := if place = 0 then [] else [(0, ⟨0xBF800000, 0x3F800000⟩)] } }
  let x := (s.job 0).tile 0
  s.putBytes ((s.job 0).accAddr (s.tileSlot (s.job 0) x) x 0 0) (List.replicate 16 0)

/-- What a drain needs of the state and of the score tile. -/
def mayDrain (s : State) : Bool :=
  let j := s.job 0
  let x := j.tile 0
  j.att.any fun a =>
    let rs := MtxJob.drainReads a x
    let ws := j.drainWrites a x
    s.hasJob 0 && x.st == .draining && x.role == .score 0 && x.rowsIn == [0]
      && rs.all (fun y => unitReadOk y.1 y.2 && (s.knownBad y.1 y.2).isNone) && !s.trafficHeld (cupolaIsland j.t) rs
      && ws.all (fun y => s.pathWriteOk j.sampled j.t j.c y.1 y.2) && !s.storesHeld (cupolaIsland j.t) ws

/-- Its query tile is done, and its row has the statistics 0 and 2. -/
def finalAt : State :=
  let s := attAt 0 [scoreTile .done, valueTile .done] 0
  s.setJob 0 { s.job 0 with att := (s.job 0).att.map fun a => { a with stats := [(0, ⟨0, 0x40000000⟩)] } }

theorem meets_AttentionDrainsAndFinalises :
    mayDrain (drainAt 0 0) = true ∧ mayDrain (drainAt 0 1) = true ∧ mayDrain (drainAt 1 0) = true ∧ mayDrain (drainAt 2 0) = true
    ∧ (let s := drainAt 0 1
       let j := s.job 0
       let x := j.tile 0
       x.place ≠ 0 ∧ j.att.any (fun a =>
        let o := softRow a (a.stat 0) ((List.range j.cols).map fun l => s.zOf j a x 0 l)
        let b := j.stageAddr a (x.visit % 2) 0 0
        a.fwd && o.alpha.isSome && inDrum b && inDrum (b + 0x100000)
          && regionOf (slotAddr j.t (s.outSlot j)) == .acc 1 && regionOf (slotAddr j.t (s.outSlot j) + 15) == .acc 1) = true)
    ∧ ((drainAt 1 0).job 0).att.any (fun a => !a.fwd && a.pass == 1) = true ∧ ((drainAt 2 0).job 0).att.any (·.pass == 2) = true
    ∧ (let s := attAt 0 [valueTile .filling, scoreTile .draining] 0
       ((s.job 0).tile 1).role = .score 0 ∧ ((s.job 0).tile 0).st ≠ .done ∧ ((s.job 0).tile 0).role = .value 0)
    ∧ (let j := finalAt.job 0
       finalAt.hasJob 0 = true ∧ j.n ≠ 0 ∧ 0 < j.m ∧ (List.range (min j.m j.rows)) = [0] ∧ j.tiles.all (fun y => y.st == .done) = true
        ∧ j.att.any (fun a =>
            let ws := a.finalWrites j.n [0]
            let o := daddr a.words 18
            a.fwd && ws.all (fun y => finalAt.pathWriteOk j.sampled j.t j.c y.1 y.2) && !finalAt.storesHeld (cupolaIsland j.t) ws
              && daddr a.words 16 + 8 ≤ 0x018000000000 && 0 < (a.stat 0).l && (a.stat 0).l < 0x7F800000
              && daddr a.words 16 + 8 * 0 + 8 ≤ o) = true) := by decide +kernel

/-- Sleeve job 0 of context 2 in tower 1; or with its hand-off due. -/
def slvAt (due : Bool) (v : Nat) : State :=
  let s := mtxQueued 0
  s.setSlvJob 0 { (default : SlvJob) with t := 1, c := 2, words := slvDesc.set 27 (v + (if due then 0x10000 else 0)), tailDue := due }

/-- What a pass of job 0 needs of the state, the hold apart. -/
def mayPass (s : State) : Bool :=
  let j := s.slvJob 0
  j.readSpans.all (fun y => unitReadOk y.1 y.2 && (s.knownBad y.1 y.2).isNone) && j.inMantle == 0
    && j.writeSpans.all (fun y => s.ctxWriteOk j.sampled j.c y.1 y.2) && j.outMantle == 0
def passHeld (s : State) : Bool :=
  let j := s.slvJob 0
  s.trafficHeld (cupolaIsland j.t) j.readSpans || s.storesHeld (cupolaIsland j.t) j.writeSpans

/-- The same job over two output positions of 1,024 channels, which take a pass each. -/
def slvLong : State :=
  let s := slvAt false 0
  let j := s.slvJob 0
  s.setSlvJob 0 { j with words := (j.words.set 17 0x20001).set 1 0x4000000 }

theorem meets_SleevePassesAndHandoff :
    (slvAt false 0).slvNext 1 none = some 0 ∧ tget (slvAt false 0).slv.cur 1 = none
    ∧ mayPass (slvAt false 0) = true ∧ passHeld (slvAt false 0) = false
    ∧ mayPass (noHbm (slvAt false 0)) = true ∧ passHeld (noHbm (slvAt false 0)) = true ∧ (noHbm (slvAt false 0)).slvNext 1 none = some 0
    ∧ (let j := (slvAt false 0).slvJob 0
       slvRows j.words j.pass = [0] ∧ j.fmtOut.delayed = false ∧ j.fmtOut.bits % 8 = 0 ∧ slvPasses j.words = 1 ∧ j.tailEn = false)
    ∧ (let s := slvAt false 0
       let s := s.setSlvJob 0 { s.slvJob 0 with words := (s.slvJob 0).words.set 27 0x10002 }
       let j := s.slvJob 0
       s.slvNext 1 none = some 0 ∧ mayPass s = true ∧ passHeld s = false ∧ slvPasses j.words = 1 ∧ j.tailEn = true)
    ∧ (let s := { slvLong with slv := { slvLong.slv with cur := tput [] 1 (some 0) } }
       tget s.slv.cur 1 = some 0 ∧ mayPass s = true ∧ passHeld s = false ∧ 1 < slvPasses (s.slvJob 0).words)
    ∧ tget up.slv.cur 1 = none ∧ up.slvNext 1 none = none
    ∧ (((slvAt true 2).slvJob 0).tailDue = true ∧ ((slvAt true 2).slv.jobs.any fun x => x.1 == 0) = true
        ∧ dfld ((slvAt true 2).slvJob 0).words 27 15 0 < (slvAt true 2).qSize .matrix 1 2)
    ∧ (slvAt true 9).qSize .matrix 1 2 ≤ dfld ((slvAt true 9).slvJob 0).words 27 15 0 := by decide +kernel

/-! ### Movers -/

/-- A mover descriptor: `rows` rows of 256 bytes; a copy from 0x500000 to 0x600000, or a fill. -/
def mvDesc (op rows : Nat) : List Nat :=
  wordsAre 16 [(0, op), (1, 9), (3, 256), (4, rows), (5, if op == 1 then 0 else 0x500000), (7, 0x600000), (9, 256), (10, 256),
    (13, 0x01020304)]
def mvQueued (d : List Nat) : State := descQueue .mover d ready
/-- Transfer 0 of context 2 in tower 1 has its one part in state `st`. -/
def mvAt (d : List Nat) (st : PartSt) : State :=
  ready.setMvJob 0 { (default : MvJob) with t := 1, c := 2, words := d, parts := [{ (default : MvPart) with st := st }] }

/-- The descriptor at the head of context 2's mover queue in tower 1 may be fetched. -/
def mvFetches (s : State) : Bool :=
  let a := s.descAddr .mover 1 2
  s.qCanIssue .mover 1 2 && descRegionOk .mover 1 a && !s.trafficHeld (drumIsland 1) [(a, 64)] && (s.knownBad a 64).isNone

theorem meets_MoverTransfersStartAndEnd :
    (let s := mvQueued (mvDesc 0 2)
     mvFetches s = true ∧ dfld (s.descWords .mover 1 2) 0 16 16 = 0 ∧ firstFail (s.mvChecks 1 (s.descWords .mover 1 2)) = none)
    ∧ (let s := mvQueued (mvDesc 4 2)
       mvFetches s = true ∧ firstFail (s.mvChecks 1 (s.descWords .mover 1 2)) = some .badDescriptor)
    ∧ up.qCanIssue .mover 1 2 = false
    ∧ ((mvAt (mvDesc 0 2) .done).hasMv 0 = true ∧ ((mvAt (mvDesc 0 2) .done).mvJob 0).parts.all (fun p => p.st == .done) = true)
    ∧ (let s := mvAt (mvDesc 0 2) .failed
       (s.setMvJob 0 { s.mvJob 0 with firstFailed := some 0 }).hasMv 0 = true)
    ∧ ((mvAt (mvDesc 0 2) .running).mvJob 0).parts.any (fun p => p.st == .running) = true := by decide +kernel

/-- Transfer 1 of the same tower is in the background, and has a part to start. -/
def mvBehind : State :=
  let s := mvAt (mvDesc 0 1) .waiting
  s.setMvJob 1 { s.mvJob 0 with words := (mvDesc 0 1).set 0 0x40 }

theorem meets_MoverParts :
    (let s := mvAt (mvDesc 0 1) .waiting
     (s.mvJob 0).parts.findIdx? (fun p => p.st == .waiting) = some 0 ∧ (s.partFault (s.mvJob 0) 0).isNone = true
      ∧ s.moversBusy 1 < 4 ∧ (s.mvJob 0).normal = true ∧ s.srcHere (mvDesc 0 1) = true ∧ s.dstHere (mvDesc 0 1) = true)
    ∧ (let d := (mvDesc 0 1).set 0 0x400
       let s := mvAt (d.set 1 0x70009) .waiting
       s.srcHere (d.set 1 0x70009) = false ∧ dfld d 0 11 10 = 1 ∧ 0 < mvCount d 0 * mvSrcRow d
        ∧ (s.partFault (s.mvJob 0) 0).isNone = true ∧ ((s.mvJob 0).part 0).rpos = 0 ∧ ((s.mvJob 0).part 0).tag = none
        ∧ ((s.mvJob 0).part 0).host = false)
    ∧ ((mvBehind.mvJob 1).normal = false ∧ (mvBehind.mvJob 1).parts.findIdx? (fun p => p.st == .waiting) = some 0
        ∧ (mvBehind.partFault (mvBehind.mvJob 1) 0).isNone = true ∧ mvBehind.hasMv 1 = true
        ∧ (mvBehind.ram.jobs.any fun x => x.2.t == 1 && x.2.normal && x.2.hasWaiting) = true
        ∧ mvBehind.hasMv 0 = true ∧ (mvBehind.mvJob 0).t = (mvBehind.mvJob 1).t ∧ (mvBehind.mvJob 0).normal = true
        ∧ (mvBehind.mvJob 0).hasWaiting = true ∧ mvBehind.hasMv 2 = false)
    ∧ (let s := mvAt (mvDesc 0 1) .waiting
       let s := s.setMvJob 3 { s.mvJob 0 with parts := List.replicate 4 { (default : MvPart) with st := .running } }
       4 ≤ s.moversBusy 1 ∧ (s.partFault (s.mvJob 0) 0).isNone = true)
    ∧ (∀ d ∈ [mvDesc 0 1, mvDesc 1 1],
        let s := mvAt d .running
        let j := s.mvJob 0
        j.part 0 = { (default : MvPart) with st := .running } ∧ s.readsLeft j 0 = false ∧ s.writesLeft j 0 = false
          ∧ (s.partFault j 0).isNone = true ∧ (s.partSrc j 0).all (fun x => (s.knownBad x.1 x.2).isNone) = true
          ∧ s.trafficHeld (drumIsland 1) (s.partSrc j 0) = false ∧ s.storesHeld (drumIsland 1) (s.partDst j 0) = false
          ∧ s.srcHere d = true ∧ s.dstHere d = true ∧ mvCount d 0 = 1
          ∧ ∀ l < 256, regionOf (mvDstAddr d (mvLo d 0) + l) = .hbm)
    ∧ (let s := mvAt (mvDesc 0 1) .running
       s.partSrc (s.mvJob 0) 0 = [(0x500000, 256)]) := by decide +kernel

/-! ### Reductions -/

/-- Context 2's contribute descriptor 0 sends element 0, value 2.0 at 0x500000, to bucket 0 of group 0. -/
def contributing (s : State) : State :=
  let s := s.storeWords 0x500000 [0x40000000]
  let s := { s with red := { s.red with jobs := tput [] 0 { (default : RedJob) with t := 1, c := 2, words := redDesc 1 } } }
  s.storeWords 0x02000F100000 (wordsAre 8 [(0, 64), (2, 0x30000000), (4, 0x31000000)])
/-- The bucket's segment 0, in its work area at 0x31000000, is of step 0. -/
def segmented : State := (contributing (redQueued (redDesc 1))).storeWords 0x31001000 [0, 0, 0, 0]

/-- 64 other buckets of the group are open at the same home. -/
def crowded (waiting : List RedSource) : State :=
  let s := segmented.storeWords 0x02000F000014 [65]
  let s := (List.range 64).foldl (fun s b =>
    (s.storeWords (0x02000F100024 + 32 * b) [0]).setRun 0 (b + 1) { (default : BucketRun) with started := true, opened := true }) s
  { s with red := { s.red with waiting := waiting } }

/-- The contribution is taken as the statement's hypotheses on `s` say, the free bucket apart. -/
def takesContribution (s : State) : Bool :=
  (s.contribFault (.desc 0) .clean).isNone && match s.nextContribution (.desc 0), s.grpFor 0 0 with
    | some k, some g => k.elem == 0 && k.value == 0x40000000 && k.group == 0 && k.epoch == 0 && !g.aborted && !s.contribWaits (.desc 0) k g
    | _, _ => false

theorem meets_ContributionsAreAdded :
    takesContribution segmented = true
    ∧ (let s := segmented
       match s.nextContribution (.desc 0), s.grpFor 0 0 with
       | some k, some g =>
         let x := s.bucket g k.bucket
         let s1 := (s.startRun 0 0 x).touchSeg x g 0 0
         s.mayOpen 0 0 && s.red.faults.isEmpty && k.elem < x.elements && segCtl x g 0 0 == 0x31001000 && sumAddr x 0 == 0x31000000
           && !s1.segFlag (segCtl x g 0 0) 1 && !s1.segFlag (segCtl x g 0 0) 3
           && s1.word (segCtl x g 0 0 + 4) + 1 < segLen x g 0 0 * g.per && (s1.knownBad (sumAddr x 0) 8).isNone
           && (s1.knownBad (segCtl x g 0 0) 16).isNone
       | _, _ => false) = true
    ∧ takesContribution (crowded []) = true ∧ (crowded []).mayOpen 0 0 = false
    ∧ takesContribution (crowded [.desc 0]) = true ∧ (crowded [.desc 0]).mayOpen 0 0 = false
    ∧ (let s := { segmented with red := { segmented.red with waiting := [.desc 0] } }
       takesContribution s = true ∧ s.mayOpen 0 0 = true) := by decide +kernel

/-- A message of kind `kind` for step `step` from device 7 through port 2. -/
def redPacket (kind step : Nat) : Packet :=
  let h : RedHdr := { (default : RedHdr) with kind := kind, step := step, shard := 0, length := if kind == 0 then 64 else 0 }
  { (default : Packet) with
    src := 7, kind := .reduce, cls := 3, length := 32
    payload := h.words.flatMap (bytesOf 4) ++ List.replicate (if kind == 0 then 256 else 0) 0 }
def messaged (st : Nat) (p : Packet) : State :=
  let s := segmented.setGroupState st
  { s with fab := { s.fab with rxLocal := [(2, p)] } }

theorem meets_ReductionMessages :
    (messaged 1 (redPacket 0 0)).received (redPacket 0 0) .reduce = some 2
    ∧ (messaged 1 (redPacket 0 0)).redTake (redHdrOf (redPacket 0 0).payload) = .accept
    ∧ (messaged 1 (redPacket 0 0)).redKnown (redHdrOf (redPacket 0 0).payload) = true
    ∧ (redHdrOf (redPacket 0 0).payload).poisoned = false
    ∧ (let s := messaged 1 (redPacket 0 0)
       let g := s.grp 0
       let x := s.bucket g 0
       let c := segCtl x g 0 0
       let s0 := { s with fab := { s.fab with rxLocal := s.fab.rxLocal.erase (2, redPacket 0 0) } }
       let s1 := ((s0.returnSlots 2 (redPacket 0 0)).startRun 0 0 x).touchSeg x g 0 0
       g.aborted = false ∧ s.red.faults = [] ∧ s.trafficHeld (drumIsland x.home) (segSpans x g 0 0) = false
        ∧ (segSpans x g 0 0).all (fun y => (s1.knownBad y.1 y.2).isNone) = true
        ∧ s1.segFlag c 0 = false ∧ s1.segFlag c 1 = false ∧ s1.segFlag c 3 = false ∧ s1.word (c + 4) ≠ segLen x g 0 0 * g.per
        ∧ (∀ l < 8 * 64, regionOf (sumAddr x 0 + l) = .hbm) ∧ (∀ l < 16, regionOf (c + l) = .hbm)
        ∧ segLo x g 0 0 + (redHdrOf (redPacket 0 0).payload).length ≤ x.elements)
    ∧ (messaged 2 (redPacket 0 1)).redTake (redHdrOf (redPacket 0 1).payload) = .hold
    ∧ (messaged 1 (redPacket 0 1)).redTake (redHdrOf (redPacket 0 1).payload) = .mismatch
    ∧ (redHdrOf (redPacket 1 0).payload).kind = 1 ∧ (messaged 1 (redPacket 1 0)).redKnown (redHdrOf (redPacket 1 0).payload) = true
    ∧ ((messaged 1 (redPacket 1 0)).run 0 0).sums = []
    ∧ (redHdrOf (redPacket 2 0).payload).kind = 2 ∧ ((messaged 1 (redPacket 2 0)).grp 0).valid = true
    ∧ ((messaged 1 (redPacket 2 0)).grp 0).aborted = false
    ∧ (messaged 1 (redPacket 2 0)).red.notices = [] := by decide +kernel

/-- The group is aborted, and a record of its abort found the ring full. -/
def abortedGroup (rings : List (List Nat)) : State :=
  let s := segmented.storeWords 0x02000F000020 [0x0F200000, 0x0200, 4, 0, 2]
  { s with red := { s.red with rings := tput [] 0 rings } }

/-- Bucket 0 of group 0 has its maximum agreed and its own shard sent; the group's ring at 0x0200_0F20_0000 has room. -/
def bucketDone : State :=
  let s := segmented.storeWords 0x02000F000020 [0x0F200000, 0x0200, 4, 0]
  s.setRun 0 0 { (default : BucketRun) with step := 0, started := true, agreed := true, ownSent := true }

theorem meets_BucketsComplete :
    (match bucketDone.grpFor 0 0 with
     | some g =>
       let x := bucketDone.bucket g 0
       let r := bucketDone.run 0 0
       r.started && !r.complete && !g.aborted && decide (0 < g.nBuckets) && r.agreed && r.ownSent
         && r.forwarded == otherSegs x g && !bucketDone.redUnsent 0 0 && bucketDone.ringTakes g && (tget bucketDone.red.rings 0).isEmpty
         && decide (g.cqBase + 64 * g.cqTail + 64 ≤ 0x02000F300000)
     | none => false) = true
    ∧ (segmented.run 0 0).started = false
    ∧ (match (abortedGroup [wordsAre 16 [(0, 5)]]).grpFor 0 0 with
       | some g => g.aborted && (abortedGroup [wordsAre 16 [(0, 5)]]).ringTakes g
       | none => false) = true
    ∧ tget (abortedGroup [wordsAre 16 [(0, 5)]]).red.rings 0 = [wordsAre 16 [(0, 5)]] ∧ (wordsAre 16 [(0, 5)]).length = 16
    ∧ ((abortedGroup []).grpFor 0 0).any (·.aborted) = true ∧ tget (abortedGroup []).red.rings 0 = [] := by decide +kernel

/-! ### Links -/

/-- Port 2 in a state; and with its lanes trained on 0 to 7, lane 8 its ready gusset lane, `f` changing a direction. -/
def portAt (st : Nat) : State := up.setPortState 2 st
def trainedPort (st : Nat) (f : LaneDir → LaneDir) : State :=
  let s := ((portAt st).setSpare 2 true 8 true).setSpare 2 false 8 true
  let d : LaneDir := { (default : LaneDir) with map := List.range 8 }
  (s.setDir 2 true (f d)).setDir 2 false (f d)

theorem meets_LinkTraining :
    (portAt 1).portState 2 = 1 ∧ ((portAt 1).dir 2 true).map = [] ∧ ((portAt 1).dir 2 true).rot = .idle
    ∧ ((portAt 1).dir 2 false).train = none ∧ (portAt 1).laneFailed 2 true 8 = false ∧ (portAt 1).minMargin 2 ≤ 255
    ∧ 0 < (portAt 1).minMargin 2
    ∧ (let s := { portAt 0 with refclk := 2000000 }
       let s := s.setPort 2 { s.port 2 with failTick := some 5 }
       (s.port 2).failTick = some 5 ∧ s.portState 2 = 0 ∧ 1000000 ≤ (s.refclk - 5).toNat) := by decide +kernel

theorem meets_GussetRotation :
    (let s := (trainedPort 3 id).setFld .plynPortCfg 3 0 plynPortCfg_rotEn 1
     let s := { s with refclk := 0xFFFFFFFF }
     s.linked 2 = true ∧ s.spareReady 2 true = true ∧ s.half 2 true = false ∧ (s.dir 2 true).rot = .idle
      ∧ (s.dir 2 true).swap = none ∧ (s.dir 2 true).shrink = none ∧ s.fld .plynRotCfg 3 0 plynRotCfg_interval ≠ 0
      ∧ s.fld .plynRotCfg 3 0 plynRotCfg_interval ≤ (s.refclk - (s.dir 2 true).rotTick).toNat
      ∧ s.nextLane 2 true 8 = some 0)
    ∧ ((trainedPort 3 fun d => { d with rot := .copying 0 }).dir 2 true).rot = .copying 0
    ∧ ((trainedPort 3 fun d => { d with rot := .copying 0 }).dir 2 false).faults.contains 0 = false
    ∧ ((trainedPort 3 fun d => { d with rot := .switching 0 80 }).dir 2 false).rot = .switching 0 80
    ∧ ((trainedPort 3 fun d => { d with rot := .training 0 }).dir 2 false).rot = .training 0 := by decide +kernel

/-- The same with no ready gusset lane, and the lanes of `l` failed at the transmitter. -/
def worn (l : List Nat) : State := l.foldl (fun s k => s.markLane 2 true k) ((trainedPort 3 id).setSpare 2 true 31 false)

theorem meets_LaneFaults :
    (trainedPort 3 id).linked 2 = true ∧ 1 ≤ portLanes 2 ∧ (trainedPort 3 id).laneFailed 2 false 1 = false
    ∧ (trainedPort 3 id).laneFailed 2 true 1 = false ∧ (trainedPort 3 id).spareReady 2 true = true
    ∧ ((trainedPort 3 id).dir 2 true).rot = .idle ∧ ((trainedPort 3 id).dir 2 true).train = none
    ∧ ((trainedPort 3 id).dir 2 true).swap = none ∧ ((trainedPort 3 id).dir 2 true).shrink = none
    ∧ 1 ∈ ((trainedPort 3 id).dir 2 true).map ∧ (trainedPort 3 id).spare 2 true = 8
    ∧ (tget (trainedPort 3 id).irq.srcs 144).st = .idle
    ∧ (let s := worn []
       s.linked 2 = true ∧ s.spareReady 2 true = false ∧ s.laneFailed 2 true 1 = false ∧ 1 ∈ (s.dir 2 true).map
        ∧ (((s.healthy 2 true).filter (· ≠ 1)).take (portLanes 2 / 2)).length = portLanes 2 / 2)
    ∧ (let s := worn [0, 2, 3, 4, 5]
       s.linked 2 = true ∧ s.spareReady 2 true = false ∧ s.laneFailed 2 true 1 = false ∧ 1 ∈ (s.dir 2 true).map
        ∧ (((s.healthy 2 true).filter (· ≠ 1)).take (portLanes 2 / 2)).length < portLanes 2 / 2)
    ∧ (let s := trainedPort 3 fun d => { d with faults := [1] }
       let r := s.dir 2 false
       r.faults = [1] ∧ r.rot = .idle ∧ r.train = none ∧ r.swap = none ∧ r.shrink = none ∧ 1 ∈ r.map
        ∧ s.spareReady 2 false = true ∧ s.spare 2 false = 8)
    ∧ [0, 2, 3, 4].length = portLanes 2 / 2 ∧ 1 ∉ [0, 2, 3, 4] ∧ (∀ l ∈ [0, 2, 3, 4], l ≤ portLanes 2)
    ∧ (let s := trainedPort 3 fun d => { d with swap := some (1, 90) }
       (s.dir 2 false).swap = some (1, 90) ∧ (s.dir 2 false).shrink = none)
    ∧ (let s := trainedPort 3 fun d => { d with shrink := some ([0, 2, 3, 4], 90) }
       (s.dir 2 true).shrink = some ([0, 2, 3, 4], 90) ∧ s.half 2 true = false ∧ (tget s.irq.srcs 145).st = .idle) := by
  decide +kernel

/-- Port 2 of a device at address 0 of a T axis of 4. -/
def addressed (st : Nat) : State :=
  ((trainedPort st id).setFld .plynFabAddr 0 0 plynFabAddr_valid 1).setFld .plynAxisSize 0 0 plynAxisSize_sSize 4

theorem meets_QuarantineAndIdent :
    (addressed 2).portState 2 = 2 ∧ (portAt 0).portState 2 = 0 ∧ ((addressed 2).dir 2 true).map ≠ []
    ∧ portOther 2 = 3 ∧ (addressed 2).fabValid = true ∧ 2 ≤ (addressed 2).axisSize (portAxis 2)
    ∧ (addressed 2).neighbour (portAxis 2) true = 128 ∧ (trainedPort 2 id).fabValid = false
    ∧ (tget (addressed 2).irq.srcs 146).st = .idle
    ∧ (let s := { addressed 3 with refclk := 0xFFFFFFFFFF }
       let s := s.setPort 2 { s.port 2 with violStart := some 0 }
       s.fld .plynViolCfg 3 0 plynViolCfg_violWindow * 1000 ≤ (s.refclk - 0).toNat) := by decide +kernel

theorem crcStep_lt (n c : Nat) (h : c < 2 ^ 32) : crcStep n 0x82F63B78 c < 2 ^ 32 := by
  induction n generalizing c with
  | zero => exact h
  | succ n ih =>
    unfold crcStep
    apply ih
    split
    · exact Nat.xor_lt_two_pow (by omega) (by decide)
    · omega

theorem crcRefl_lt (bs : List Byte) (c : Nat) (h : c < 2 ^ 32) : crcRefl 0x82F63B78 c bs < 2 ^ 32 := by
  unfold crcRefl
  induction bs generalizing c with
  | nil => exact h
  | cons b bs ih => exact ih _ (crcStep_lt 8 _ (Nat.xor_lt_two_pow h (Nat.lt_trans b.isLt (by decide))))

/-- A flit's CRC passes when its last word is the CRC of the others. -/
theorem flitCrcOk_append (b : List Word) (x : Word) (h : b.length = 34) :
    flitCrcOk (b ++ [x]) = (crc32c (flitBytes b 0 34) == x.toNat) := by
  have e : flitBytes (b ++ [x]) 0 34 = flitBytes b 0 34 := by
    unfold flitBytes
    rw [List.flatMap_def, List.flatMap_def]
    refine congrArg List.flatten (List.map_congr_left fun i hi => ?_)
    have : i < b.length := by have := List.mem_range.1 hi; omega
    simp [flitWord, List.getD, List.getElem?_append_left this]
  simp [flitCrcOk, e, flitWord, List.getD, h]

/-- A flit with its CRC, and one with another. -/
theorem flit_crc_right (b : List Word) (h : b.length = 34) :
    flitCrcOk (b ++ [BitVec.ofNat 32 (crc32c (flitBytes b 0 34))]) = true := by
  have : crc32c (flitBytes b 0 34) < 2 ^ 32 := Nat.xor_lt_two_pow (crcRefl_lt _ _ (by decide)) (by decide)
  rw [flitCrcOk_append b _ h, BitVec.toNat_ofNat, Nat.mod_eq_of_lt this, beq_self_eq_true]

theorem flit_crc_wrong (b : List Word) (h : b.length = 34) : flitCrcOk (b ++ [BitVec.ofNat 32 (crc32c (flitBytes b 0 34)) + 1]) = false := by
  rw [flitCrcOk_append b _ h, BitVec.toNat_add, BitVec.toNat_ofNat]
  have : crc32c (flitBytes b 0 34) < 2 ^ 32 := Nat.xor_lt_two_pow (crcRefl_lt _ _ (by decide)) (by decide)
  have h1 : BitVec.toNat (1 : Word) = 1 := rfl
  rw [h1, beq_eq_false_iff_ne]
  omega

/-- The words before the CRC of a flit, and the flit. -/
def flitBody (l : List (Nat × Nat)) : List Word := (wordsAre 34 l).map (BitVec.ofNat 32)
def flitOf (l : List (Nat × Nat)) : List Word := flitBody l ++ [BitVec.ofNat 32 (crc32c (flitBytes (flitBody l) 0 34))]
theorem flitOf_crc (l : List (Nat × Nat)) : flitCrcOk (flitOf l) = true :=
  flit_crc_right _ (by simp [flitBody, wordsAre])

/-- A data flit that carries a whole WRITE_ACK (class 2) from device 7, one that opens a WRITE of 128 bytes to device 1, or a header with
a reserved bit. -/
def writeFlit : List Word := flitOf [(0, 8191 * 2 ^ 13), (1, 15), (2, 1 + 7 * 2 ^ 16), (3, PktKind.code .write + 3 * 2 ^ 4 + 128 * 2 ^ 16)]
def ackFlit : List Word := flitOf [(0, 8191 * 2 ^ 13), (1, 15), (2, 7 * 2 ^ 16), (3, PktKind.code .writeAck + 2 * 2 ^ 4)]
def badHeaderFlit : List Word := flitOf [(0, 8191 * 2 ^ 13), (1, 15), (2, 7 * 2 ^ 16), (3, PktKind.code .writeAck + 0x800)]

theorem meets_FlitsAndReplay_crc :
    flitCrcOk ackFlit = true ∧ flitCrcOk writeFlit = true ∧ flitCrcOk badHeaderFlit = true ∧ flitCrcOk (flitOf [(0, 4 * 2 ^ 26)]) = true
    ∧ flitCrcOk (flitBody [] ++ [BitVec.ofNat 32 (crc32c (flitBytes (flitBody []) 0 34)) + 1]) = false :=
  ⟨flitOf_crc _, flitOf_crc _, flitOf_crc _, flitOf_crc _, flit_crc_wrong _ (by simp [flitBody, wordsAre])⟩

/-- Port 4 is UP as well, and the drum of port 2 sends what goes to device 1 that way. -/
def through : State := ((portAt 3).setPortState 4 3).setReg .plynRtD 3 0 0

theorem meets_FlitsAndReplay :
    (portAt 3).linked 2 = true
    ∧ ((portAt 3).port 2).behind (flitFld ackFlit 0 25 13) = 0 ∧ flitFld ackFlit 0 12 0 = ((portAt 3).port 2).expect
    ∧ headerOk ackFlit = true ∧ ((portAt 3).port 2).rx = none ∧ headerOk badHeaderFlit = false
    ∧ (headerOf ackFlit).any (fun h => h.carried == 0 && tget ((portAt 3).port 2).held h.vc + 1 ≤ vcSlots h.vc
        && (portAt 3).route 3 (some 2) h == .deliver) = true
    ∧ (flitFld ackFlit 0 31 29 = 0 ∧ flitFld ackFlit 1 31 12 = 0 ∧ flitFld ackFlit 1 3 0 = 15 ∧ flitFld ackFlit 0 28 26 = 0)
    ∧ (flitFld badHeaderFlit 0 31 29 = 0 ∧ flitFld badHeaderFlit 1 31 12 = 0 ∧ flitFld badHeaderFlit 1 3 0 = 15
        ∧ flitFld badHeaderFlit 0 28 26 = 0 ∧ flitFld badHeaderFlit 0 12 0 = 0)
    ∧ (flitFld writeFlit 0 31 29 = 0 ∧ flitFld writeFlit 1 31 12 = 0 ∧ flitFld writeFlit 1 3 0 = 15 ∧ flitFld writeFlit 0 28 26 = 0
        ∧ flitFld writeFlit 0 12 0 = 0 ∧ (through.port 2).behind (flitFld writeFlit 0 25 13) = 0)
    ∧ through.linked 2 = true ∧ through.portState 2 = 3 ∧ (through.port 2).expect = 0 ∧ (through.port 2).rx = none
    ∧ headerOk writeFlit = true
    ∧ (headerOf writeFlit).any (fun h => 112 < h.carried && tget (through.port 2).held h.vc + 1 ≤ vcSlots h.vc
        && through.route 3 (some 2) h == .send 4 0 false && tget (through.port 4).used (3 * h.cls) < vcSlots (3 * h.cls)) = true
    ∧ (through.port 4).txq = [] ∧ (through.port 4).replay = []
    ∧ (portAt 2).linked 2 = true ∧ (portAt 2).portState 2 ≠ 3 ∧ ((portAt 2).port 2).expect = 0
    ∧ flitFld (flitOf [(0, 4 * 2 ^ 26)]) 0 28 26 = 4
    ∧ (let x := { (portAt 3).port 2 with replay := [⟨5, 6, default, 0, 0, 0, 0⟩] }
       x.replay.findIdx? (fun f => f.seq == 5 % 8192) = some 0 ∧ x.replay.all (fun f => f.replays < 15) = true)
    ∧ ((portAt 3).port 2).replay.findIdx? (fun f => f.seq == 5 % 8192) = none := by decide +kernel

/-! ### Packets received -/

/-- A packet of 64 bytes at 0x500000 that waits, from device 7 through port 2. -/
def memPacket (k : PktKind) (a : Nat) : Packet :=
  { (default : Packet) with src := 7, kind := k, cls := 4, length := 64, addr := a, payload := List.replicate 64 (0xA5 : Byte) }
def gotPacket (p : Packet) (s : State) : State := { s with fab := { s.fab with rxLocal := [(2, p)] } }
/-- Mirror entry 3 takes one page at 0x500000 from device `src`; a refill of it by that device runs. -/
def mirrored (src : Nat) (valid : Bool) : State :=
  let s := ready.setMirror 3 { (default : Mirror) with base := 0x500000, size := 1, src := src, valid := valid }
  { s with ram := { s.ram with refillIn := some (3, src, 0) } }

theorem meets_RemoteReadsAndWrites :
    (let p := memPacket .write 0x500000
     let s := gotPacket p ready
     let l := [(p.addr, 64)]
     s.received p .write = some 2 ∧ unitWriteOk p.addr 64 = true ∧ s.mirrorAt p.addr = none ∧ s.mirrorHit p.addr 64 = false
      ∧ s.storesHeld (drumIsland (atTower 2)) l = false ∧ (noHbm s).storesHeld (drumIsland (atTower 2)) l = true
      ∧ (noHbm s).received p .write = some 2
      ∧ (let s := gotPacket p (mirrored 7 false)
         let m := s.mirrorEnt 3
         s.received p .write = some 2 ∧ s.mirrorAt p.addr = some (3, m) ∧ s.mayFill 3 m p true = true ∧ s.mayFill 3 m p false = false
          ∧ s.trafficHeld (drumIsland (atTower 2)) l = false ∧ (noHbm s).trafficHeld (drumIsland (atTower 2)) l = true
          ∧ (noHbm s).mayFill 3 m p true = true ∧ p.addr + 64 ≤ m.base + m.size * 4096)
      ∧ regionOf p.addr = .hbm ∧ regionOf (p.addr + 63) = .hbm)
    ∧ (let p := memPacket .write 0x4FFFE0
       let s := gotPacket p (mirrored 7 false)
       s.received p .write = some 2 ∧ s.mirrorAt p.addr = none ∧ s.mirrorHit p.addr 64 = true)
    ∧ unitWriteOk 0x030000000000 64 = false ∧ mvReadOk 0x030000000000 64 = false
    ∧ (let p := memPacket .read 0x500000
       let s := gotPacket p ready
       s.received p .read = some 2 ∧ mvReadOk p.addr p.length = true ∧ s.readError p.addr p.length .clean = none ∧ 0 < p.length
        ∧ s.trafficHeld (drumIsland (atTower 2)) [(p.addr, p.length)] = false
        ∧ (noHbm s).trafficHeld (drumIsland (atTower 2)) [(p.addr, p.length)] = true ∧ (noHbm s).received p .read = some 2) := by
  decide +kernel

/-- Transfer 0's part 0 copies 256 bytes from device 7 to memory here, or from memory here to device 7; request 0 of it is out. -/
def fromPeer : List Nat := ((mvDesc 0 1).set 0 0x400).set 1 0x70009
def toPeer : List Nat := ((mvDesc 0 1).set 0 0x1000).set 2 7
def asking (d : List Nat) (k : PktKind) (tick : DWord) (s : State) : State :=
  let s := { s with ram := { s.ram with jobs := (mvAt d .running).ram.jobs } }
  { s with fab := { s.fab with reqs := tput [] 0 (some ⟨.part 0 0, k, 7, 0x500000, 256, tick⟩) } }
def answer (k : PktKind) (n : Nat) : Packet :=
  { (default : Packet) with src := 7, kind := k, cls := 2, length := n, payload := List.replicate n 0 }
/-- A snapshot of step 4 with a stream to the neighbour's entry 3 of which everything is read, and one at home. -/
def snapRun (own : Bool) : PageRun := { (default : PageRun) with entry := 3, own := own, dst := 7, base := 0x700000, pages := 1, next := 1 }
def snapping (own : Bool) : State :=
  { ready with ram := { ready.ram with snap := some { (default : Snap) with step := 4, runs := [snapRun own] } } }

theorem meets_AnswersEndTheirRequests :
    (let s := gotPacket (answer .readData 256) (asking fromPeer .read 0 ready)
     s.received (answer .readData 256) .readData = some 2 ∧ (tget s.fab.reqs 0).any (fun r => r.kind == .read && r.dst == 7) = true
      ∧ s.hasMv 0 = true ∧ ((s.mvJob 0).part 0).st = .running ∧ s.srcHere fromPeer = false ∧ s.dstHere fromPeer = true
      ∧ mvCount fromPeer 0 * mvSrcRow fromPeer ≤ 0 + 256 ∧ tget (gotPacket (answer .readData 256) ready).fab.reqs 0 = none)
    ∧ (let s := gotPacket (answer .writeAck 0) (asking toPeer .write 0 ready)
       s.received (answer .writeAck 0) .writeAck = some 2 ∧ s.readsLeft (s.mvJob 0) 0 = false
        ∧ mvCount toPeer 0 * mvDstRow toPeer ≤ 0 + 256)
    ∧ (gotPacket (answer .nack 4) ready).received (answer .nack 4) .nack = some 2
    ∧ leOf ((answer .nack 4).payload.take 2) ≠ Status.addressFault.code
    ∧ (snapping false).ram.snap.any (fun x => x.runs.any fun a => a.entry == 3 && !a.own && !a.failed) = true
    ∧ (let s := { asking fromPeer .read 0 ready with refclk := 0xFFFFFFFFFF }
       (s.reg .plynReqTimeout 0 0).toNat ≤ (s.refclk - 0).toNat)
    ∧ 0 < (ready.reg .plynReqTimeout 0 0).toNat := by decide +kernel

/-- SNAP_CLOSE of entry 3 for step 4. -/
def closePacket : Packet :=
  { (default : Packet) with src := 7, kind := .snapClose, cls := 4, length := 8, payload := [3, 0, 0, 0, 4, 0, 0, 0] }

theorem meets_SnapshotsAndRefillsClose :
    (gotPacket closePacket (mirrored 7 false)).received closePacket .snapClose = some 2
    ∧ leOf (closePacket.payload.take 1) % 64 = 3 ∧ ((mirrored 7 false).mirrorEnt 3).size ≠ 0
    ∧ (mirrored 7 false).mayFill 3 ((mirrored 7 false).mirrorEnt 3) closePacket true = true
    ∧ ((mirrored 7 false).ram.refillIn = some (3, 7, 0)) ∧ (ready.mirrorEnt 3).size = 0
    ∧ (snapRun true).unread = false ∧ (snapRun false).unread = false ∧ (snapRun true).tags = []
    ∧ (snapping true).ram.snapNext = none
    ∧ (let s := { mirrored 7 false with ram := { (mirrored 7 false).ram with refillIn := some (3, 7, 2) } }
       s.ram.refillIn = some (3, 7, 2) ∧ (tget s.irq.srcs 134).st = .idle) := by decide +kernel

/-- A MGMT packet from device 7, which is the parent, or a child whose count alone is due, of a step group that runs. -/
def mgmtPacket : Packet := { (default : Packet) with src := 7, kind := .mgmt, cls := 0, length := 8, payload := List.replicate 8 0 }
def inTree (parent : Half) (children : List Half) (root : Nat) : State :=
  let s := gotPacket mgmtPacket ((mirrored 7 true).setGroupState 1)
  let s := s.setFld .ctlStepState 0 0 ctlStepState_isRoot root
  { s with step := { s.step with parent := parent, children := children, countsDue := 1 } }

theorem meets_LumdomMessages :
    (inTree 7 [] 0).received mgmtPacket .mgmt = some 2 ∧ (inTree 7 [] 0).groupState ≠ 0 ∧ (inTree 7 [] 0).isRoot = false
    ∧ BitVec.ofNat 16 mgmtPacket.src = (inTree 7 [] 0).step.parent
    ∧ (inTree 0 [7] 1).step.children.contains (BitVec.ofNat 16 mgmtPacket.src) = true ∧ (inTree 0 [7] 1).isRoot = true
    ∧ (inTree 0 [7] 0).isRoot = false
    ∧ (let s := ((inTree 1 [7] 0).setPortState 4 3).setReg .plynRtD 0 0 0
       let b := (Mgmt.members 3).bytes
       s.step.children.contains (BitVec.ofNat 16 mgmtPacket.src) = true ∧ s.step.countsDue = 1
        ∧ s.route 0 none (s.newPacket .mgmt 0 1 0 b.length b) = .send 4 0 false)
    ∧ (let s := ((inTree 7 [] 0).setPortState 4 3).setReg .plynRtD 0 1 0
       let b := (Mgmt.refillFailed 4).bytes
       s.route 0 none (s.newPacket .mgmt 0 7 0 b.length b) = .send 4 0 false ∧ (s.mirrorEnt 36).valid = false)
    ∧ (gotPacket mgmtPacket ready).groupState = 0
    ∧ ((inTree 7 [] 0).mirrorEnt 3).valid = true ∧ ((inTree 7 [] 0).mirrorEnt 3).size ≤ 1 ∧ ((inTree 7 [] 0).mirrorEnt 4).valid = false := by decide +kernel

/-! ### The seam chain -/

/-- The module holds index 5, from a frame at tick 0, and 16,384 ticks have passed. -/
def indexed : State := { (ready.setFld .ctlSeamStat 0 0 ctlSeamStat_index 5).setFld .ctlSeamStat 0 0 ctlSeamStat_valid 1 with refclk := 16384 }

theorem meets_SeamChain :
    ready.belfryUp = true ∧ ready.hasIndex = false ∧ indexed.hasIndex = true ∧ indexed.testMode = false
    ∧ (let w := seamFrame 5
       w.1.toNat % 256 = 0xD5 ∧ seamCrc w.1 w.2 = w.2.toNat / 2 ^ 16 ∧ w.1.toNat / 2 ^ 8 % 4096 = 5)
    ∧ (let w := seamFrame 4095
       w.1.toNat % 256 = 0xD5 ∧ seamCrc w.1 w.2 = w.2.toNat / 2 ^ 16 ∧ w.1.toNat / 2 ^ 8 % 4096 = 4095)
    ∧ indexed.fld .ctlSeamStat 0 0 ctlSeamStat_index = 5 ∧ 4096 ≤ (indexed.refclk - indexed.fab.seam.sentTick).toNat
    ∧ 16384 ≤ (indexed.refclk - indexed.fab.seam.lastFrame).toNat ∧ indexed.fab.seam.lostSeen = false
    ∧ indexed.bit .ctlSeamStat 0 0 ctlSeamStat_head = false ∧ (tget indexed.irq.srcs 5).st = .idle := by decide +kernel

/-! ### The host port -/

/-- The host link is up, the device's IPv4 address is 10.0.0.2, and its ports stand. -/
def ip2 : List Byte := [10, 0, 0, 2]
def ip9 : List Byte := [10, 0, 0, 9]
def hostUp : State :=
  let s := ready.setFld .hostLinkStat 0 0 hostLinkStat_linkUp 1
  { s with host := { s.host with ipv4 := some ip2 } }
/-- A frame for the device, with good FCS and no tag. -/
def frameOf (b : FrameBody) : Frame := { fcsOk := true, length := 128, dst := ownMac, tags := [], body := b }

theorem meets_FramesPausesAndLink :
    hostUp.linkUp = true ∧ ready.linkUp = false ∧ hostUp.tagsOk (frameOf .other).tags = true ∧ (frameOf .other).length ≤ 9216
    ∧ (frameOf (.arpRequest ip2)).body = .arpRequest ip2 ∧ hostUp.host.ipv4 = some ip2
    ∧ hostUp.fld .hostUdpPort 0 0 hostUdpPort_port ≠ 4791 ∧ hostUp.tagsOk [7, 8] = false
    ∧ (let s := hostUp.setFld .hostPfcCfg 0 0 hostPfcCfg_pfcEn 1
       let q := s.fld .hostPfcCfg 0 0 hostPfcCfg_rocePrio
       q < 8 ∧ s.carries q = true ∧ s.bit .hostPfcCfg 0 0 hostPfcCfg_pfcEn = true ∧ s.host.pausing.testBit q = false)
    ∧ (List.range 8).any (fun q => !hostUp.carries q) = true
    ∧ hostUp.carries (hostUp.fld .hostPfcCfg 0 0 hostPfcCfg_rocePrio) = true ∧ (hostUp.setFld .hostPfcCfg 0 0 hostPfcCfg_pfcEn 0).bit .hostPfcCfg 0 0 hostPfcCfg_pfcEn = false
    ∧ (ready.pwr.st = .running ∧ ready.bit .ctlIslandReady 0 0 ctlIslandReady_hostSerdesReady = true
      ∧ (ready.setFld .clkLoopStat 0 26 clkLoopStat_locked 1).locked 26 = true)
    ∧ (ready.setFld .clkLoopStat 0 26 clkLoopStat_locked 0).locked 26 = false := by decide +kernel

/-- Queue pair 5 with the host at 10.0.0.9 is in RTS; window 2 gives 0x500000 to 0x500FFF to key 77 for both accesses. -/
def paired5 (sent : List RMsg) : State :=
  let q : Qp := { (default : Qp) with st := .rts, mtu := 2, retry := 3, ip := mapped ip9, sqPsn := 1, rqPsn := 40, ackTimeout := 5, sent := sent, rate := 128 }
  let s := hostUp.setQp 5 q
  { s with
    refclk := 1000000
    host := { s.host with
      neigh := [(0, { ip := mapped ip9, mac := [1, 2, 3, 4, 5, 6], valid := true })]
      windows := tput [] 2 { base := 0x500000, size := 1, rkey := 77, perms := 3 } } }

/-- A RoCEv2 packet for queue pair 5 with its ICRC; and with none of its neighbour's entry left. -/
def hdr5 : RoceHdr := { qpn := 0x1005, icrcOk := true, ce := false }
def lonely (s : State) : State := { s with host := { s.host with neigh := [] } }

theorem meets_RoceRequests :
    hdr5.icrcOk = true ∧ hdr5.qpn.toNat = 0x1000 + 5 ∧ hdr5.ce = false
    ∧ (let s := paired5 []
       let x := s.qp 5
       let l := [(0x500010, 64)]
       s.linkUp = true ∧ x.responds = true ∧ (s.neighbourOf x.ip).isSome = true ∧ x.cnpTick = none ∧ psnPlace 40 x.rqPsn = .expected
        ∧ s.windowFor 77 0x500010 64 1 = some 2 ∧ s.windowFor 77 0x500010 64 0 = some 2 ∧ s.windowFor 77 0x501000 64 1 = none
        ∧ psnPlace 39 x.rqPsn = .duplicate ∧ psnPlace 41 x.rqPsn = .ahead
        ∧ s.storesHeld hostIsland l = false ∧ s.trafficHeld hostIsland l = false ∧ s.storesHeld hostIsland [(0x501000, 64)] = false
        ∧ (noHbm s).storesHeld hostIsland l = true ∧ (noHbm s).trafficHeld hostIsland l = true
        ∧ (noHbm s).linkUp = true ∧ (noHbm s).windowFor 77 0x500010 64 1 = some 2 ∧ (noHbm s).windowFor 77 0x500010 64 0 = some 2
        ∧ s.readError 0x500010 64 .clean = none ∧ s.readError 0x500010 64 (.bad 0x500020) = some 0x500020
        ∧ regionOf 0x500010 = .hbm ∧ regionOf 0x50004F = .hbm ∧ (tget s.irq.srcs 160).st = .idle)
    ∧ (let s := lonely (paired5 [])
       s.linkUp = true ∧ (s.qp 5).responds = true ∧ (s.neighbourOf (s.qp 5).ip).isSome = false
        ∧ s.storesHeld hostIsland [(0x500010, 64)] = false)
    ∧ ready.linkUp = false := by decide +kernel

/-- A WRITE or READ of 256 bytes that queue pair 5 sent for part 0 of transfer 0. -/
def rmsg (read : Bool) : RMsg := { (default : RMsg) with read := read, psn := 0, len := 256 }
def hostPart (read : Bool) (s : State) : State :=
  let d := if read then ((mvDesc 0 1).set 0 0x800).set 1 0x50009 else ((mvDesc 0 1).set 0 0x2000).set 2 5
  { s with ram := { s.ram with jobs := (mvAt d .running).ram.jobs } }

theorem meets_RoceAnswers :
    (let s := hostPart false (paired5 [rmsg false])
     let j := s.mvJob 0
     s.linkUp = true ∧ (s.qp 5).st = .rts ∧ (s.qp 5).sent = [rmsg false] ∧ (s.qp 5).waiting = []
      ∧ (s.neighbourOf (s.qp 5).ip).isSome = true ∧ s.isPaused (.cnp 5) = false
      ∧ (s.qp 5).ackTimeout ≠ 0 ∧ 4096 * 2 ^ (s.qp 5).ackTimeout / 10 ≤ (s.refclk - (s.qp 5).ackTick).toNat
      ∧ ((lonely s).neighbourOf ((lonely s).qp 5).ip).isSome = false ∧ ((lonely s).qp 5).sent ≠ []
      ∧ (rmsg false).within (s.qp 5).mtu 0 0 = true ∧ s.hasMv 0 = true ∧ (j.part 0).st = .running
      ∧ s.readsLeft j 0 = false ∧ mvCount j.words 0 * mvDstRow j.words ≤ 0 + 256 ∧ (s.qp 5).tries < (s.qp 5).retry)
    ∧ (let s := hostPart true (paired5 [rmsg true])
       let j := s.mvJob 0
       s.srcHere j.words = false ∧ s.dstHere j.words = true ∧ (rmsg true).psn = 0
        ∧ mvCount j.words 0 * mvSrcRow j.words ≤ 0 + 256)
    ∧ (let s := paired5 [rmsg false]
       let s := s.setQp 5 { s.qp 5 with tries := 3, ackTick := 999990 }
       (s.qp 5).retry ≤ (s.qp 5).tries ∧ (s.refclk - (s.qp 5).ackTick).toNat < 4096 * 2 ^ (s.qp 5).ackTimeout / 10)
    ∧ ((paired5 []).qp 5).responds = true
    ∧ ((paired5 []).qp 5).cutTick = none ∧ ((paired5 []).qp 5).rate < 256 * 2 ^ ((paired5 []).qp 5).rateBits ∧ (ready.qp 5).st ≠ .rts
    ∧ 5500 ≤ ((paired5 []).refclk - ((paired5 []).qp 5).calmTick).toNat
    ∧ (let s := paired5 []
       let s := s.setQp 5 { s.qp 5 with tries := 3, cutTick := some 0, calmTick := s.refclk }
       (s.qp 5).retry ≤ (s.qp 5).tries ∧ (s.qp 5).cutTick = some 0 ∧ 5000 ≤ (s.refclk - 0).toNat ∧ (s.refclk - (s.qp 5).calmTick).toNat < 5500) := by
  decide +kernel

/-- Datagrams of 10.0.0.9, port 9000, to mailbox 3: a Belpel header of a type with seq 8 and a body; and mailbox 3 is open. -/
def dgram (type mb : Nat) (body : List Byte) : Datagram :=
  { ip := mapped ip9, port := 9000, bytes := [0xB31E + 2 ^ 16 + type * 2 ^ 24, mb + body.length * 2 ^ 16, 8, 0].flatMap (bytesOf 4) ++ body }
def boxed (d : Datagram) (last : Option Word) : State :=
  let m : Mbox := { (default : Mbox) with isOpen := true, slots := 16, bellSeq := last, inSeq := last, inReply := some [1, 2] }
  let s := hostUp.setMbox 3 m
  { s with host := { s.host with
      rx := [d], endpoint := some (mapped ip9, 9000), lastSent := 4
      neigh := [(0, { ip := mapped ip9, mac := [1, 2, 3, 4, 5, 6], valid := true })]
      events := [{ (default : EvtRec) with seq := 2, source := 20 }, { (default : EvtRec) with seq := 6, sentTick := some 0 }] } }

theorem meets_BelpelDatagrams :
    (let bell := dgram 1 3 (bytesOf 4 2)
     (boxed bell (some 7)).badReason bell = 0 ∧ dgWord bell.bytes 0 / 2 ^ 24 = 1 ∧ accepts (some 7) 8 = true
      ∧ accepts (some 8) 8 = false ∧ (boxed bell none).host.rx = [bell]
      ∧ ({ boxed bell none with host := { (boxed bell none).host with mboxes := [] } }).badReason bell = 8)
    ∧ (let cmd := dgram 2 3 (List.replicate 16 0)
       (boxed cmd none).badReason cmd = 0 ∧ dgWord cmd.bytes 0 / 2 ^ 24 = 2 ∧ ((boxed cmd (some 8)).mbox 3).inSeq = some 8
        ∧ ((boxed cmd (some 8)).mbox 3).inReply = some [1, 2])
    ∧ (let ack := dgram 5 0 (bytesOf 4 2)
       (boxed ack none).badReason ack = 0 ∧ dgWord ack.bytes 0 / 2 ^ 24 = 5
        ∧ ((boxed ack none).host.events.filter fun e => e.seq == 2 || earlier e.seq 2)
            = [{ (default : EvtRec) with seq := 2, source := 20 }])
    ∧ (let echo := dgram 7 0 []
       (boxed echo none).badReason echo = 0 ∧ dgWord echo.bytes 0 / 2 ^ 24 = 7)
    ∧ (let s := { boxed (dgram 7 0 []) none with refclk := 0xFFFFFFFFFF }
       s.host.endpoint = some (mapped ip9, 9000) ∧ (s.neighbourOf (mapped ip9)).isSome = true
        ∧ (lonely s).neighbourOf (mapped ip9) = none ∧ s.linkUp = true ∧ s.host.events.any (fun e => e.sentTick.isNone) = true
        ∧ s.host.events.any s.retryDue = true)
    ∧ hostUp.host.endpoint = none := by decide +kernel

/-! ### Mailbox commands -/

/-- `Taken` as a test, and that it decides. -/
def takes (h : CmdHdr) (c : MbCmd) (s : State) : Bool :=
  s.pwr.st == .running && !s.host.waiting.any s.mayResume && (s.mbox h.mb.val).isOpen && !s.mbHeld h.mb.val
    && (s.mbox h.mb.val).queue.isEmpty && !s.heldObjs c.objects && !s.objsAhead h.mb.val s.host.accepted c.objects
    && s.nextMbox (fun i => i == h.mb.val || s.mbReady i) == some h.mb.val && !s.storesHeld belfryIsland (s.cmdSpans c)
    && (!mbox0Only.contains c.op || h.mb.val == 0)
theorem taken_of (h : CmdHdr) (c : MbCmd) (s : State) (e : takes h c s = true) : Taken h c s := by
  simp only [takes, Bool.and_eq_true, Bool.not_eq_true', beq_iff_eq, List.isEmpty_iff, Bool.or_eq_true] at e
  obtain ⟨⟨⟨⟨⟨⟨⟨⟨⟨a, b⟩, c1⟩, d⟩, f⟩, g⟩, k⟩, l⟩, m⟩, n⟩ := e
  refine ⟨a, b, c1, d, f, g, k, l, m, fun q => ?_⟩
  rcases n with n | n
  · rw [q] at n; cases n
  · exact n

/-- Mailboxes 0 and 3 are open with rings in tower 0's queue memory. -/
def box (base : Nat) (q : List (Nat × MbItem)) : Mbox := { (default : Mbox) with isOpen := true, base := base, slots := 4, queue := q }
def opened (s : State) : State := (s.setMbox 0 (box 0x02000F300000 [])).setMbox 3 (box 0x02000F310000 [])
def h0 : CmdHdr := { mb := 0, tag := 5, deadline := 0 }
def h3 : CmdHdr := { mb := 3, tag := 5, deadline := 0 }

/-- Mailbox 3 has bytes to take in its slot 0. -/
def slotHas (bs : List Byte) : State :=
  let s := (opened ready).setMbox 3 (box 0x02000F310000 [(0, .slot 0 1 (ip9, 9000))])
  s.store 0x02000F310000 bs
/-- CTX_DESTROY of context 5, which is gone, waits; BIAS_LOAD of table 1, which a job uses, waits since tick 0. -/
def waitsFor (d : Word) (c : MbCmd) (s : State) : State :=
  { s with host := { s.host with waiting := [{ hdr := { h0 with deadline := d }, cmd := c, item := none, taken := 0 }] } }
def biasUsed : State :=
  let a : Att := { words := [0x10 + 1 * 2 ^ 6], header := [], paged := false, pages := [], stats := [], finalised := 0 }
  let s := { opened ready with refclk := 1000 }
  s.setJob 0 { (default : MtxJob) with att := some a }

theorem meets_CommandsAreTakenAndAnswered :
    (let bs := encodeCmd .devInfo 5 0
     let s := slotHas bs
     s.pwr.st = .running ∧ s.host.waiting.any s.mayResume = false ∧ s.nextMbox s.mbReady = some 3 ∧ (s.mbox 3).replies = false
      ∧ (s.mbox 3).queue = [(0, .slot 0 1 (ip9, 9000))] ∧ s.trafficHeld belfryIsland [(0x02000F310000, 1024)] = false
      ∧ s.storesHeld belfryIsland (s.cmdSpans .devInfo) = false
      ∧ s.knownBad 0x02000F310000 1024 = none ∧ parseCmd (s.bytes 0x02000F310000 1024) = some .devInfo
      ∧ (s.setMbox 3 (box 0x02000F310000 [])).knownBad 0 0 = none)
    ∧ parseCmd ((slotHas (List.replicate 16 0)).bytes 0x02000F310000 1024) = none
    ∧ (opened ready).nextMbox (opened ready).mbReady = none
    ∧ (waitsFor 0 (.ctxDestroy 5) (opened ready)).host.waiting.any (waitsFor 0 (.ctxDestroy 5) (opened ready)).mayResume = true
    ∧ (waitsFor 100 (.biasLoad 1 1 1 0) biasUsed).host.waiting.any (waitsFor 100 (.biasLoad 1 1 1 0) biasUsed).mbLate = true
    ∧ (let s := waitsFor 0 (.ctxDestroy 5) (opened ready)
       (s.host.waiting.find? s.mayResume).any (fun w => w.item.isNone && match (s.unwait w).resumeRes w with
         | .ok _ _ => !(s.unwait w).storesHeld belfryIsland ((s.unwait w).cmdSpans w.cmd)
         | _ => false) = true)
    ∧ (opened ready).host.waiting = []
    ∧ (opened ready).directReady h3.mb.val (.memLocalSet 0) = true ∧ h3.mb.val ≠ 0
    ∧ (ready.mbox 3).isOpen = false ∧ (waitsFor 0 (.ctxDestroy 5) (opened ready)).mayTake = false
    ∧ ((slotHas []).mbox 3).queue ≠ [] := by decide +kernel

/-- Lumdom takes commands of every kind as they arrive. -/
theorem meets_Taken :
    [MbCmd.mboxOpen 4 0 4 0x02000F320000, .mboxClose 3, .devInfo, .devReset 0, .regRead 1 0, .eventMask 0 1 0, .telemetryRead,
     .sscSet 1 30, .ctxCreate 5 0 1 0 1, .ctxDestroy 2, .ctxQueueSet 2 0 1 4 4 0 0, .ctxSpawn 2 1 1 0 0, .ctxSchedSet 2 1 1 [],
     .lanternSet 1 1 0 0, .ctxFaultRead 2, .kvTimeoutSet 2 1 1, .stepGroupCreate 1 0 4 1 0 0 0 0 [], .stepGroupDissolve, .epochSet 0,
     .bankTableSet 0 1 [], .stepTimeoutSet 0, .phaseTableRead 0 1, .biasLoad 0 1 1 0, .codecMaint 1, .memLocalSet 0,
     .memCalSet 0 0 0, .memStatsSet 0 0 0 1, .memStatsRead 0 0, .mirrorTableSet 0 1 [], .snapshotListSet 0 [],
     .snapshotScheduleSet 0 2 0, .repairListGet 0 1, .repairListPut 0 [], .failureReport 0 0, .mirrorRefill 3 0, .redGroupSet 0 0 [],
     .redBucketsSet 0 0 0 1 0, .redScaleSet 0 0 0 0, .redGroupRead 0 0, .fabPortsRead, .fabAddrSet 4 1 1 0 0 0,
     .fabRouteSet 0 0 1 [0], .fabPortCtl 2 0, .fabCfgSet 0 1 1 1 0, .hostAddrSet 0 0 [], .hostPortSet 9000 0 1 2 1,
     .hostNeighSet 0 1 [], .qpSet 5 0 0 0 0 0 0 0 0 [] 0 1, .qpReset 5, .qpQuery 5, .windowSet 0 0 0 0 0, .allowSet 0 [],
     .eventEndpointSet 0 [], .fwStage 0 0, .fwActivate, .attest [] 1 0, .identityRead 1 0].all (fun c => takes h0 c (opened ready)) = true := by
  decide +kernel

theorem meets_DeviceCommands :
    (let a := 0x02000F320000
     a % 1024 = 0 ∧ inQueueMem a = true ∧ inOneRegion a 4096 = true ∧ ((opened ready).mbox 4).isOpen = false
      ∧ ((opened ready).mbox 3).isOpen = true ∧ (opened ready).mbHeld 3 = false)
    ∧ (let s := { biasUsed with host := { biasUsed.host with waiting := [{ hdr := h3, cmd := .biasLoad 1 1 1 0, item := none, taken := 0 }] } }
       s.mbHeld 3 = true ∧ takes h0 (.mboxClose 3) s = true)
    ∧ (let a := regBase .ctlIslandReady 0
       a % 4 = 0 ∧ regionOf a = .regSpace ∧ regionOf (a + 3) = .regSpace ∧ regAt a = some (.ctlIslandReady, 0, 0))
    ∧ regAt 0x030000000000 = none ∧ regionOf 0x030000000000 = .regSpace := by decide +kernel

/-- Context 5 does not exist; context 2 of tower 1 may have 64 threads; context 2 is FAULTED with a record. -/
def spawnable : State := (opened ready).setFld .vecThrRange 1 2 vecThrRange_countUnits 1
def faulted : State :=
  let s := (opened ready).setFld .ctlCtxState 0 2 ctlCtxState_state 3
  { s with ctx := { s.ctx with faults := tput [] 2 (some default) } }

theorem meets_ContextCommands :
    (let s := opened ready
     (List.range 8).all (fun t => 1 ≤ (s.freeSlots t).length) = true ∧ s.ctxState 5 = 0 ∧ s.anyThread 5 = false ∧ s.ctxState 2 = 1
      ∧ s.member 2 = false ∧ (List.range 16).all (fun d => d == 5 || !rangesMeet 0 64 (s.thrBase 0 d) (s.thrCount 0 d)) = true)
    ∧ faulted.ctxState 2 = 3 ∧ (tget faulted.ctx.faults 2).isSome = true
    ∧ (let a := 0x02001F000000
       kindOf 0 = some .matrix ∧ ringOk .matrix 1 a (4 * descBytes .matrix) = true ∧ ringOk .matrix 1 (a + 0x1000) (4 * 32) = true
        ∧ a % 128 = 0 ∧ (opened ready).qHasWork .matrix 1 2 = false ∧ (opened (mtxQueued 0)).qHasWork .matrix 1 2 = true
        ∧ regionOf a = .queueMem 1 ∧ inOneRegion a (4 * 16) = true ∧ (opened ready).poolHead 1 2 = (opened ready).poolTail 1 2
        ∧ (opened ready).starved 1 2 = [])
    ∧ 1 + spawnable.liveThreads 1 2 ≤ spawnable.thrCount 1 2 ∧ (opened ready).thrCount 1 2 < 1 + (opened ready).liveThreads 1 2
    ∧ (List.range 8).all (fun t => ((opened ready).pickCores 2 t 1 0xFFFFFFFFFFFFFFFF).length == 1) = true
    ∧ ((opened ready).pickCores 2 0 1 0).length < 1 ∧ (opened ready).otherReserved 15 0 = [] := by decide +kernel

theorem meets_StepGroupCommands :
    (opened ready).groupState = 0 ∧ (opened ready).red.held = [] ∧ (opened ready).ctxState 2 = 1 ∧ (4 : Half).toNat.testBit 2 = true
    ∧ (opened inGroup).groupState = 1 ∧ takes h0 .stepGroupDissolve (opened inGroup) = true
    ∧ (0 : Half).toNat = (opened ready).activeEpoch
    ∧ (let p := pairOfWords [0x1000000, 0, 0x2000000, 0, 4, 0, 0, 0]
       p.size = 4 ∧ inHbm p.baseA (p.size * 4096) = true ∧ inHbm p.baseB (p.size * 4096) = true
        ∧ pairReserved [0x1000000, 0, 0x2000000, 0, 4, 0, 0, 0] = false
        ∧ overlaps [(p.baseA, p.size * 4096), (p.baseB, p.size * 4096)] = false)
    ∧ (let s := inGroup.phaseEntry 0 false false
       1 ≤ s.step.table.length ∧ takes h0 (.phaseTableRead 0 1) (opened s) = true)
    ∧ biasUsed.biasInUse 1 = true ∧ (opened ready).biasInUse 1 = false ∧ inDeviceMem 0x500000 = true
    ∧ inOneRegion 0x500000 2 = true ∧ (opened ready).knownBad 0x500000 2 = none := by decide +kernel

/-- No context is defined. -/
def noCtx : State := opened (({ State.reset with pwr := { State.reset.pwr with st := .running } }).setReg .ctlIslandReady 0 0 0xFFFFFFFF)

theorem meets_MemoryCommands :
    noCtx.localCfgFree = true ∧ (opened ready).localCfgFree = false ∧ takes h0 (.memLocalSet 1) noCtx = true
    ∧ (opened ready).mstBase 0 = 0 ∧ drumBase 0 + 0xF000000 ≤ 0x02000F400000
    ∧ (let w := [0x1000000, 0, 4, 7, 1, 0, 0, 0]
       pageBase (w.getD 0 0) (w.getD 1 0) = 0x1000000 ∧ inHbm (pageBase (w.getD 0 0) (w.getD 1 0)) (4 * 4096) = true
        ∧ ((opened ready).mirrorEnt 3).filling = false)
    ∧ (let s := { opened ready with ram := { (opened ready).ram with repair := [1, 2, 3] } }
       1 + 2 ≤ s.ram.repair.length ∧ takes h0 (.repairListGet 1 2) s = true)
    ∧ (opened ready).pwr.training = false
    ∧ (let s := { opened ready with pwr := { (opened ready).pwr with training := true } }
       s.pwr.training = true ∧ takes h0 (.repairListPut 0 []) s = true)
    ∧ (let s := opened (mirrored 0 false)
       let s := { s with ram := { s.ram with refillIn := none } }
       let src := s.neighbour 2 false
       takes h0 (.mirrorRefill 3 (BitVec.ofNat 16 src)) s = true ∧ (s.mirrorEnt 3).size ≠ 0 ∧ s.ram.refillIn = none
        ∧ s.snapFills 3 = false) := by decide +kernel

/-- The words of a group entry of one member with a bucket, and a bucket's. -/
def grpWords : List Word :=
  (wordsAre 16 [(0, 0x10000 + 2 * 2 ^ 21), (1, 1), (5, 1), (6, 0x0F100000), (7, 0x0200), (8, 0x0F200000), (9, 0x0200), (10, 4)]).map (BitVec.ofNat 32)
def bktWords : List Nat := wordsAre 8 [(0, 64), (2, 0x30000000), (4, 0x31000000)]

theorem meets_FabricCommands :
    (let x (i : Nat) : Nat := (grpWords.getD i 0).toNat
     let new := grpOf ((List.range 16).map x)
     grpReserved x = false ∧ new.valid = true ∧ grpBad x new = false ∧ inQueueMem new.cqBase = true
      ∧ inOneRegion new.cqBase (64 * new.cqSize) = true ∧ inDeviceMem new.bucketBase = true
      ∧ inOneRegion new.bucketBase (32 * new.nBuckets) = true)
    ∧ ((opened ready).grp (grpKey 0 0)).valid = false ∧ (opened ready).groupState ≠ 2
    ∧ ((opened segmented).grp (grpKey 0 0)).valid = true ∧ ((opened segmented).grp (grpKey 0 0)).epoch = (opened segmented).activeEpoch
    ∧ ((opened segmented).grpFor 0 0).any (fun g => g.nBuckets == 1) = true ∧ (opened segmented).groupState = 0
    ∧ takes h0 (.redBucketsSet 0 0 0 1 0x500000) (opened segmented) = true
    ∧ (let s := opened (segmented.storeWords 0x500000 bktWords)
       let src := (List.range 8).map fun j => s.word (0x500000 + 4 * j)
       bucketReserved src = false ∧ bucketBad src = false ∧ workOk src 1 = true ∧ s.knownBad 0x500000 32 = none
        ∧ inOneRegion 0x500000 32 = true)
    ∧ scaleOk 5 = true ∧ ((opened ready).grpFor 0 0).isNone = true
    ∧ fabCoord 128 1 < 4 ∧ fabCoord 128 0 < 1 ∧ fabCoord 128 2 < 1
    ∧ (opened ready).linked 2 = false ∧ (opened (portAt 3)).linked 2 = true ∧ (opened ready).portState 2 ≠ 4
    ∧ takes h0 (.fabPortCtl 2 0) (opened (portAt 3)) = true := by decide +kernel

/-- The clauses of HostCommands; whether an image verifies rests on fuses and a signature scheme the spec leaves open, so that of those
about images the one that a malformed image is refused has its witness here. -/
theorem meets_HostCommands :
    ((opened ready).qp 5).st = .reset ∧ ((opened (paired5 [])).qp 5).st = .rts
    ∧ takes h0 (.qpSet 5 0 0 0 0 0 0 0 0 [] 0 1) (opened (paired5 [])) = true
    ∧ inDeviceMem 0x500000 = true ∧ inOneRegion 0x500000 4096 = true ∧ inDeviceMem 0x030000000000 = false
    ∧ (opened hostUp).linkUp = true ∧ (opened hostUp).host.endpoint = none
    ∧ (opened ready).bit .secBootStat 0 0 secBootStat_staged = false
    ∧ ((opened ready).setFld .secBootStat 0 0 secBootStat_staged 1).bit .secBootStat 0 0 secBootStat_staged = true
    ∧ (let s := (opened ready).storeWords 0x500000 [0, 0, 0]
       inHbm 0x500000 12 = true ∧ imgHeader = imgHeader + s.word (0x500000 + 8) ∧ inHbm 0x500000 imgHeader = true
        ∧ s.knownBad 0x500000 imgHeader = none ∧ s.flashHere = true ∧ imgVerify 0 0 [] = 1)
    ∧ (let w := tget (opened (paired5 [])).host.windows 2
       w.perms ≠ 0 ∧ w.base ≤ 0x500000 ∧ 0x500000 + 1 ≤ w.base + w.size * 4096)
    ∧ (opened (paired5 [])).mirrorHit 0x500000 1 = false ∧ ((opened (paired5 [])).neighbourOf (mapped ip9)).isSome = true
    ∧ (opened (paired5 [])).linkUp = true ∧ (opened (paired5 [])).host.endpoint = none
    ∧ (0x500000 : DWord).toNat < 2 ^ 48 ∧ (0x500000 : DWord).toNat + (4096 : DWord).toNat < 2 ^ 48
    ∧ (opened ready).pwr.released = false := by decide +kernel

/-! ### Clocks, power and the test port -/

/-- Loop 3 is locked, or coasts and may relock. -/
def locked3 : State := ready.setFld .clkLoopStat 0 3 clkLoopStat_locked 1
def coasting3 : State :=
  let s := (ready.setFld .clkLoopStat 0 3 clkLoopStat_locked 0).setFld .clkLoopStat 0 3 clkLoopStat_coasting 1
  { s with pwr := { s.pwr with ramping := 8 } }

theorem meets_Clocks :
    locked3.pwr.st ≠ .off ∧ ready.pwr.st ≠ .off ∧ locked3.bit .clkSrcStat 0 0 clkSrcStat_activeSel = false
    ∧ locked3.locked 3 = true ∧ locked3.locked 26 = false
    ∧ ((ready.setFld .clkSrcStat 0 0 clkSrcStat_activeSel 1).bit .clkSrcStat 0 0 clkSrcStat_activeSel = true)
    ∧ (ready.setFld .clkSrcStat 0 0 clkSrcStat_xbStable 1).crystalOk true = true
    ∧ (ready.setFld .clkSrcStat 0 0 clkSrcStat_xbStable 0).crystalOk true = false
    ∧ coasting3.coasts 3 = true ∧ coasting3.pwr.ramping.testBit 3 = true ∧ coasting3.locked 3 = false
    ∧ (tget locked3.irq.srcs 0).st = .idle := by decide +kernel

/-- A judgment with both crystals stable, and with none. -/
def bothGood : BootInfo := { xa := true, xb := true, opens := true }
def noneGood : BootInfo := { xa := false, xb := false, opens := false }
/-- The machine after reset in a power state. -/
def powered (st : PwrSt) (low : Bool) : State := { State.reset with pwr := { State.reset.pwr with st := st, ownLow := low } }

/-- Zeros stand where the boot store's records and the image of slot 0 begin. -/
def erased : State :=
  let z : List Byte := [0, 0, 0, 0]
  ((State.reset.flashPut (slotOffset 0) z).flashPut (recOffset 0) z).flashPut (recOffset 1) z

/-- The clauses of PowerUp; whether an image verifies rests on fuses and signatures the spec leaves open, so that only an image that does
not is exhibited: zeros are none. -/
theorem meets_PowerUp :
    State.reset.pwr.st = .off ∧ State.reset.pwr.overVolt = false ∧ bothGood.xa = true ∧ State.reset.pwr.ownLow = false
    ∧ noneGood.xa = false ∧ noneGood.xb = false
    ∧ (erased.bootRec 0).isNone = true ∧ (erased.bootRec 1).isNone = true ∧ imgFormOk (erased.flashBytes (slotOffset 0) 32) = false
    ∧ (powered .judging false).pwr.st = .judging ∧ (powered .off true).pwr.ownLow = true
    ∧ (powered .running true).pwr.ownLow = true ∧ (powered .running true).pwr.st = .running ∧ (powered .held false).pwr.st = .held
    ∧ (powered .flashWait true).pwr.st = .flashWait ∧ (powered .flashWait true).pwr.released = false := by decide +kernel

theorem meets_PowerLossAndReset :
    (powered .running false).pwr.st ≠ .off ∧ State.reset.tripAt ≤ 880 ∧ 300 < State.reset.tripAt - 80
    ∧ (let s := { powered .running false with refclk := 100000005 }
       let s := { s with pwr := { s.pwr with watch := some 5 } }
       s.pwr.watch = some 5 ∧ 100000000 ≤ (s.refclk - 5).toNat)
    ∧ (let s := powered .held false
       let s := { s with pwr := { s.pwr with holdOver := true, tripHold := true } }
       s.pwr.st = .held ∧ s.pwr.holdOver = true ∧ s.pwr.rstLow = false ∧ s.pwr.tripHold = true ∧ s.pwr.cause < 8)
    ∧ (powered .held false).pwr.tripHold = false := by decide +kernel

theorem meets_ThrottleTelemetryTraining :
    (let s := { ready.setFld .clkLoopStat 0 1 clkLoopStat_locked 1 with refclk := 200000000 }
     s.locked 1 = true ∧ tget s.pwr.hot 1 = none ∧ s.throttleAt ≤ 800 ∧ 300 < s.calmBelow ∧ s.level 1 = 0
      ∧ (tget s.irq.srcs 1).st = .idle ∧ s.pwr.st = .running ∧ 10000 ≤ (s.refclk - s.pwr.sampleTick).toNat
      ∧ (let h := { s with pwr := { s.pwr with hot := tput [] 1 (some 5), openTick := some 5 } }
         tget h.pwr.hot 1 = some 5 ∧ 10000 ≤ (h.refclk - 5).toNat ∧ h.pwr.openTick = some 5 ∧ h.pwr.training = false
          ∧ 100000000 ≤ (h.refclk - 5).toNat)
      ∧ (let h := s.setFld .clkThrottle 0 0 clkThrottle_levels 8
         h.level 1 ≠ 0 ∧ 100000 ≤ (h.refclk - tget h.pwr.calm 1).toNat))
    ∧ (ready.setFld .clkLoopStat 0 1 clkLoopStat_locked 0).locked 1 = false
    ∧ (let s := { ready with pwr := { ready.pwr with training := true } }
       s.pwr.training = true ∧ s.pwr.lost.contains (16 + 1) = false)
    ∧ ready.pwr.training = false ∧ 5 / 3 = 1 ∧ ∀ k ∈ [0, 1, 2], k / 3 ≠ 1 := by decide +kernel

theorem meets_TestAccessPort :
    ready.pwr.st ≠ .off ∧ tapListed 0x55 = false ∧ tapListed 0x01 = true ∧ State.reset.pwr.st = .off := by decide +kernel

/-! ### The codec complex -/

/-- A ring control block at 0x500000: base 0x580000, 64 KiB, prod and cons. -/
def ringWords (prod cons : Nat) : List Nat := wordsAre 16 [(0, 0x580000), (2, 65536), (3, prod), (4, cons)]
/-- A decode descriptor for engine 1: one frame, a crop of 2 by 2, BF16. -/
def decDesc : List Nat :=
  wordsAre 32 [(0, 4 + 2 * 2 ^ 16), (3, 0x20002), (5, 0x03010001), (6, 0x500000), (8, 0x600000), (10, 12), (11, 24), (24, 0x700000),
    (26, 0x4000000), (28, 34), (29, 1), (30, 1000), (31, 0x20002)]
/-- An encode descriptor for engine 8: one frame of 64 by 64. -/
def encDesc : List Nat :=
  wordsAre 32 [(0, 30 * 2 ^ 20), (1, 0x10000), (2, 0x400040), (3, 0x1001E), (4, 100), (5, 100), (8, 0x600000), (10, 64), (11, 8192),
    (12, 0x500000), (18, 8), (19, 0x4000000), (21, 4)]
/-- Queue `k` of context 2 has the descriptor `d` at its head; the ring holds a record of 96 bytes where `prod` is 128. -/
def cdcQueued (k : QKind) (d : List Nat) (prod : Nat) : State :=
  let q := qRegs k
  let s := (ready.setFld q.baseHi 0 2 mtxQBaseHi_size 4).setFld q.baseHi 0 2 mtxQBaseHi_baseHi 0x0200
  let s := (s.setReg q.baseLo 0 2 0x0F000000).setFld q.tail 0 2 mtxQTail_tail 1
  ((s.storeWords 0x02000F000000 d).storeWords 0x500000 (ringWords prod 0)).storeWords 0x580000 (wordsAre 8 [(0, 96), (1, 1)])
/-- Codec job 0 of context 2 runs on its engine. -/
def cdcRuns (k : QKind) (d : List Nat) (prod : Nat) (f : CdcJob → CdcJob) : State :=
  let s := cdcQueued k d prod
  let j : CdcJob := { newCdcJob k 2 d 0 (ready.sample 2) with granted := true }
  { s with cdc := { s.cdc with jobs := [(0, f j)], nextJob := 1 } }
/-- The accesses of job `j` are allowed, find no error and are not held. -/
def cdcAccess (s : State) (j : CdcJob) (rs ws : List (Nat × Nat)) : Bool :=
  rs.all (fun y => unitReadOk y.1 y.2 && (s.knownBad y.1 y.2).isNone) && ws.all (fun y => j.writeOk s y.1 y.2)
    && !s.trafficHeld codecIsland rs && !s.storesHeld codecIsland ws

theorem meets_CodecDescriptors :
    (let s := cdcQueued .decode decDesc 0
     s.maint = false ∧ s.qCanIssue .decode 0 2 = true ∧ descRegionOk .decode 0 (s.descAddr .decode 0 2) = true
      ∧ cdcWaitPrev .decode (s.descWords .decode 0 2) = false ∧ s.trafficHeld codecIsland [(s.descAddr .decode 0 2, 128)] = false
      ∧ s.knownBad (s.descAddr .decode 0 2) 128 = none
      ∧ issueStatus (s.cdcChecks .decode false (s.descWords .decode 0 2)) = some .ok)
    ∧ (let s := cdcQueued .encode encDesc 0
       s.qCanIssue .encode 0 2 = true ∧ cdcWaitPrev .encode (s.descWords .encode 0 2) = false
        ∧ s.trafficHeld codecIsland [(s.descAddr .encode 0 2, 128)] = false ∧ s.knownBad (s.descAddr .encode 0 2) 128 = none
        ∧ issueStatus (s.cdcChecks .encode false (s.descWords .encode 0 2)) = some .ok)
    ∧ (let s := cdcQueued .encode (encDesc.set 1 0) 0
       issueStatus (s.cdcChecks .encode false (s.descWords .encode 0 2)) = some .badDescriptor)
    ∧ (let s := (cdcQueued .decode decDesc 0).setFld .cdcMode 0 0 cdcMode_maint 1
       s.maint = true ∧ issueStatus (s.cdcChecks .decode true decDesc) = some .ok)
    ∧ (let s := cdcRuns .decode decDesc 0 fun j => { j with granted := false }
       s.cdcRunning 1 = none ∧ s.cdcPick 1 none = some 0 ∧ (s.cdcJob 0).eng = 1 ∧ cdcCont .decode (s.cdcJob 0).words = false)
    ∧ (let s := cdcRuns .encode encDesc 0 fun j => { j with granted := false }
       s.cdcPick 8 none = some 0 ∧ cdcCont .encode (s.cdcJob 0).words = false)
    ∧ (let s := ready.setFld .cdcMode 0 0 cdcMode_maintPending 1
       s.bit .cdcMode 0 0 cdcMode_maintPending = true ∧ s.cdcQuiet = true) := by decide +kernel

/-- No byte of HBM lies in the thread context store. -/
theorem noContextStore_of_hbm (a n : Nat) (h : a + n ≤ 0x018000000000) : NoContextStore a n := by
  intro l t hl
  simp [regionOf, show a + l < 0x018000000000 by omega]

/-- Engine 1's stream has a picture due with index `i`. -/
def withDue (i : Nat) (s : State) : State := s.setDecStream 1 { s.decStream 1 with due := some ⟨i, false, false⟩ }
/-- A decode job has a record whose flags are `w`, with word 7 `r`. -/
def withRecord (w r : Nat) : State := (cdcRuns .decode decDesc 128 id).storeWords 0x580000 (wordsAre 8 [(0, 96), (1, w), (7, r)])

theorem meets_DecodeEngines :
    (let s := cdcRuns .decode decDesc 128 id
     let j := s.cdcJob 0
     let r := s.ringAt j.ring
     let h := s.wordsAt (r.base + r.cons) 8
     s.cdcRunning 1 = some 0 ∧ j.eng = 1 ∧ j.next < dFrames j.words ∧ (s.decStream 1).due = none ∧ r.cons ≠ r.prod
      ∧ recordBad r h = false ∧ j.held = [] ∧ (h.getD 1 0).testBit 3 = false ∧ (h.getD 1 0).testBit 2 = false
      ∧ h.getD 3 0 ≤ dFirst j.words + dReorder j.words + j.next * dFrameStride j.words ∧ 0 < dFrameStride j.words
      ∧ cdcAccess s j [(j.ring, 64), (r.base + r.cons, ceilDiv (32 + h.getD 0 0) 64 * 64)] [(j.ring + 16, 4)] = true)
    ∧ (let s := withRecord 8 0
       let j := s.cdcJob 0
       let r := s.ringAt j.ring
       recordBad r (s.wordsAt (r.base + r.cons) 8) = false ∧ ((s.wordsAt (r.base + r.cons) 8).getD 1 0).testBit 3 = true
        ∧ cdcAccess s j [(j.ring, 64), (r.base + r.cons, 128), (daddr j.words 24, 32)]
            ((j.ring + 16, 4) :: (List.range' j.next (dFrames j.words - j.next)).flatMap (frameSpans j.words)) = true)
    ∧ (let s := withRecord 1 1
       let j := s.cdcJob 0
       let r := s.ringAt j.ring
       recordBad r (s.wordsAt (r.base + r.cons) 8) = true
        ∧ cdcAccess s j [(j.ring, 64), (r.base + r.cons, 32)] [(j.ring + 16, 4)] = true)
    ∧ (let s := { cdcRuns .decode decDesc 0 id with refclk := 5000 }
       let j := s.cdcJob 0
       j.words.getD 30 0 ≠ 0 ∧ (s.ringAt j.ring).cons = (s.ringAt j.ring).prod ∧ j.words.getD 30 0 ≤ (s.refclk - j.tick).toNat
        ∧ (s.decStream 1).due = none ∧ j.next < dFrames j.words
        ∧ cdcAccess s j [(j.ring, 64), (daddr j.words 24, 32)]
            ((List.range' j.next (dFrames j.words - j.next)).flatMap (frameSpans j.words)) = true)
    ∧ (let s := cdcRuns .decode decDesc 0 id
       let j := s.cdcJob 0
       (s.refclk - j.tick).toNat < j.words.getD 30 0)
    ∧ (let s := withDue 0 (cdcRuns .decode decDesc 0 id)
       let j := s.cdcJob 0
       let ranges := [(daddr j.words 26, dStoreMib j.words * 2 ^ 20), (daddr j.words 24, 32)] ++ frameSpans j.words 0
       wantedFrame j.words 0 = some j.next ∧ dFrames j.words = j.next + 1 ∧ dChannels j.words ≤ dCStride j.words ∧ j.held = []
        ∧ ranges.Pairwise (fun y z => y.1 + y.2 ≤ z.1 ∨ z.1 + z.2 ≤ y.1)
        ∧ (∀ y ∈ ranges, y.1 + y.2 ≤ 0x018000000000)
        ∧ cdcAccess s j [(daddr j.words 26, dStoreMib j.words * 2 ^ 20), (daddr j.words 24, 32)]
            ((daddr j.words 26, dStoreMib j.words * 2 ^ 20) :: frameSpans j.words j.next) = true)
    ∧ (let s := withDue 9 (cdcRuns .decode decDesc 0 id)
       let j := s.cdcJob 0
       wantedFrame j.words 9 = none ∧ j.held = []
        ∧ cdcAccess s j [(daddr j.words 26, dStoreMib j.words * 2 ^ 20)] [(daddr j.words 26, dStoreMib j.words * 2 ^ 20)] = true)
    ∧ (let s := withDue 0 (cdcRuns .decode decDesc 0 id)
       ¬ ((s.decStream 1).began : Int) ≤ -1)
    ∧ (let s := cdcRuns .decode decDesc 0 fun j => { j with next := 1 }
       dFrames (s.cdcJob 0).words ≤ (s.cdcJob 0).next ∧ (s.decStream 1).due = none ∧ (s.cdcJob 0).c < 16)
    ∧ ready.cdcRunning 1 = none := by decide +kernel

/-- A job's stalled record: 96 bytes, a random access point. -/
def waits96 : Stalled := { bytes := List.replicate 96 7, rap := true, afterDrop := false }

/-- The clauses of EncodeEngines; how long a coded picture is rests on the coder, which the spec leaves open, so that room for a record is
exhibited for one that waits, and for whichever length the coder gives. -/
theorem meets_EncodeEngines :
    (let s := cdcRuns .encode encDesc 0 id
     let j := s.cdcJob 0
     let area := (daddr j.words 19, eStoreMib j.words * 2 ^ 20)
     s.cdcRunning 8 = some 0 ∧ j.eng = 8 ∧ j.slice = 0 ∧ j.stalled = none ∧ j.next < cdcFrames .encode j.words
      ∧ eClass j.words = 0 ∧ eRc j.words = 0 ∧ 0 < (s.ringAt j.ring).size
      ∧ (∀ y ∈ [area, (j.ring, 64), (0x580000, 128)], y.1 + y.2 ≤ 0x018000000000)
      ∧ [area, (j.ring, 64), (0x580000, 128)].Pairwise (fun y z => y.1 + y.2 ≤ z.1 ∨ z.1 + z.2 ≤ y.1)
      ∧ cdcAccess s j (encReads j ++ [(j.ring, 64), area]) (area :: [(0x580000, 128), (j.ring + 12, 4)]) = true)
    ∧ (let s := cdcRuns .encode (encDesc.set 0 (30 * 2 ^ 20 + 1)) 0 fun j => { j with slice := 1 }
       eClass (s.cdcJob 0).words = 1 ∧ (s.cdcJob 0).slice ≠ 0)
    ∧ (let s := cdcRuns .encode encDesc 0 fun j => { j with next := 1, stalled := some waits96 }
       let j := s.cdcJob 0
       let r := s.ringAt j.ring
       r.place (ceilDiv (32 + 96) 64 * 64) = some (false, 0) ∧ 0 < r.size
        ∧ [(j.ring, 64), (r.base, 128)].Pairwise (fun y z => y.1 + y.2 ≤ z.1 ∨ z.1 + z.2 ≤ y.1)
        ∧ (∀ y ∈ [(j.ring, 64), (r.base, 128)], y.1 + y.2 ≤ 0x018000000000)
        ∧ cdcAccess s j [(j.ring, 64)] [(r.base, 128), (j.ring + 12, 4)] = true)
    ∧ (let s := cdcRuns .encode encDesc 65000 id
       (s.ringAt (s.cdcJob 0).ring).place (ceilDiv (32 + 9600) 64 * 64) = none)
    ∧ (let s := cdcRuns .encode encDesc 0 fun j => { j with next := 1 }
       cdcFrames .encode (s.cdcJob 0).words ≤ (s.cdcJob 0).next ∧ (s.cdcJob 0).c < 16) := by decide +kernel

/-! ### The whole block -/

theorem meets_IdleTicks :
    State.reset.pending = [] ∧ State.reset.pwr.st = .off ∧ ready.pending = [] ∧ ready.pwr.st ≠ .off ∧ ready.ram.snap = none
    ∧ ready.ram.refillOut = [] ∧ ready.ram.jobs = [] ∧ ready.red.faults = [] ∧ ready.red.held = [] ∧ ready.red.due = []
    ∧ ready.red.rings = [] ∧ ready.atn.starved = [] ∧ (∀ p, p < 6 → ready.linked p = false) := by decide +kernel

/-- The hypotheses of AccessOrder, of ArbiterServesHighestPriority with a tie, and of FormatsRoundTrip. -/
theorem meets_PlainRules :
    ([({ (default : Acc) with addr := 8, bits := 64 }), { (default : Acc) with addr := 16, bits := 64 }] : List Acc)[1]?.isSome = true
    ∧ (∀ x ∈ [(2, 5), (7, 5)], x.1 < 16) ∧ (∀ x ∈ [(2, 5), (7, 5)], ∀ y ∈ [(2, 5), (7, 5)], x.1 = y.1 → x.2 = y.2)
    ∧ 0x3C00 < 2 ^ (1 + ffFp16.eb + ffFp16.mb) ∧ ffFp16.decode 0x3C00 ≠ .nan := by decide +kernel

theorem meets_StepsKeepMemoryCanonical :
    Memory.wf State.reset.mem = true ∧ Memory.wf (mtxQueued 0).mem = true ∧ nextIs (step State.reset) (fun _ => true) = true := by
  decide +kernel

theorem meets_MailboxCommandsReadBack :
    MbCmd.devInfo.fits = true ∧ (MbCmd.fabRouteSet 1 62 2 [1, 0]).fits = true ∧ (MbCmd.ctxQueueSet 2 0 1 4 4 0x1000 0x2000).fits = true
    ∧ (MbCmd.redGroupSet 1 2 (List.replicate 16 7)).fits = true := by decide +kernel

/-! ### Ill-formed commands -/

/-- A well-formed picture of 2 by 2 samples, a token packet and a datagram. -/
def pic22 : Pic := { (default : Pic) with w := 2, h := 2, bd := 8, y := [0, 0, 0, 0], cb := [0], cr := [0] }
def dgramOk : Datagram := { ip := mapped ip9, port := 9000, bytes := [] }

/-- One command for each check of Instr.wf, which refuses it. -/
theorem test_wf_refuses :
    [Instr.sadd 1 (2 ^ 18) default, .arriveTokenReceive { tokenPacket default with length := 9 },
     .writePacketReceive ⟨{ memPacket .write 0 with addr := 2 ^ 48 }, false⟩, .readPacketReceive (memPacket .read 0) .clean,
     .decodeJobIssue (.lumdom []), .ringRecordConsume 1 ⟨some { (default : SeqHdr) with h := 1 }, [], true, []⟩ .clean,
     .pictureDecoded 1 { pic22 with bd := 9 } [] false .clean, .pictureDecoded 1 { pic22 with y := [] } [] false .clean,
     .pictureDecoded 1 { pic22 with mono := true } [] false .clean, .pictureDecoded 1 pic22 [⟨1, false, []⟩] false .clean,
     .linkTrainingComplete 2 true [40], .laneFault 2 9, .rotReady 0 17 0, .halfWidth 2 ⟨[0, 1, 2, 9], 40⟩,
     .ident 2 0 4096 3 0 false, .ident 2 0 0 6 0 false, .flitReceive 2 [], .replayRequest 2 8192,
     .doorbell { dgramOk with ip := [] }, .echoReq { dgramOk with port := 65536 }, .ctxSchedSet h0 2 1 1 [],
     .stepGroupCreate h0 1 1 4 1 0 0 0 0 [], .bankTableSet h0 0 1 [], .snapshotListSet h0 1 [], .repairListPut h0 1 [],
     .redGroupSet h0 0 0 [], .fabRouteSet h0 1 0 1 [], .hostAddrSet h0 0 0 ip9, .hostNeighSet h0 0 1 [],
     .allowSet h0 1 [], .eventEndpointSet h0 9000 ip9, .attest h0 [] 1 0].all (fun c => !c.wf) = true := by decide +kernel

theorem test_wf_accepts :
    [Instr.sadd 1 3 default, .arriveTokenReceive (tokenPacket default), .writePacketReceive ⟨memPacket .write 0, false⟩,
     .pictureDecoded 1 pic22 [⟨0, false, []⟩] false .clean, .linkTrainingComplete 2 true (List.replicate 9 40), .laneFault 2 8,
     .doorbell dgramOk, .fabRouteSet h0 1 0 1 [4], .attest h0 (List.replicate 32 0) 1 0].all Instr.wf = true := by decide +kernel

/-! ### Worked values of the spec -/

/-- The registers stand in `allRegs` in the order of their constructors. -/
theorem test_all_regs : (allRegs.zipIdx.all fun x => x.1.ctorIdx == x.2) = true := by decide +kernel

/-- "Worked example: one address, two mappings" (11): with L = 16, 0x015C_0001_3040 is stack 16, 0xC_0000_6040, pseudo-channel 33. -/
theorem test_hbm_decode :
    hbmDecode 16 0x015C00013040 = (16, 0xC00006040) ∧ pseudoChannel 0xC00006040 = 33 ∧ hbmDecode 16 0x13040 = (19, 0x40) := by
  decide +kernel

/-- "Worked example: an E4M3 activation tensor" (03): A = 5.7 with margin 1 gives e = 5. -/
theorem test_scale_exponent :
    (match ffFp32.decode 0x40B66666 with
     | .fin false m e => expFor .e4m3 1 (m, e) == 5
     | _ => false) = true := by decide +kernel

/-- "Worked example: a small contribution kept alive" (03): 1.0 plus 3 × 2^−26 rounds up below 24,576, and otherwise not. -/
theorem test_small_contribution :
    foldFp 0x3F800000 (.fin false 3 (-26)) 24575 = 0x3F800001 ∧ foldFp 0x3F800000 (.fin false 3 (-26)) 24576 = 0x3F800000 := by
  decide +kernel

/-- "Worked example: one bucket on a ring of eight" (12): under s = −29, 0.0123 converts to 6,603,512 and −4.1 saturates; shard 3 starts
at rank 4. -/
theorem test_contributions :
    (convInt (-(2 ^ 31 - 1)) (2 ^ 31 - 1) ((ffFp32.decode 0x3C4985F0).scale 29)).val = 6603512
    ∧ (convInt (-(2 ^ 31 - 1)) (2 ^ 31 - 1) ((ffFp32.decode 0xC0833333).scale 29)).val = -2147483647
    ∧ (convInt (-(2 ^ 31 - 1)) (2 ^ 31 - 1) ((ffFp32.decode 0xC0833333).scale 29)).sat = true
    ∧ startMember { grpOf [] with size := 8 } 3 = 4 := by decide +kernel

/-- "Worked example: one routing command through a ring" (15): the words of FAB_ROUTE_SET read as that command. -/
theorem test_route_command :
    parseCmd ([0x001C0703, 0x11, 0, 0, 0x00080001, 0x05050404, 0x04000505].flatMap (bytesOf 4))
      = some (.fabRouteSet 1 0 8 [4, 4, 5, 5, 5, 5, 0, 4]) := by decide +kernel

/-- "Worked example: a detour on an S ring" (13): 0x2303 is device (1, 6, 3). -/
theorem test_fabric_address : fabCoord 0x2303 0 = 1 ∧ fabCoord 0x2303 1 = 6 ∧ fabCoord 0x2303 2 = 3 := by decide +kernel

/-- "Worked example: one failure in a fleet job" (17): the interval is 16. -/
theorem test_snapshot_interval : intervalOf 35000000 (9000000 * 360000000000) (1200 * 4096) 420000000 1 = 16 := by decide +kernel

/-- "Worked example: two towers, one record, and a mask" (18): the arguments of T1's and T5's raises merge. -/
theorem test_merged_argument :
    let s := up.setReg .irqSrcCfg 0 66 0xA0
    (tget (s.raise 66 (ctxTower 2 1)).irq.srcs 66).arg = 0x0001000000000202
    ∧ (tget ((s.raise 66 (ctxTower 2 1)).raise 66 (ctxTower 2 5)).irq.srcs 66).arg = 0x0002000000002202
    ∧ catalogue 66 = (0, 4, 2, 0) := by decide +kernel

/-- "Worked example: a ragged edge in a camera head" (05): 14 rows of tiles of 2,048, the last ending at 27,648. -/
theorem test_tile_rows :
    (tileRows [(0, 27648)] 2048).length = 14 ∧ (tileRows [(0, 27648)] 2048).getLast? = some (26624, 27648, 0) := by decide +kernel

/-! ### Instruction words (R203 to R206) -/

/-- VCOMPRESS v6, v3, m1 with z is 0x0000_0001_0004_667B (08, the worked example); the others are put together by hand from R203's layout and
the group tables: SLI s4, 5; BEQ s1, s2; a masked VFMA under m1; VADD, VCVT, VQADD and VAND of v1, v2, v3; VLD v1, s2; VST v1, s2; NOP. -/
theorem test_instruction_words :
    let z : Fields := default
    let v : Fields := { z with d := 1, a := 2, b := 3 }
    let m : Fields := { z with d := 1, a := 2 }
    decodeVec 2 9 0 0x000000010004667B = some (.vcompress 2 9 { z with d := 6, a := 3, b := 1, up := 1 })
    ∧ decodeVec 2 9 0 0x000000050000040B = some (.sli 2 9 { z with d := 4, up := 5 })
    ∧ decodeVec 2 9 0 0x0000000000082011 = some (.beq 2 9 { z with a := 1, b := 2 })
    ∧ decodeVec 2 9 0 0x00000000920C4123 = some (.vfma 2 9 { v with c := 4, mask := 1, mu := true })
    ∧ decodeVec 2 9 0 0x00000000000C4130 = some (.vadd 2 9 v) ∧ decodeVec 2 9 0 0x00000000000C4140 = some (.vcvt 2 9 v)
    ∧ decodeVec 2 9 0 0x00000000000C4150 = some (.vqadd 2 9 v) ∧ decodeVec 2 9 0 0x00000000000C4160 = some (.vand 2 9 v)
    ∧ decodeVec 2 9 7 0x0000000000004181 = some (.vld 2 9 m 7) ∧ decodeVec 2 9 0 0x0000000000004191 = some (.vst 2 9 m)
    ∧ decodeVec 2 9 0 0x00000000000000AB = some (.nop 2 9 z)
    ∧ [0x0F, 0x1A, 0xAC, 0xB0, 0xFF].all (fun w => (decodeVec 2 9 0 w).isNone) = true := by decide +kernel

end Sys2Proof.Tests
end

section
/-! The machine right after reset (R8, R522, R523): its registers, its tables and its memory. -/

namespace Sys2Proof.Machine

/-! ### Registers -/

/-- The registers whose reset value is not put together from their fields' reset values: the lane maps, which depend on the
tower, and the fused serial number. -/
def offTable : List RegId := [.plynLaneMapTx, .plynLaneMapRx, .secSerialLo, .secSerialHi]

/-- The reset word a register's table states: its fields' reset values in place. -/
def tableReset (r : RegId) : Word :=
  BitVec.ofNat 32 ((regDef r).fields.foldl (fun acc f => acc + f.reset * 2 ^ f.lo) 0)

theorem regReset_eq_tableReset {r : RegId} (t : Nat) (hr : r ∉ offTable) : regReset r t = tableReset r := by
  cases r
  case plynLaneMapTx | plynLaneMapRx | secSerialLo | secSerialHi => exact absurd hr (by decide)
  all_goals rfl

/-- No field of a register's table disturbs another one's reset value. -/
theorem fldOf_tableReset (r : RegId) : ∀ f ∈ (regDef r).fields, fldOf (tableReset r) f = f.reset := by
  cases r <;> decide +kernel

@[simp] theorem reset_reg (r : RegId) (t i : Nat) : State.reset.reg r t i = regReset r t := rfl

/-- After reset a field reads as the reset value its register's table states (R8). -/
theorem reset_fld {r : RegId} {f : Fld} (t i : Nat) (hr : r ∉ offTable := by decide)
    (hf : f ∈ (regDef r).fields := by decide) : State.reset.fld r t i f = f.reset := by
  rw [State.fld, reset_reg, regReset_eq_tableReset t hr, fldOf_tableReset r f hf]

/-- After reset a field reads as set where its table states 1. -/
theorem reset_bit {r : RegId} {f : Fld} (t i : Nat) (hr : r ∉ offTable := by decide)
    (hf : f ∈ (regDef r).fields := by decide) : State.reset.bit r t i f = (f.reset == 1) := by
  rw [State.bit, reset_fld t i hr hf]

/-! ### Memory -/

/-- An address inside a listed undefined range has a range number. -/
theorem State.undefAt_of_mem {s : State} {a b m k : Nat} (hu : (b, m, k) ∈ s.ram.undef) (hlo : b ≤ a) (hhi : a < b + m) :
    ∃ n, s.undefAt a = some n := by
  rw [← Option.isSome_iff_exists, State.undefAt, Option.isSome_map, List.find?_isSome]
  exact ⟨(b, m, k), hu, by simp [hlo, hhi]⟩

/-- Outside the thread context store a byte of an undefined range reads as a free value of that range (R148). -/
theorem State.byte_of_undefAt {s : State} {a k : Nat} (hu : s.undefAt a = some k) (hc : ∀ t, regionOf a ≠ .ctxStore t) :
    s.byte a = Config.freeByte k a := by
  unfold State.byte
  split
  case h_1 t ht => exact absurd ht (hc t)
  case h_2 => rw [hu]

/-- HBM, the drum SRAM windows and the accumulator windows (R23). -/
def inMemory (a : Nat) : Prop :=
  a < 0x018000000000 ∨ (0x020000000000 ≤ a ∧ a < 0x020080000000) ∨ (0x028000000000 ≤ a ∧ a < 0x028010000000)

/-- Apart from the memories the address map has register space and reserved addresses only (R23, R24). -/
theorem regionOf_of_not_inMemory {a : Nat} (h : ¬ inMemory a) : regionOf a = .reserved ∨ regionOf a = .regSpace := by
  simp only [inMemory, not_or, not_and] at h
  obtain ⟨hhbm, hdrum, hacc⟩ := h
  by_cases hgap : a < 0x020000000000
  · exact .inl (by rw [regionOf, if_neg hhbm, if_pos hgap])
  have hdrum : ¬ a < 0x020080000000 := hdrum (by omega)
  by_cases hgap' : a < 0x028000000000
  · exact .inl (by rw [regionOf, if_neg hhbm, if_neg hgap, if_neg hdrum, if_pos hgap'])
  have hacc : ¬ a < 0x028010000000 := hacc (by omega)
  by_cases hlow : a < 0x030000000000
  · exact .inl (by rw [regionOf, if_neg hhbm, if_neg hgap, if_neg hdrum, if_neg hgap', if_neg hacc, if_pos hlow])
  by_cases hreg : a < 0x030100000000
  · exact .inr (by
      rw [regionOf, if_neg hhbm, if_neg hgap, if_neg hdrum, if_neg hgap', if_neg hacc, if_neg hlow, if_pos hreg])
  · exact .inl (by
      rw [regionOf, if_neg hhbm, if_neg hgap, if_neg hdrum, if_neg hgap', if_neg hacc, if_neg hlow, if_neg hreg])

/-- The ranges undefined at reset cover the memories (R522). -/
theorem reset_undefAt {a : Nat} (h : inMemory a) : ∃ k, State.reset.undefAt a = some k := by
  rcases h with hhbm | ⟨hlo, hhi⟩ | ⟨hlo, hhi⟩
  · exact State.undefAt_of_mem (b := 0) (m := 0x018000000000) (k := 0) (by decide) (by omega) (by omega)
  · exact State.undefAt_of_mem (b := 0x020000000000) (m := 0x80000000) (k := 1) (by decide) hlo (by omega)
  · exact State.undefAt_of_mem (b := 0x028000000000) (m := 0x10000000) (k := 2) (by decide) hlo (by omega)

/-- After reset HBM, scratch, queue memory and accumulator memory read as free values (R522). -/
theorem reset_byte {a : Nat}
    (h : regionOf a = .hbm ∨ (∃ t, regionOf a = .scratch t) ∨ (∃ t, regionOf a = .queueMem t) ∨ (∃ t, regionOf a = .acc t)) :
    ∃ k, State.reset.byte a = Config.freeByte k a := by
  have hin : inMemory a := Classical.byContradiction fun hout => by
    rcases regionOf_of_not_inMemory hout with hr | hr <;> simp [hr] at h
  obtain ⟨k, hk⟩ := reset_undefAt hin
  exact ⟨k, State.byte_of_undefAt hk fun t ht => by simp [ht] at h⟩

/-! ### The whole machine -/

/-- Settles O27: fields by the tables' reset values, memory by the ranges undefined at reset, the rest as `State.reset` lists
it. -/
theorem resetLeaves : Obligations.ResetLeaves := by
  unfold Obligations.ResetLeaves
  refine ⟨rfl, rfl, rfl, rfl, reset_fld 0, rfl, rfl, reset_fld 0 0, reset_fld 0 0, reset_fld 0 0, reset_fld 0 0,
    reset_fld 0 0, reset_fld 0 0, fun n => ⟨reset_bit 0 n, reset_bit 0 n⟩,
    fun t => ⟨reset_fld t 0, reset_fld t 0, reset_fld t 0, reset_fld t 0⟩, fun t c => reset_fld t c,
    fun k => ⟨rfl, rfl⟩, fun n => rfl, fun a => reset_byte⟩

end Sys2Proof.Machine
end
